-- ==== Sys2Proof/Word.lean ====
section
/-! DEFINITION. The word types of the model and the sparse map type that every addressed store of the
machine is written in (spec 00 R3, R4). -/

namespace Sys2Proof

/-- A byte. -/
abbrev Byte := BitVec 8
/-- A 32-bit word. -/
abbrev W32 := BitVec 32
/-- A 64-bit word. -/
abbrev W64 := BitVec 64

/-- Sparse data by numeric key: keys strictly rising, no entry equal to what an unlisted key reads as. -/
abbrev SMap (α : Type) := List (Nat × α)

/-- Local, host or flash memory: address and byte pairs (`Host.Cell`). -/
abbrev Mem := SMap Byte

/-- A capability or a 128-bit register value with its tag (spec 03 R55). -/
structure Cap where
  tag  : Bool
  bits : BitVec 128
  deriving DecidableEq, Repr

/-- Who makes a register access (spec 05 R140, 07 R179, 20 R542, 21 R550). -/
inductive Agent where
  /-- The host driver of the physical function, through BAR0 of the PF. -/
  | pf
  /-- The host driver of virtual function `n`, through its own BAR0. -/
  | vf (n : BitVec 8)
  /-- The TMC, over the management bus: acts as the host driver of the PF and as the TMC. -/
  | tmc
  /-- Headland code at a ring, through set-up space with SYS. -/
  | ring (r : BitVec 2)
  deriving DecidableEq, Repr

end Sys2Proof
end

