-- ==== Sys2Proof/Machine/Bits.lean ====
section
/-! DEFINITION. Bit-field, byte-order and small arithmetic helpers used by every unit (spec 00 R3, R4). -/

namespace Sys2Proof.Machine

/-- Field of `w` bits at bit `lo`. -/
def fld {n : Nat} (x : BitVec n) (lo w : Nat) : BitVec w := x.extractLsb' lo w

/-- `x` with the `w` bits at `lo` replaced by `v`. -/
def setFld {n w : Nat} (x : BitVec n) (lo : Nat) (v : BitVec w) : BitVec n :=
  (x &&& ~~~((BitVec.allOnes w).setWidth n <<< lo)) ||| (v.setWidth n <<< lo)

/-- Bit `i` of a number. -/
def natBit (x i : Nat) : Bool := x.testBit i

/-- Bit `i` of a word as a Bool. -/
def bitAt {n : Nat} (x : BitVec n) (i : Nat) : Bool := x.getLsbD i

/-- A word with bit `i` set or clear. -/
def setBit {n : Nat} (x : BitVec n) (i : Nat) (b : Bool) : BitVec n := setFld x i (BitVec.ofBool b)

/-- The little-endian bytes of a number (R4). -/
def toBytes : Nat → Nat → List Byte
  | 0, _ => []
  | n + 1, x => BitVec.ofNat 8 x :: toBytes n (x / 256)

/-- The number that little-endian bytes hold (R4). -/
def ofBytes : List Byte → Nat
  | [] => 0
  | b :: bs => b.toNat + 256 * ofBytes bs

/-- `n` bytes of a list from byte `o`, padded with zeros. -/
def bytesAt (l : List Byte) (o n : Nat) : List Byte :=
  let t := (l.drop o).take n
  t ++ List.replicate (n - t.length) 0

/-- The little-endian number in `n` bytes at offset `o`. -/
def numAt (l : List Byte) (o n : Nat) : Nat := ofBytes (bytesAt l o n)

/-- Bits [lo, lo + w) of the little-endian number that a byte list holds. -/
def bitsOf (l : List Byte) (lo w : Nat) : Nat :=
  (ofBytes (bytesAt l (lo / 8) ((w + lo % 8 + 7) / 8)) >>> (lo % 8)) % 2 ^ w

/-- Saturating addition below `2^w`. -/
def satAdd (w x y : Nat) : Nat := min (x + y) (2 ^ w - 1)

/-- Ceiling division. -/
def cdiv (a b : Nat) : Nat := (a + b - 1) / b

/-- Round down to a multiple. -/
def alignDown (a n : Nat) : Nat := a / n * n

/-- A signed value clamped to `n` bits. -/
def satSigned (n : Nat) (x : Int) : Int := max (-(2 ^ (n - 1) : Int)) (min x (2 ^ (n - 1) - 1))

end Sys2Proof.Machine
end

