-- ==== Sys2Proof/Syntax.lean ====
section
/-! DEFINITION. The commands the block takes: one constructor per row of spec/opcode_table.json, its operands
beside it. A headland or strand instruction carries the core it executes on; an engine operation carries the
number of the accepted operation it runs; a fabric message carries the port it came by and its fields. -/

namespace Sys2Proof

/-- The fields a COLL_JOIN carries (spec 15 R411); `rejected` marks the answer that turns a join away. -/
structure Join where
  tenant : BitVec 8
  generation : BitVec 16
  opcode : BitVec 8
  fmt : BitVec 3
  outFp32 : Bool
  count : BitVec 24
  origin : BitVec 10
  nxM1 : BitVec 3
  nyM1 : BitVec 3
  nzM1 : BitVec 4
  root : BitVec 10
  rejected : Bool
  deriving DecidableEq, Repr

/-- One sample of every sensor of a T4 (spec 18 R465, R468, R469): bit `i` of `leak` is the sensor under cold
plate `i`, bit 4 the one under the manifold; temperatures in millidegrees Celsius; flow in 0.01 L/min. -/
structure TraySample where
  rtcMs : W64
  leak : BitVec 5
  inletMC : Int
  outletMC : Int
  plateMC : List Int
  boardMC : Int
  flowCl : BitVec 16
  inputMv : BitVec 16
  inputW : BitVec 16
  /-- the input was outside 48 V to 54 V for 10 ms -/
  inputOut : Bool
  /-- the input was outside 44 V to 56 V for 10 ms -/
  inputFar : Bool
  cellPct : Byte
  cellMv : BitVec 16
  /-- thermal-trip output of the device at position `p` (R454) -/
  devTrip : BitVec 4
  /-- fatal output of the device at position `p` (20 R527) -/
  devFatal : BitVec 4
  /-- writes to the non-volatile log succeed -/
  logOk : Bool
  deriving DecidableEq, Repr

/-- The header of a rack management request (spec 18 R493), after its OP. -/
structure Frame where
  file : Byte
  len : BitVec 16
  seq : W32
  addr : W64
  deriving DecidableEq, Repr

/-- A Tideway message header and payload (spec 15 R406). -/
structure Msg where
  dest : BitVec 10
  src : BitVec 10
  tenant : Byte
  type : BitVec 6
  dirs : BitVec 6
  addr : BitVec 54
  tag : Bool
  poison : Bool
  rid : BitVec 16
  status : BitVec 4
  op : BitVec 5
  /-- LEN: payload bytes; of a READ, the bytes asked for (log entry 19) -/
  len : BitVec 7
  payload : List Byte
  deriving DecidableEq, Repr

/-- The port by which a flit came, and its link header (spec 15 R392): SEQ and VC of a message flit, ACK, and the CREDITS that it
returns for channel CVC. -/
structure Link where
  port : BitVec 4
  seq : BitVec 12
  ack : BitVec 12
  cvc : BitVec 3
  credits : Byte
  vc : BitVec 3
  deriving DecidableEq, Repr

/-- Whose data access a READ or WRITE message carries (04 R95, R101): a headland core's, an engine's, or the read or write of
an embedding update. The header has no field that tells (log entry 19). -/
inductive Access where
  | headland
  | engine
  | update
  deriving DecidableEq, Repr

/-- The commands. -/
inductive Instr where
  -- Registers and time base (02, 00)
  /-- REGISTER_WRITE (R8): A host, management-bus or ring 0/1 write to a set-up register that has no row of its own stores, clears or discards the value by the field's access type. -/
  | registerWrite (agent : Agent) (fn : BitVec 8) (off : BitVec 20) (size : BitVec 5) (value : W64)
  /-- TIME_FLIT_SEND (R41): When the TBC reaches a multiple of 125,000 ns, each active link sends a time flit. -/
  | timeFlitSend
  /-- TIME_FLIT (R41): A received time flit steers the TBC toward the neighbour's by slewing, and updates the master candidate and ALIGNED. -/
  | timeFlit (link : Link) (txTbc rxTbc : W64) (master : BitVec 10) (hops : BitVec 5) (aligned : Bool) (offset : W32)
  /-- HOLDOVER_EXPIRY (R43): When the TBC reaches A + 20,000,000 in holdover, ALIGNED is cleared. -/
  | holdoverExpiry
  /-- MASTER_ELECTION (R44): When the master is fenced or leaves, the lowest-numbered aligned device becomes master within 1 ms, keeping its TBC. -/
  | masterElection (winner : BitVec 10)
  /-- TB_CONTROL_WRITE (R49): A PF write of TB_CONTROL is stored before ID_PLACE.VALID, and otherwise ignored with TB_ERR.LATE_CONTROL set. -/
  | tbControlWrite (agent : Agent) (value : W32)
  /-- REFCLK_LOSS (R53): Loss of the time-base reference switches the island to its internal oscillator, sets REFCLK_LOSS and clears LOCKED and ALIGNED. -/
  | refclkLoss
  /-- REFCLK_RETURN (R53): When the time-base reference returns, Vesol relocks, sets LOCKED and realigns by slewing. -/
  | refclkReturn
  /-- OP_POINT_UPDATE (R51): At least every 1 ms and at each VCORE change, OP_POINT is updated as one complete value. -/
  | opPointUpdate
  -- Headland cores: illegal words and integer instructions (05 R119, R122)
  /-- ILLEGAL_INSTRUCTION (R122): A headland word with an unlisted opcode or func, or the all-zero word, raises the illegal-instruction cause. -/
  | illegalInstruction (core : BitVec 4) (word : W32)
  /-- ADD (R119): Integer add of two G registers. -/
  | add (core : BitVec 4) (rd rs1 rs2 : BitVec 5)
  /-- SUB (R119): Integer subtract of two G registers. -/
  | sub (core : BitVec 4) (rd rs1 rs2 : BitVec 5)
  /-- AND (R119): Bitwise AND of two G registers. -/
  | and (core : BitVec 4) (rd rs1 rs2 : BitVec 5)
  /-- OR (R119): Bitwise OR of two G registers. -/
  | or (core : BitVec 4) (rd rs1 rs2 : BitVec 5)
  /-- XOR (R119): Bitwise XOR of two G registers. -/
  | xor (core : BitVec 4) (rd rs1 rs2 : BitVec 5)
  /-- SHL (R119): Logical shift left of a G register. -/
  | shl (core : BitVec 4) (rd rs1 rs2 : BitVec 5)
  /-- SHR (R119): Logical shift right of a G register. -/
  | shr (core : BitVec 4) (rd rs1 rs2 : BitVec 5)
  /-- SAR (R119): Arithmetic shift right of a G register. -/
  | sar (core : BitVec 4) (rd rs1 rs2 : BitVec 5)
  /-- SLT (R119): Signed set-less-than of two G registers. -/
  | slt (core : BitVec 4) (rd rs1 rs2 : BitVec 5)
  /-- SLTU (R119): Unsigned set-less-than of two G registers. -/
  | sltu (core : BitVec 4) (rd rs1 rs2 : BitVec 5)
  /-- MIN (R119): Signed minimum of two G registers. -/
  | min (core : BitVec 4) (rd rs1 rs2 : BitVec 5)
  /-- MAX (R119): Signed maximum of two G registers. -/
  | max (core : BitVec 4) (rd rs1 rs2 : BitVec 5)
  /-- MUL (R119): Integer multiply, low 64 bits. -/
  | mul (core : BitVec 4) (rd rs1 rs2 : BitVec 5)
  /-- MULH (R119): Signed integer multiply, high 64 bits. -/
  | mulh (core : BitVec 4) (rd rs1 rs2 : BitVec 5)
  /-- MULHU (R119): Unsigned integer multiply, high 64 bits. -/
  | mulhu (core : BitVec 4) (rd rs1 rs2 : BitVec 5)
  /-- DIV (R119): Signed 64-bit integer divide. -/
  | div (core : BitVec 4) (rd rs1 rs2 : BitVec 5)
  /-- DIVU (R119): Unsigned 64-bit integer divide. -/
  | divu (core : BitVec 4) (rd rs1 rs2 : BitVec 5)
  /-- REM (R119): Signed integer remainder. -/
  | rem (core : BitVec 4) (rd rs1 rs2 : BitVec 5)
  /-- REMU (R119): Unsigned integer remainder. -/
  | remu (core : BitVec 4) (rd rs1 rs2 : BitVec 5)
  /-- ADDI (R122): Integer add of a signed 16-bit immediate. -/
  | addi (core : BitVec 4) (rd rs1 : BitVec 5) (imm : BitVec 16)
  /-- ANDI (R122): Bitwise AND with an immediate. -/
  | andi (core : BitVec 4) (rd rs1 : BitVec 5) (imm : BitVec 16)
  /-- ORI (R122): Bitwise OR with an immediate. -/
  | ori (core : BitVec 4) (rd rs1 : BitVec 5) (imm : BitVec 16)
  /-- XORI (R122): Bitwise XOR with an immediate. -/
  | xori (core : BitVec 4) (rd rs1 : BitVec 5) (imm : BitVec 16)
  /-- SHI_SHL (R122): SHI with imm[7:6] = 0 shifts left by an immediate amount. -/
  | shiShl (core : BitVec 4) (rd rs1 : BitVec 5) (amount : BitVec 6)
  /-- SHI_SHR (R122): SHI with imm[7:6] = 1 shifts right logically by an immediate amount. -/
  | shiShr (core : BitVec 4) (rd rs1 : BitVec 5) (amount : BitVec 6)
  /-- SHI_SAR (R122): SHI with imm[7:6] = 2 shifts right arithmetically by an immediate amount. -/
  | shiSar (core : BitVec 4) (rd rs1 : BitVec 5) (amount : BitVec 6)
  /-- LUI (R122): Loads a sign-extended immediate into bits [31:16]. -/
  | lui (core : BitVec 4) (rd rs1 : BitVec 5) (imm : BitVec 16)
  /-- LSHI (R122): Shifts rs1 left by 16 and ORs in a 16-bit immediate. -/
  | lshi (core : BitVec 4) (rd rs1 : BitVec 5) (imm : BitVec 16)
  /-- SLTI (R122): Signed set-less-than against an immediate. -/
  | slti (core : BitVec 4) (rd rs1 : BitVec 5) (imm : BitVec 16)
  -- Headland cores: memory accesses (05 R126, R127)
  /-- LDB (R126): Signed byte load through a capability. -/
  | ldb (core : BitVec 4) (rd rs1 : BitVec 5) (imm : BitVec 16)
  /-- LDBU (R126): Unsigned byte load through a capability. -/
  | ldbu (core : BitVec 4) (rd rs1 : BitVec 5) (imm : BitVec 16)
  /-- LDH (R126): Signed 16-bit load through a capability. -/
  | ldh (core : BitVec 4) (rd rs1 : BitVec 5) (imm : BitVec 16)
  /-- LDHU (R126): Unsigned 16-bit load through a capability. -/
  | ldhu (core : BitVec 4) (rd rs1 : BitVec 5) (imm : BitVec 16)
  /-- LDW (R126): Signed 32-bit load through a capability. -/
  | ldw (core : BitVec 4) (rd rs1 : BitVec 5) (imm : BitVec 16)
  /-- LDWU (R126): Unsigned 32-bit load through a capability. -/
  | ldwu (core : BitVec 4) (rd rs1 : BitVec 5) (imm : BitVec 16)
  /-- LDD (R126): 64-bit load through a capability. -/
  | ldd (core : BitVec 4) (rd rs1 : BitVec 5) (imm : BitVec 16)
  /-- LDQ (R119): 128-bit load into a G register with the tag cleared. -/
  | ldq (core : BitVec 4) (rd rs1 : BitVec 5) (imm : BitVec 16)
  /-- STB (R126): Byte store through a capability, clearing the granule's tag. -/
  | stb (core : BitVec 4) (rd rs1 : BitVec 5) (imm : BitVec 16)
  /-- STH (R126): 16-bit store through a capability, clearing the granule's tag. -/
  | sth (core : BitVec 4) (rd rs1 : BitVec 5) (imm : BitVec 16)
  /-- STW (R126): 32-bit store through a capability, clearing the granule's tag. -/
  | stw (core : BitVec 4) (rd rs1 : BitVec 5) (imm : BitVec 16)
  /-- STD (R126): 64-bit store through a capability, clearing the granule's tag. -/
  | std (core : BitVec 4) (rd rs1 : BitVec 5) (imm : BitVec 16)
  /-- STQ (R119): 128-bit store through a capability, clearing the granule's tag. -/
  | stq (core : BitVec 4) (rd rs1 : BitVec 5) (imm : BitVec 16)
  /-- CLD (R69): Capability load that keeps the memory tag when the authority has LDC. -/
  | cld (core : BitVec 4) (rd rs1 : BitVec 5) (imm : BitVec 16)
  /-- CST (R67): Capability store that writes 16 bytes and the tag indivisibly. -/
  | cst (core : BitVec 4) (rd rs1 : BitVec 5) (imm : BitVec 16)
  /-- FLD (R126): 64-bit floating-point load. -/
  | fld (core : BitVec 4) (rd rs1 : BitVec 5) (imm : BitVec 16)
  /-- FST (R126): 64-bit floating-point store. -/
  | fst (core : BitVec 4) (rd rs1 : BitVec 5) (imm : BitVec 16)
  /-- ATOMIC_SWAP (R127): Atomic swap at the home of the address, returning the old value. -/
  | atomicSwap (core : BitVec 4) (rd rs1 rs2 : BitVec 5) (wide : Bool)
  /-- ATOMIC_ADD (R127): Atomic add at the home of the address, returning the old value. -/
  | atomicAdd (core : BitVec 4) (rd rs1 rs2 : BitVec 5) (wide : Bool)
  /-- ATOMIC_AND (R127): Atomic AND at the home of the address. -/
  | atomicAnd (core : BitVec 4) (rd rs1 rs2 : BitVec 5) (wide : Bool)
  /-- ATOMIC_OR (R127): Atomic OR at the home of the address. -/
  | atomicOr (core : BitVec 4) (rd rs1 rs2 : BitVec 5) (wide : Bool)
  /-- ATOMIC_XOR (R127): Atomic XOR at the home of the address. -/
  | atomicXor (core : BitVec 4) (rd rs1 rs2 : BitVec 5) (wide : Bool)
  /-- ATOMIC_MIN (R127): Atomic signed minimum at the home of the address. -/
  | atomicMin (core : BitVec 4) (rd rs1 rs2 : BitVec 5) (wide : Bool)
  /-- ATOMIC_MAX (R127): Atomic signed maximum at the home of the address. -/
  | atomicMax (core : BitVec 4) (rd rs1 rs2 : BitVec 5) (wide : Bool)
  /-- ATOMIC_MINU (R127): Atomic unsigned minimum at the home of the address. -/
  | atomicMinu (core : BitVec 4) (rd rs1 rs2 : BitVec 5) (wide : Bool)
  /-- ATOMIC_MAXU (R127): Atomic unsigned maximum at the home of the address. -/
  | atomicMaxu (core : BitVec 4) (rd rs1 rs2 : BitVec 5) (wide : Bool)
  /-- CAS (R127): Atomic compare-and-swap that stores rs2 when memory equals rd and returns the old value. -/
  | cas (core : BitVec 4) (rd rs1 rs2 : BitVec 5) (wide : Bool)
  /-- MSADD (R127): Issues a memory-side add of the selected format to the address's home. -/
  | msadd (core : BitVec 4) (rd rs1 rs2 : BitVec 5) (fmt : BitVec 3)
  -- Headland cores: branches, jumps, gates through capabilities (05 R120, R124, 06 R151)
  /-- BEQ (R121): Branch if equal. -/
  | beq (core : BitVec 4) (rs1 rs2 : BitVec 5) (imm : BitVec 16)
  /-- BNE (R121): Branch if not equal. -/
  | bne (core : BitVec 4) (rs1 rs2 : BitVec 5) (imm : BitVec 16)
  /-- BLT (R121): Branch if signed less than. -/
  | blt (core : BitVec 4) (rs1 rs2 : BitVec 5) (imm : BitVec 16)
  /-- BGE (R121): Branch if signed greater or equal. -/
  | bge (core : BitVec 4) (rs1 rs2 : BitVec 5) (imm : BitVec 16)
  /-- BLTU (R121): Branch if unsigned less than. -/
  | bltu (core : BitVec 4) (rs1 rs2 : BitVec 5) (imm : BitVec 16)
  /-- BGEU (R121): Branch if unsigned greater or equal. -/
  | bgeu (core : BitVec 4) (rs1 rs2 : BitVec 5) (imm : BitVec 16)
  /-- JMP (R120): Direct jump replacing EXC.CURSOR. -/
  | jmp (core : BitVec 4) (imm : BitVec 26)
  /-- JAL (R124): Direct jump that links the next instruction's EXC into G31. -/
  | jal (core : BitVec 4) (imm : BitVec 26)
  /-- CJALR (R124): Capability jump that links into cd and sets EXC to cs. -/
  | cjalr (core : BitVec 4) (rd rs1 rs2 : BitVec 5)
  /-- CJALG (R151): Gate entry through a sealed gate capability, writing a return gate to cd. -/
  | cjalg (core : BitVec 4) (rd rs1 rs2 : BitVec 5)
  -- Headland cores: capabilities (05 R123, 03 R69-R77)
  /-- CMOV (R123): Copies a capability with its tag. -/
  | cmov (core : BitVec 4) (rd rs1 rs2 : BitVec 5)
  /-- CSETCUR (R123): Sets a capability's cursor, keeping the tag only inside the window. -/
  | csetcur (core : BitVec 4) (rd rs1 rs2 : BitVec 5)
  /-- CINCCUR (R123): Adds to a capability's cursor, keeping the tag only inside the window and without wrap. -/
  | cinccur (core : BitVec 4) (rd rs1 rs2 : BitVec 5)
  /-- CINCCURI (R122): Adds a signed immediate to a capability's cursor as CINCCUR. -/
  | cinccuri (core : BitVec 4) (rd rs1 : BitVec 5) (imm : BitVec 16)
  /-- CSETB (R123): Sets rounded bounds from the cursor and a length. -/
  | csetb (core : BitVec 4) (rd rs1 rs2 : BitVec 5)
  /-- CSETBX (R123): Sets bounds that must be exact, clearing the tag otherwise. -/
  | csetbx (core : BitVec 4) (rd rs1 rs2 : BitVec 5)
  /-- CANDR (R123): ANDs a capability's rights with a mask. -/
  | candr (core : BitVec 4) (rd rs1 rs2 : BitVec 5)
  /-- CSETRING (R123): Sets a capability's ring field. -/
  | csetring (core : BitVec 4) (rd rs1 rs2 : BitVec 5)
  /-- CSEAL (R70): Seals a capability with the object type of a sealing key. -/
  | cseal (core : BitVec 4) (rd rs1 rs2 : BitVec 5)
  /-- CUNSEAL (R71): Unseals a software-sealed capability with a matching key. -/
  | cunseal (core : BitVec 4) (rd rs1 rs2 : BitVec 5)
  /-- CCLRTAG (R123): Copies a capability with its tag cleared. -/
  | cclrtag (core : BitVec 4) (rd rs1 rs2 : BitVec 5)
  /-- CQBASE (R123): Returns the decoded base modulo 2^64. -/
  | cqbase (core : BitVec 4) (rd rs1 rs2 : BitVec 5)
  /-- CQLEN (R123): Returns top minus base, saturating. -/
  | cqlen (core : BitVec 4) (rd rs1 rs2 : BitVec 5)
  /-- CQRIGHTS (R123): Returns the rights field. -/
  | cqrights (core : BitVec 4) (rd rs1 rs2 : BitVec 5)
  /-- CQTYPE (R123): Returns the object type. -/
  | cqtype (core : BitVec 4) (rd rs1 rs2 : BitVec 5)
  /-- CQTAG (R123): Returns the tag bit. -/
  | cqtag (core : BitVec 4) (rd rs1 rs2 : BitVec 5)
  /-- CQRING (R123): Returns the ring field. -/
  | cqring (core : BitVec 4) (rd rs1 rs2 : BitVec 5)
  /-- CQCUR (R123): Returns the cursor. -/
  | cqcur (core : BitVec 4) (rd rs1 rs2 : BitVec 5)
  /-- CSEALH (R75): Writes a 32-byte host-sealed token for a capability and advances the tenant's SEQUENCE. -/
  | csealh (core : BitVec 4) (rd rs1 rs2 : BitVec 5)
  /-- CUNSEALH (R76): Verifies a host-sealed token and delivers its body tagged, or untagged with the rejection counted. -/
  | cunsealh (core : BitVec 4) (rd rs1 rs2 : BitVec 5)
  /-- CCLRTAGS (R66): Clears the tags of every granule in a range. -/
  | cclrtags (core : BitVec 4) (rd rs1 rs2 : BitVec 5)
  -- Headland cores: binary64 (05 R125)
  /-- FADD (R125): binary64 add. -/
  | fadd (core : BitVec 4) (rd rs1 rs2 : BitVec 5)
  /-- FSUB (R125): binary64 subtract. -/
  | fsub (core : BitVec 4) (rd rs1 rs2 : BitVec 5)
  /-- FMUL (R125): binary64 multiply. -/
  | fmul (core : BitVec 4) (rd rs1 rs2 : BitVec 5)
  /-- FDIV (R125): binary64 divide. -/
  | fdiv (core : BitVec 4) (rd rs1 rs2 : BitVec 5)
  /-- FSQRT (R125): binary64 square root. -/
  | fsqrt (core : BitVec 4) (rd rs1 rs2 : BitVec 5)
  /-- FMIN (R125): binary64 minimum. -/
  | fmin (core : BitVec 4) (rd rs1 rs2 : BitVec 5)
  /-- FMAX (R125): binary64 maximum. -/
  | fmax (core : BitVec 4) (rd rs1 rs2 : BitVec 5)
  /-- FEQ (R125): binary64 equality compare. -/
  | feq (core : BitVec 4) (rd rs1 rs2 : BitVec 5)
  /-- FLT (R125): binary64 less-than compare. -/
  | flt (core : BitVec 4) (rd rs1 rs2 : BitVec 5)
  /-- FLE (R125): binary64 less-or-equal compare. -/
  | fle (core : BitVec 4) (rd rs1 rs2 : BitVec 5)
  /-- FCVTLD (R125): Converts between binary64 and s64 in one direction. -/
  | fcvtld (core : BitVec 4) (rd rs1 rs2 : BitVec 5)
  /-- FCVTDL (R125): Converts between s64 and binary64 in the other direction, saturating. -/
  | fcvtdl (core : BitVec 4) (rd rs1 rs2 : BitVec 5)
  /-- FCVTSD (R125): Rounds binary64 to binary32 in a G register. -/
  | fcvtsd (core : BitVec 4) (rd rs1 rs2 : BitVec 5)
  /-- FCVTDS (R125): Widens binary32 to binary64 exactly. -/
  | fcvtds (core : BitVec 4) (rd rs1 rs2 : BitVec 5)
  /-- FMVGF (R122): Moves bits from a G register to an F register. -/
  | fmvgf (core : BitVec 4) (rd rs1 rs2 : BitVec 5)
  /-- FMVFG (R122): Moves bits from an F register to a G register. -/
  | fmvfg (core : BitVec 4) (rd rs1 rs2 : BitVec 5)
  /-- FMA (R125): binary64 fused multiply-add. -/
  | fma (core : BitVec 4) (rd rs1 rs2 rs3 : BitVec 5)
  /-- FMS (R125): binary64 fused multiply-subtract. -/
  | fms (core : BitVec 4) (rd rs1 rs2 rs3 : BitVec 5)
  /-- FNMA (R125): binary64 negated fused multiply-add. -/
  | fnma (core : BitVec 4) (rd rs1 rs2 rs3 : BitVec 5)
  /-- FNMS (R125): binary64 negated fused multiply-subtract. -/
  | fnms (core : BitVec 4) (rd rs1 rs2 rs3 : BitVec 5)
  -- Headland cores: core state, ordering, synchronisation, queues, gates and traps (05 R140-R143, 06, 16)
  /-- CSRR (R140): Reads a core state register under its ring limit. -/
  | csrr (core : BitVec 4) (rd : BitVec 5) (csr : BitVec 12) (capForm : Bool)
  /-- CSRW (R140): Writes a core state register under its ring limit. -/
  | csrw (core : BitVec 4) (rs1 : BitVec 5) (csr : BitVec 12) (capForm : Bool)
  /-- FENCE_FULL (R430): Orders all earlier accesses before all later ones. -/
  | fenceFull (core : BitVec 4)
  /-- FENCE_LOAD (R430): Orders earlier loads before all later accesses. -/
  | fenceLoad (core : BitVec 4)
  /-- FENCE_STORE (R430): Orders earlier stores before later stores. -/
  | fenceStore (core : BitVec 4)
  /-- ISYNC (R430): Makes earlier stores visible to instruction fetch and restarts fetch. -/
  | isync (core : BitVec 4)
  /-- RDTB (R131): Returns the TBC value when it is the oldest instruction. -/
  | rdtb (core : BitVec 4) (rd : BitVec 5)
  /-- SCINC (R433): Increments a sync counter by an amount, saturating, as a release. -/
  | scinc (core : BitVec 4) (rd rs1 rs2 : BitVec 5)
  /-- SCWAIT (R436): Waits until a sync counter reaches a target, or returns at once when it has. -/
  | scwait (core : BitVec 4) (rd rs1 rs2 : BitVec 5)
  /-- SCWAIT_SATISFIED (R436): A waiting SCWAIT completes when its counter reaches the target, or is poisoned. -/
  | scwaitSatisfied (core : BitVec 4)
  /-- SCRESET (R434): Resets a sync counter to 0 and ends its poisoning. -/
  | screset (core : BitVec 4) (rd rs1 rs2 : BitVec 5)
  /-- WFI (R168): Waits for an enabled pending interrupt. -/
  | wfi (core : BitVec 4)
  /-- WFI_WAKE (R168): A waiting WFI resumes when an enabled INT_PEND bit is set. -/
  | wfiWake (core : BitVec 4)
  /-- HALT (R143): Stops the executing headland core at ring 0 and sets HALTED. -/
  | halt (core : BitVec 4)
  /-- CSTART (R143): Starts a halted headland core with given EXC and G1, or returns 1 if it runs. -/
  | cstart (core : BitVec 4) (rd rs1 rs2 rs3 : BitVec 5)
  /-- QPUT (R137): Checks and copies a descriptor into an internal queue and returns a status. -/
  | qput (core : BitVec 4) (rd rs1 rs2 : BitVec 5) (queue : BitVec 8)
  /-- GATE (R152): Fast gate entry into ring k through ENTk. -/
  | gate (core : BitVec 4) (k : BitVec 2)
  /-- RETG_RS1 (R156): RETG form 0 returns to rs1 with ST unchanged. -/
  | retgRs1 (core : BitVec 4) (rs1 rs2 : BitVec 5)
  /-- RETG_RS1_ST (R155): RETG form 1 returns to rs1 and merges ST from rs2. -/
  | retgRs1St (core : BitVec 4) (rs1 rs2 : BitVec 5)
  /-- RETG_BANK_O (R156): RETG form 2 returns to bank O's TEPC, merges TST and clears BUSY. -/
  | retgBankO (core : BitVec 4)
  /-- RETG_BANK_M (R156): RETG form 3 returns to bank M's TEPC, merges TST and clears BUSY. -/
  | retgBankM (core : BitVec 4)
  /-- INTERRUPT_ENTRY (R168): An unmasked pending interrupt is taken at an instruction boundary into bank O. -/
  | interruptEntry (core : BitVec 4)
  /-- MACHINE_CHECK (R158): An uncorrectable error in a core's own registers raises cause 36 into bank M. -/
  | machineCheck (core : BitVec 4)
  /-- TRAP_TIMER_EXPIRY (R170): When the TBC reaches TRAP_TIMERn, INT_PENDn.TIMER is set and the register written 0. -/
  | trapTimerExpiry (core : BitVec 4)
  /-- WATCHDOG_EXPIRY (R170): When the TBC reaches TRAP_WDOGn, cause 33 is raised on core n and the register written 0. -/
  | watchdogExpiry (core : BitVec 4)
  /-- INT_SEND (R170): A write with GO sets INTERCORE pending on the named core. -/
  | intSend (agent : Agent) (value : W32)
  -- Capability block and ACU (03 R90, 04)
  /-- ADVANCE (R90): Writing SEAL_EPOCH.ADVANCE starts an epoch advance of the function's tenant. -/
  | advance (agent : Agent) (fn : BitVec 8)
  /-- SEAL_FORCE (R90): Writing SEAL_FORCE.GO starts an epoch advance of the named tenant. -/
  | sealForce (agent : Agent) (tenant : BitVec 8)
  /-- EPOCH_ADVANCE_DONE (R90): Within 10 µs the tenant's epoch and key change and EPOCH reads the new value. -/
  | epochAdvanceDone (tenant : BitVec 8)
  /-- SWITCH (R109): ACU_CONTROL.SWITCH requests a bank switch, held while DRAINING. -/
  | switch (agent : Agent)
  /-- ACU_COPY (R117): ACU_CONTROL.COPY copies the active bank into the shadow bank. -/
  | acuCopy (agent : Agent)
  /-- ACU_CLEAR (R114): ACU_CONTROL.CLEAR writes zero into every shadow rule. -/
  | acuClear (agent : Agent)
  /-- ACU_SWITCH (R109): At ACU_SWITCH_AT, or within 2 µs of release, the banks exchange, EPOCH advances and caches are written back for changed rules. -/
  | acuSwitch
  /-- ACU_DRAIN_END (R110): When every operation begun under the former bank ends, DRAINING clears and a held switch is released. -/
  | acuDrainEnd
  -- Host port (07)
  /-- POLL_SCAN (R185): At each poll interval Vesol reads a function's doorbell records and adapts the interval. -/
  | pollScan (fn : BitVec 8) (stores : List (Nat × List Byte)) (sqFails cqFails : Bool)
  /-- WAKE_PAGE_WRITE (R186): A write to a wake page starts a scan within 1,000 ns and counts in WAKE_COUNT. -/
  | wakePageWrite (fn : BitVec 8) (stores : List (Nat × List Byte)) (sqFails cqFails : Bool)
  /-- DESCRIPTOR_INGEST (R194): A fetched descriptor chain is checked in order and either rejected with a completion or accepted. -/
  | descriptorIngest (fn : BitVec 8) (sq : BitVec 4) (fetchFails : Bool)
  /-- NOP (R193): Host-port NOP completes at once. -/
  | nop (op : Nat)
  /-- COPY (R193): Host-port COPY moves LENGTH bytes in ascending order between local or host memory. -/
  | copy (op : Nat) (hostFail : Option Nat)
  /-- CHANGE_SET (R204): Reads and validates a change-set body from the PF. -/
  | changeSet (op : Nat) (hostFail : Option Nat)
  /-- CHANGE_SET_PREPARE (R204): Once shadowed elements are free, the shadows are written and affected tenants are held for draining. -/
  | changeSetPrepare
  /-- CHANGE_SET_SWITCH (R204): At the later of drain end and AT, the whole set applies in one step and the descriptor completes. -/
  | changeSetSwitch
  /-- CHANGE_SET_DEADLINE (R205): When the deadline passes before the switch instant, the set is rejected and shadows restored. -/
  | changeSetDeadline
  /-- COVE_CLEAR_DONE (R207): After reassignment, the cove's memory, tags, weights and speculation buffer are cleared and the new owner may proceed. -/
  | coveClearDone (cove : BitVec 5)
  /-- COMPLETION_WRITE (R199): A completion is written in order to its CQ, followed by any sync-counter increment. -/
  | completionWrite (op : Nat)
  /-- CQ_INT_DELAY_EXPIRY (R201): DELAY µs after the first unsignalled completion, the CQ's vector is sent. -/
  | cqIntDelayExpiry (fn : BitVec 8) (cq : BitVec 4)
  /-- DESCRIPTOR_TIMEOUT (R189): When an operation's timeout passes, it ends with TIMEOUT. -/
  | descriptorTimeout (op : Nat)
  /-- SQ_CTRL_WRITE (R210): A write of SQ_CTRL enables or disables fetching, or is refused with BAD_SETUP. -/
  | sqCtrlWrite (agent : Agent) (fn : BitVec 8) (sq : BitVec 4) (value : W32)
  /-- CQ_CTRL_WRITE (R210): A write of CQ_CTRL enables or disables a CQ, or is refused with BAD_SETUP. -/
  | cqCtrlWrite (agent : Agent) (fn : BitVec 8) (cq : BitVec 4) (value : W32)
  /-- TENANT_STOP (R212): TEN_STATE.STOP = 1 stops fetching and aborts the tenant's operations. -/
  | tenantStop (agent : Agent) (tenant : BitVec 8)
  /-- TENANT_RESUME (R212): TEN_STATE.STOP = 0 resumes fetching at SQ_HEAD. -/
  | tenantResume (agent : Agent) (tenant : BitVec 8)
  /-- FUNCTION_LEVEL_RESET (R215): An FLR ends the function's host operations, disables its rings and advances its tenant's epoch. -/
  | functionLevelReset (fn : BitVec 8)
  /-- VF_DISABLE (R176): Clearing VF Enable or lowering NumVFs acts as an FLR on the VFs removed. -/
  | vfDisable (enable : Bool) (numVfs : BitVec 16)
  /-- LINK_DOWN (R215): A host link-down, Hot Reset or Link Disable acts as an FLR of the PF and sets LINK_DOWN. -/
  | linkDown
  /-- HOST_LINK_TRAINING (R175): The host link trains in Flit mode, or at 2.5 GT/s configuration-only without it. -/
  | hostLinkTraining (flit : Bool) (rate : BitVec 3) (width : BitVec 5)
  -- Strand cores (08 R236)
  /-- STRAND_NOP (R236): Strand NOP. -/
  | strandNop (core : BitVec 6)
  /-- MPY (R221): Strand multiply into an accumulator. -/
  | mpy (core : BitVec 6) (d : Bool) (fa fb sg : BitVec 2) (qi : BitVec 5) (moves : BitVec 13)
  /-- MAC (R221): Strand multiply-accumulate. -/
  | mac (core : BitVec 6) (d : Bool) (fa fb sg : BitVec 2) (qi : BitVec 5) (moves : BitVec 13)
  /-- MSU (R221): Strand multiply-subtract. -/
  | msu (core : BitVec 6) (d : Bool) (fa fb sg : BitVec 2) (qi : BitVec 5) (moves : BitVec 13)
  /-- MOVE (R236): Strand parallel moves only, without arithmetic. -/
  | move (core : BitVec 6) (d : Bool) (fa fb sg : BitVec 2) (qi : BitVec 5) (moves : BitVec 13)
  /-- CLR (R236): Clears an accumulator. -/
  | clr (core : BitVec 6) (d : Bool) (reg : BitVec 6) (u : Bool) (imm : BitVec 4) (moves : BitVec 13)
  /-- ADDA (R221): Adds the other accumulator. -/
  | adda (core : BitVec 6) (d : Bool) (reg : BitVec 6) (u : Bool) (imm : BitVec 4) (moves : BitVec 13)
  /-- SUBA (R221): Subtracts the other accumulator. -/
  | suba (core : BitVec 6) (d : Bool) (reg : BitVec 6) (u : Bool) (imm : BitVec 4) (moves : BitVec 13)
  /-- NEG (R221): Negates an accumulator. -/
  | neg (core : BitVec 6) (d : Bool) (reg : BitVec 6) (u : Bool) (imm : BitVec 4) (moves : BitVec 13)
  /-- ABS (R221): Takes an accumulator's absolute value. -/
  | abs (core : BitVec 6) (d : Bool) (reg : BitVec 6) (u : Bool) (imm : BitVec 4) (moves : BitVec 13)
  /-- SHA (R223): Shifts an accumulator arithmetically by an s4 immediate. -/
  | sha (core : BitVec 6) (d : Bool) (reg : BitVec 6) (u : Bool) (imm : BitVec 4) (moves : BitVec 13)
  /-- LDA (R223): Loads a register times 2^16 into an accumulator. -/
  | lda (core : BitVec 6) (d : Bool) (reg : BitVec 6) (u : Bool) (imm : BitVec 4) (moves : BitVec 13)
  /-- ADDR (R223): Adds a register times 2^16 to an accumulator. -/
  | addr (core : BitVec 6) (d : Bool) (reg : BitVec 6) (u : Bool) (imm : BitVec 4) (moves : BitVec 13)
  /-- SUBR (R223): Subtracts a register times 2^16 from an accumulator. -/
  | subr (core : BitVec 6) (d : Bool) (reg : BitVec 6) (u : Bool) (imm : BitVec 4) (moves : BitVec 13)
  /-- MOVR (R222): Scales, rounds and optionally saturates an accumulator into a 16-bit register. -/
  | movr (core : BitVec 6) (d : Bool) (reg : BitVec 6) (u : Bool) (imm : BitVec 4) (moves : BitVec 13)
  /-- MOVP (R236): Moves accumulator bits [15:0] to a register. -/
  | movp (core : BitVec 6) (d : Bool) (reg : BitVec 6) (u : Bool) (imm : BitVec 4) (moves : BitVec 13)
  /-- MOVM (R236): Moves accumulator bits [31:16] to a register. -/
  | movm (core : BitVec 6) (d : Bool) (reg : BitVec 6) (u : Bool) (imm : BitVec 4) (moves : BitVec 13)
  /-- MOVG (R236): Moves sign-extended accumulator bits [39:32] to a register. -/
  | movg (core : BitVec 6) (d : Bool) (reg : BitVec 6) (u : Bool) (imm : BitVec 4) (moves : BitVec 13)
  /-- SETP (R236): Sets accumulator bits [15:0] from a register. -/
  | setp (core : BitVec 6) (d : Bool) (reg : BitVec 6) (u : Bool) (imm : BitVec 4) (moves : BitVec 13)
  /-- SETM (R236): Sets accumulator bits [31:16] from a register. -/
  | setm (core : BitVec 6) (d : Bool) (reg : BitVec 6) (u : Bool) (imm : BitVec 4) (moves : BitVec 13)
  /-- SETG (R236): Sets accumulator bits [39:32] from a register. -/
  | setg (core : BitVec 6) (d : Bool) (reg : BitVec 6) (u : Bool) (imm : BitVec 4) (moves : BitVec 13)
  /-- STRAND_LOAD (R224): Format L load of a word through a post-modified pointer. -/
  | strandLoad (core : BitVec 6) (p : BitVec 3) (mode : BitVec 2) (reg : BitVec 6)
  /-- STRAND_STORE (R224): Format L store of a word through a post-modified pointer. -/
  | strandStore (core : BitVec 6) (p : BitVec 3) (mode : BitVec 2) (reg : BitVec 6)
  /-- LDI (R236): Loads a 16-bit immediate into a strand register. -/
  | ldi (core : BitVec 6) (reg : BitVec 6) (imm : BitVec 16)
  /-- STRAND_ADDI (R236): Adds a 16-bit immediate to a strand register. -/
  | strandAddi (core : BitVec 6) (reg : BitVec 6) (imm : BitVec 16)
  /-- MOV (R236): Strand register move. -/
  | mov (core : BitVec 6) (rd rs : BitVec 6) (moves : BitVec 13)
  /-- STRAND_ADD (R236): Strand 16-bit add. -/
  | strandAdd (core : BitVec 6) (rd rs : BitVec 6) (moves : BitVec 13)
  /-- STRAND_SUB (R236): Strand 16-bit subtract. -/
  | strandSub (core : BitVec 6) (rd rs : BitVec 6) (moves : BitVec 13)
  /-- STRAND_AND (R236): Strand bitwise AND. -/
  | strandAnd (core : BitVec 6) (rd rs : BitVec 6) (moves : BitVec 13)
  /-- STRAND_OR (R236): Strand bitwise OR. -/
  | strandOr (core : BitVec 6) (rd rs : BitVec 6) (moves : BitVec 13)
  /-- STRAND_XOR (R236): Strand bitwise XOR. -/
  | strandXor (core : BitVec 6) (rd rs : BitVec 6) (moves : BitVec 13)
  /-- CMP (R236): Strand signed compare setting Z and N. -/
  | cmp (core : BitVec 6) (rd rs : BitVec 6) (moves : BitVec 13)
  /-- CMPU (R236): Strand unsigned compare setting Z and N. -/
  | cmpu (core : BitVec 6) (rd rs : BitVec 6) (moves : BitVec 13)
  /-- BR (R226): Strand conditional branch with two delay slots. -/
  | br (core : BitVec 6) (cond : BitVec 4) (target : BitVec 13)
  /-- REPEAT (R231): Executes the next instruction n times. -/
  | strandRepeat (core : BitVec 6) (rsel : Bool) (reg : BitVec 6) (n : BitVec 11)
  /-- LOOP (R228): Starts a hardware loop, pushing any active loop. -/
  | loop (core : BitVec 6) (rot : Bool) (reg : BitVec 6) (le : BitVec 13)
  /-- STRAND_HALT (R241): Stops a strand core with a code once its DMA transfers complete. -/
  | strandHalt (core : BitVec 6) (code : BitVec 16)
  /-- DMA (R233): Copies a parameter block and queues a strand DMA transfer, stalling at four outstanding. -/
  | dma (core : BitVec 6) (dir : Bool) (ch pb pl : BitVec 3)
  /-- STRAND_DMA_DONE (R235): A strand DMA transfer completes, DSTAT falls and DMADONE is set. -/
  | strandDmaDone (core : BitVec 6)
  /-- WAITD (R235): Stalls until at most k DMA transfers are outstanding. -/
  | waitd (core : BitVec 6) (k : BitVec 2)
  /-- WAITD_RESUME (R235): A stalled WAITD or DMA instruction resumes once enough transfers have completed. -/
  | waitdResume (core : BitVec 6)
  /-- RETI (R232): Returns from a strand interrupt after two delay slots. -/
  | reti (core : BitVec 6)
  /-- STRAND_INTERRUPT (R232): A strand core takes an enabled pending interrupt at a permitted boundary. -/
  | strandInterrupt (core : BitVec 6)
  /-- STR_ATTN (R237): A write with GO sets IPEND.ATTN of the named strand core. -/
  | strAttn (agent : Agent) (value : W32)
  /-- STRAND_GROUP_OFFLINE (R238): Setting OFFLINE aborts the group's kernels and refuses new work. -/
  | strandGroupOffline (agent : Agent) (group : BitVec 2)
  /-- STRAND_GROUP_RESET (R238): RESET aborts the group's kernels and returns its cores to reset state. -/
  | strandGroupReset (agent : Agent) (group : BitVec 2)
  /-- RUN (R240): When its cores are idle, a RUN zeroes or keeps memories, loads the program and starts the kernel. -/
  | run (op : Nat)
  /-- STOP (R242): Stops the tenant's RUNs on the named cores at their next boundary. -/
  | strandStop (op : Nat)
  -- Video coding unit (09)
  /-- VCU_CONFIG (R271): Applies a context set-up block after waiting pictures and discards references. -/
  | vcuConfig (op : Nat)
  /-- ENCODE (R272): Places an encode picture in its context's waiting list. -/
  | encode (op : Nat)
  /-- DECODE (R266): Places a decode picture in its context's waiting list. -/
  | decode (op : Nat)
  /-- FLUSH (R272): Discards a context's references so the next picture is key. -/
  | flush (op : Nat)
  /-- KEY_REQUEST (R263): At ingest, marks the context's next picture as key. -/
  | keyRequest (op : Nat)
  /-- PICTURE_START (R265): A free pipe takes the next live or batch picture and claims a buffer. -/
  | pictureStart (pipe : BitVec 2)
  /-- CTU_ROW_BEGIN (R254): An encode pipe begins a CTU row once its upper rows allow, choosing its QP. -/
  | ctuRowBegin (pipe : BitVec 1)
  /-- PICTURE_END (R261): A picture completes, its marks are written and its descriptor completes. -/
  | pictureEnd (pipe : BitVec 2) (upset : Bool)
  /-- DECODE_WATCHDOG (R266): At the watchdog deadline, decoding stops and remaining CTUs are concealed. -/
  | decodeWatchdog (pipe : BitVec 1)
  /-- VCU_OFFLINE (R270): Setting VCU_CTRL.OFFLINE aborts pictures and refuses new work. -/
  | vcuOffline (agent : Agent)
  /-- VCU_RESET (R270): VCU_CTRL.RESET aborts pictures and discards every context's references. -/
  | vcuReset (agent : Agent)
  -- Gather engines (10)
  /-- GATHER_ROWS (R290): Copies table rows named by an index list to an output. -/
  | gatherRows (op : Nat)
  /-- SCATTER_ROWS (R291): Checks an index list and writes rows into a table. -/
  | scatterRows (op : Nat)
  /-- WALK (R284): Performs a one-hop or two-hop sampled CSR walk. -/
  | walk (op : Nat)
  /-- INDEX_CHECK_RETIRE (R289): A first-hop index check retires and its run-ahead unit is promoted or discarded. -/
  | indexCheckRetire (cove : BitVec 5)
  /-- GE_OFFLINE (R293): Setting GE_CTRL.OFFLINE aborts the GE's work and refuses new work. -/
  | geOffline (agent : Agent) (cove : BitVec 5)
  /-- GE_RESET (R293): GE_CTRL.RESET aborts work and empties the speculation buffer. -/
  | geReset (agent : Agent) (cove : BitVec 5)
  -- Embedding tables (11)
  /-- TABLE_DEFINE (R322): Defines a version record of a table slot. -/
  | tableDefine (op : Nat)
  /-- TABLE_SWITCH (R317): Makes the other record active within 2 µs, or holds while draining. -/
  | tableSwitch (op : Nat)
  /-- LOOKUP (R304): Delivers valid present rows of an index list with positions and drop counts. -/
  | lookup (op : Nat)
  /-- UPDATE (R313): Merges gradients per row and applies one update per row at its stack controller. -/
  | update (op : Nat)
  /-- TABLE_RETIRE (R322): Undefines a record, or frees the slot once no lookup is bound. -/
  | tableRetire (op : Nat)
  /-- SKEW_WINDOW_END (R307): At each 1 ms window end, skew counters are copied, hot shards found and replicas retired. -/
  | skewWindowEnd
  /-- MIGRATION_COPY_DONE (R310): When the replica write completes, the entry becomes VALID. -/
  | migrationCopyDone (entry : Nat)
  /-- RECORD_DRAIN_END (R316): When every lookup bound to the former record ends, DRAINING clears and a held switch applies. -/
  | recordDrainEnd (table : BitVec 8)
  /-- EMB_OFFLINE (R318): Setting EMB_CTRL.OFFLINE aborts embedding operations and refuses new ones. -/
  | embOffline (agent : Agent)
  /-- EMB_RESET (R318): EMB_CTRL.RESET aborts operations and empties the directory. -/
  | embReset (agent : Agent)
  -- Dense transform arrays (12)
  /-- MATMUL (R331): Computes Y = X·W (+C) in passes, units and chunks. -/
  | matmul (op : Nat)
  /-- SEGMENT_SUM (R337): Sums or averages rows within segments. -/
  | segmentSum (op : Nat)
  /-- DTA_OFFLINE (R342): Setting DTA_CTRL.OFFLINE aborts the DTA's work and refuses new work. -/
  | dtaOffline (agent : Agent) (cove : BitVec 5)
  /-- DTA_RESET (R342): DTA_CTRL.RESET aborts work and clears weights and buffer. -/
  | dtaReset (agent : Agent) (cove : BitVec 5)
  -- Stacked memory (14)
  /-- HBM_TEMP_READING (R379): Every 1,000,000 TBC units each stack's temperature is read and its thermal state updated. -/
  | hbmTempReading (stack : BitVec 3) (reading : Option Byte)
  /-- CATTRIP (R380): A stack's CATTRIP takes it offline at once and poisons its addresses. -/
  | cattrip (stack : BitVec 3)
  /-- PATROL_SCRUB (R373): A scrub read corrects or poisons one unit. -/
  | patrolScrub (addr : BitVec 38) (syndrome : BitVec 30) (speculative : Bool)
  /-- HBM_REFRESH (R366): Per-bank refresh at the interval required by the stack's temperature. -/
  | hbmRefresh (stack : BitVec 3) (bank : BitVec 16)
  /-- SEGMENT_ZEROED (R374): A 64 MiB HBM segment completes background zeroing and waiting accesses proceed. -/
  | segmentZeroed (segment : BitVec 12)
  /-- MEMORY_SIDE_ADD (R375): An add reaching a stack or cove controller is performed as one read-modify-write. -/
  | memorySideAdd (op : Nat) (tenant : BitVec 8) (fmt : BitVec 3) (addr : BitVec 53) (addend : BitVec 192)
  /-- HBM_THERM_WRITE (R383): A write of HBM_THERM is stored, or left unchanged when inconsistent. -/
  | hbmThermWrite (agent : Agent) (value : W32)
  /-- HBM_PHY_RELOCK (R386): On reference loss or return, stacks enter self refresh and PHYs relock and retrain. -/
  | hbmPhyRelock
  /-- HBM_RELOCK_TIMEOUT (R386): A PHY not relocked within 1 ms takes its stack offline and sets HBM_ERR.PHY. -/
  | hbmRelockTimeout (stack : BitVec 3)
  -- Fabric links (15 R388-R398)
  /-- LANE_ROTATION (R390): Every ROTATE_H hours the spare lane's move to the next lane begins with a copy check. -/
  | laneRotation (port : BitVec 4)
  /-- LANE_MOVE (R390): After 2^20 clean codewords both ends move the spare, or abandon with LANE_SWITCH_FAIL. -/
  | laneMove (port : BitVec 4) (clean : Bool)
  /-- FLIT_TRANSMIT (R393): A message flit is sent when a credit for its channel is held. -/
  | flitTransmit (port : BitVec 4) (vc : BitVec 3)
  /-- IDLE_FLIT (R392): An idle flit returns ACK and credits. -/
  | idleFlit (link : Link)
  /-- BAD_FLIT (R394): A bad flit or SEQ gap is discarded with later flits and a NAK sent. -/
  | badFlit (port : BitVec 4) (uncorrectable : Bool)
  /-- NAK (R394): A received NAK makes the sender resend every flit after the named SEQ. -/
  | nak (link : Link)
  /-- RETRAIN_REQUEST (R395): A received retrain request starts a retrain of the port. -/
  | retrainRequest (link : Link)
  /-- LANE_LOCK_LOSS (R395): Loss of lane lock starts a retrain of the port. -/
  | laneLockLoss (port : BitVec 4)
  /-- PORT_RETRAIN (R395): Writing PORT_CTRL.RETRAIN starts a retrain of the port. -/
  | portRetrain (agent : Agent) (port : BitVec 4)
  /-- RETRAIN_COMPLETE (R395): A retrain ends, replay resumes, or a failure substitutes the spare or fences the port. -/
  | retrainComplete (port : BitVec 4) (ok : Bool) (badLane : Option (BitVec 3))
  /-- LINK_TRAINING_DONE (R397): The electrical layer trains and identity flits are exchanged. -/
  | linkTrainingDone (port : BitVec 4)
  /-- IDENTITY_FLIT (R397): A far-end identity is compared with the plan: the port goes UP or is fenced with reason 1. -/
  | identityFlit (link : Link) (serial : W64) (farPort : BitVec 4) (trayPos : BitVec 2) (tray : BitVec 5) (rack : BitVec 3)
  /-- WITHDRAW (R398): A received withdraw flit fences this end with reason 5. -/
  | withdraw (link : Link)
  /-- PORT_FENCE (R398): Writing PORT_CTRL.FENCE = 1 sends a withdraw and fences the port with reason 3. -/
  | portFence (agent : Agent) (port : BitVec 4)
  /-- PORT_UNFENCE (R398): Writing PORT_CTRL.FENCE = 0 ends an operator fence and retrains the port. -/
  | portUnfence (agent : Agent) (port : BitVec 4)
  -- Fabric messages (15 R399-R409)
  /-- MESSAGE_FORWARD (R401): A message for another device is forwarded by dimension order, or answered lost. -/
  | messageForward (link : Link) (msg : Msg)
  /-- READ (R406): A remote READ is rule-checked and answered with data. -/
  | read (link : Link) (src : BitVec 10) (tenant : BitVec 8) (addr : BitVec 54) (rid : BitVec 16) (len : BitVec 7) (access : Access)
  /-- WRITE (R406): A remote WRITE is rule-checked, performed and answered. -/
  | write (link : Link) (src : BitVec 10) (tenant : BitVec 8) (addr : BitVec 54) (rid : BitVec 16) (payload : List Byte) (access : Access)
  /-- REMOTE_CLD (R406): A remote CLD request is answered with 16 bytes and the tag it may carry. -/
  | remoteCld (link : Link) (src : BitVec 10) (tenant : BitVec 8) (addr : BitVec 54) (rid : BitVec 16) (ldc : Bool)
  /-- REMOTE_CST (R406): A remote CST request writes 16 bytes and sets the tag only as R66 allows. -/
  | remoteCst (link : Link) (src : BitVec 10) (tenant : BitVec 8) (addr : BitVec 54) (rid : BitVec 16) (value : BitVec 128) (tag : Bool)
  /-- ATOMIC (R406): A remote ATOMIC request is performed at its home and answered with the old value. -/
  | atomic (link : Link) (src : BitVec 10) (tenant : BitVec 8) (addr : BitVec 54) (rid : BitVec 16) (func : BitVec 5) (operand compare : W64)
  /-- REMOTE_MSADD (R377): A remote MSADD request is performed by the holding controller and answered. -/
  | remoteMsadd (link : Link) (src : BitVec 10) (tenant : BitVec 8) (addr : BitVec 54) (rid : BitVec 16) (fmt : BitVec 3) (addend : BitVec 192)
  /-- READ_RSP (R407): A READ response completes the issuer's request and reports its status. -/
  | readRsp (link : Link) (rid : BitVec 16) (status : BitVec 4) (payload : List Byte)
  /-- WRITE_RSP (R407): A WRITE response completes the issuer's request and reports its status. -/
  | writeRsp (link : Link) (rid : BitVec 16) (status : BitVec 4)
  /-- CLD_RSP (R407): A CLD response delivers data and tag to the issuer. -/
  | cldRsp (link : Link) (rid : BitVec 16) (status : BitVec 4) (value : BitVec 128) (tag : Bool)
  /-- CST_RSP (R407): A CST response completes the issuer's request. -/
  | cstRsp (link : Link) (rid : BitVec 16) (status : BitVec 4)
  /-- ATOMIC_RSP (R407): An ATOMIC response delivers the old value. -/
  | atomicRsp (link : Link) (rid : BitVec 16) (status : BitVec 4) (old : W64)
  /-- MSADD_RSP (R407): An MSADD response completes the issuer's add. -/
  | msaddRsp (link : Link) (rid : BitVec 16) (status : BitVec 4)
  /-- REQUEST_TIMEOUT (R408): REQ_TIMEOUT_US after issue, an outstanding request completes as lost. -/
  | requestTimeout (rid : BitVec 16)
  -- Collectives and sync registers (15 R410-R420, 16 R438)
  /-- ALL_REDUCE (R412): Begins an all-reduce member and sends its joins. -/
  | allReduce (op : Nat)
  /-- REDUCE_SCATTER (R412): Begins a reduce-scatter member and sends its joins. -/
  | reduceScatter (op : Nat)
  /-- ALL_GATHER (R412): Begins an all-gather member and sends its joins. -/
  | allGather (op : Nat)
  /-- BROADCAST (R412): Begins a broadcast member and sends its joins. -/
  | broadcast (op : Nat)
  /-- BARRIER (R412): Begins a barrier member and sends its joins. -/
  | barrier (op : Nat)
  /-- COLL_JOIN (R411): A neighbour's join is matched, latched for a later generation, or mismatched. -/
  | collJoin (link : Link) (object : BitVec 6) (join : Join)
  /-- COLL_DATA (R413): Collective data is combined and passed on along the chain. -/
  | collData (link : Link) (object : BitVec 6) (generation : BitVec 8) (index : BitVec 40) (flags : BitVec 5) (payload : List Byte) (poison : Bool) (tenant : Byte)
  /-- COLL_ABORT (R416): A received abort ends an unfinished member and forwards the abort. -/
  | collAbort (link : Link) (object : BitVec 6) (generation : BitVec 8) (device : BitVec 10) (lost : Bool) (tenant : Byte)
  /-- FAB_BAR_WRITE (R417): A write of FAB_BARb.TENANT is stored, or discarded while BUSY. -/
  | fabBarWrite (agent : Agent) (object : BitVec 6) (value : W32)
  /-- SC_VALUE_WRITE (R438): A write of SC_VALUEn sets the counter and clears its poison. -/
  | scValueWrite (agent : Agent) (counter : BitVec 8) (value : W32)
  -- Power, heat and wear (17)
  /-- GOVERNOR_STEP (R448): Every 10 µs input power is measured and the ramp bounds, VCORE, admissions and fill applied. -/
  | governorStep (power demand : BitVec 32)
  /-- FILL_HOLD_EXPIRY (R450): HOLD_MS after waiting began, the fill floor falls to 0. -/
  | fillHoldExpiry
  /-- JUNCTION_READING (R453): Every 1,000,000 TBC units the hottest junction is read and the thermal cap updated. -/
  | junctionReading (hottest : Option Byte) (failed : Bool)
  /-- JUNCTION_TRIP (R454): A sensor at 115 °C stops the core, sends withdraws and asserts THERMTRIP_N. -/
  | junctionTrip
  /-- DIP_BEGIN (R455): A rail falls below its warning level and a dip begins. -/
  | dipBegin (rail : BitVec 2) (mv : BitVec 11)
  /-- RIDE_THROUGH_EXPIRY (R456): A VPHY or VHBM dip lasting 20 µs stops the affected islands. -/
  | rideThroughExpiry (rail : BitVec 2)
  /-- DIP_END (R458): A rail returns above warning: islands recover and a dip log entry and record are written. -/
  | dipEnd (rail : BitVec 2) (minMv : BitVec 11)
  /-- PCIE_L0_TIMEOUT (R456): A host link not in L0 10 ms after a dip is a link-down event. -/
  | pcieL0Timeout
  /-- RAIL_FAIL (R457): A rail below its fail level sends withdraws and holds a supply or power-on reset. -/
  | railFail (rail : BitVec 2) (reading : Option (BitVec 11))
  /-- SUPPLY_RESET_RELEASE (R457): When every failed rail is above warning, the supply reset is released. -/
  | supplyResetRelease
  /-- CANARY_SAMPLE (R459): Every 1 ms the canary median updates the wear factor, RATE and V_need. -/
  | canarySample (rates : List Nat)
  /-- WEAR_SAMPLE (R460): Every 24 power-on hours a wear sample is written and end of life projected. -/
  | wearSample (meanW : BitVec 11)
  /-- PWR_POLICY_WRITE (R446): A write of PWR_POLICY sets the policy and level request, and RUN ends the 0.65 V hold. -/
  | pwrPolicyWrite (agent : Agent) (value : W32)
  /-- TJ_THERM_WRITE (R461): A write of TJ_THERM is stored, or left unchanged when inconsistent. -/
  | tjThermWrite (agent : Agent) (value : W32)
  -- Tray and rack (18)
  /-- TMC_SAMPLE (R469): The TMC samples its sensors and raises, clears or times alarms. -/
  | tmcSample (tray : BitVec 5) (sample : TraySample)
  /-- REGULATOR_DISABLE (R476): No more than 1 ms after the port fences, every regulator of the tray is disabled. -/
  | regulatorDisable (tray : BitVec 5)
  /-- REGULATOR_POLL (R466): Every 100 ms the TMC polls STATUS_WORD and raises REGULATOR on a fault. -/
  | regulatorPoll (tray : BitVec 5) (faults : BitVec 16)
  /-- TMC_HEARTBEAT (R466): The TMC sends its heartbeat to the rack manager every 1 s. -/
  | tmcHeartbeat (tray : BitVec 5)
  /-- HEARTBEAT_LOSS (R475): After 3 s without a heartbeat the rack manager opens the slot switch and fences the tray. -/
  | heartbeatLoss (tray : BitVec 5)
  /-- MAIN_POWER_LOST (R475): Loss of main power to a powered tray fences it and moves the TMC to its cell. -/
  | mainPowerLost (tray : BitVec 5)
  /-- CELL_CUTOFF (R471): At 10.0 V the TMC writes a final record and disconnects from its cell. -/
  | cellCutoff (tray : BitVec 5) (mv : BitVec 16)
  /-- MAIN_POWER_RESTORED (R472): After 1 s at or above 46 V the TMC restarts, samples, logs and presents its alarms. -/
  | mainPowerRestored (tray : BitVec 5) (sample : TraySample)
  /-- ALARM_ACK (R472): The rack manager acknowledges a TMC's presented alarms and records. -/
  | alarmAck (tray : BitVec 5)
  /-- RACK_MEASURE (R480): Every 10 ms the rack manager measures power, inlet and flow and computes RACK_LIMIT. -/
  | rackMeasure (watts : BitVec 17) (inletMilliC : BitVec 20) (flowCentiL : BitVec 20)
  /-- RACK_OVER_STEP (R482): Every 100 ms over RACK_LIMIT, every limit is lowered by 2 %. -/
  | rackOverStep
  /-- TRAY_POWER_UP (R483): After its wait, the next tray in ascending order is powered. -/
  | trayPowerUp (tray : BitVec 5)
  /-- SERVICE_ENTER (R486): The rack enters draining state. -/
  | serviceEnter
  /-- DRAIN_COMPLETE (R486): When no operation is in flight, slot switches open and the rack enters service state. -/
  | drainComplete
  /-- DRAIN_TIMEOUT (R486): At DRAIN_S every tenant is stopped and the rack enters service state. -/
  | drainTimeout
  /-- SERVICE_EXIT (R487): Restores slot power and starts verification, or is refused. -/
  | serviceExit
  /-- PLAN_COMMIT (R492): Checks and commits the cabling plan in service state. -/
  | planCommit
  /-- FENCE_TRAY (R475): The operator fences a tray. -/
  | fenceTray (tray : BitVec 5)
  /-- ALARM_CLEAR (R473): The operator clears masked alarm bits of a tray where permitted. -/
  | alarmClear (tray : BitVec 5) (mask : BitVec 14)
  /-- LANE_TEST_END (R488): After 30 s of PRBS31 each lane's error count is judged. -/
  | laneTestEnd (results others : List Nat)
  /-- LANE_HOURLY_READ (R490): Once an hour the rack manager reads spare roles and PRBS counts. -/
  | laneHourlyRead (reads : List (Nat × Nat × Nat))
  /-- LANE_PERIOD_EVALUATION (R490): At each period end each lane is passed, failed or marked UNTESTED. -/
  | lanePeriodEvaluation
  /-- READ32 (R493): Rack management frame reading a 32-bit register; `op` is its OP, or one that no command has. -/
  | read32 (op : Byte) (hdr : Frame)
  /-- WRITE32 (R493): Rack management frame writing a 32-bit register. -/
  | write32 (hdr : Frame) (payload : List Byte)
  /-- READ64 (R493): Rack management frame reading a 64-bit register. -/
  | read64 (hdr : Frame)
  /-- WRITE64 (R493): Rack management frame writing a 64-bit register. -/
  | write64 (hdr : Frame) (payload : List Byte)
  /-- FILE_PUT (R493): Rack management frame writing bytes of a file. -/
  | filePut (hdr : Frame) (payload : List Byte)
  /-- FILE_GET (R493): Rack management frame reading bytes of a file. -/
  | fileGet (hdr : Frame)
  /-- RM_RESTART (R498): The rack manager restarts and reads every tray's registers and log. -/
  | rmRestart
  /-- TMC_RESTART (R498): A TMC restarts keeping regulator states and logs its start. -/
  | tmcRestart (tray : BitVec 5)
  -- Start-up and firmware (19)
  /-- PERST_RELEASE (R500): Release of PERST_N with PWRGD asserted begins a power-on reset. -/
  | perstRelease
  /-- PERST_ASSERT (R564): Asserting PERST_N holds the device in reset. -/
  | perstAssert
  /-- PWRGD_RISE (R555): PWRGD is asserted after the rails and clocks are good. -/
  | pwrgdRise
  /-- PWRGD_FALL (R557): PWRGD falling sends withdraws and holds every block in reset. -/
  | pwrgdFall
  /-- DEVICE_RESET (R500): SU_CTRL.DEVICE_RESET with CONFIRM 0x4410 performs a device reset. -/
  | deviceReset (agent : Agent) (confirm : BitVec 16)
  /-- STARTUP_MEMORIES_ZEROED (R502): On-chip memories, tags, caches and buffers are zeroed after reset release. -/
  | startupMemoriesZeroed
  /-- BOOT_RECORD_READ (R513): The boot record is read, a slot chosen and the attempt counted. -/
  | bootRecordRead
  /-- STACK_TRAINING_DONE (R502): Every stack is trained and background zeroing begins. -/
  | stackTrainingDone (tripped : BitVec 8)
  /-- IMAGE_LOADED (R510): The image body is loaded and verified, and core 0 released or the other slot tried. -/
  | imageLoaded (readError : Bool)
  /-- BOOT_OK (R514): Ring 0 writes SU_CTRL.BOOT_OK and the running slot's FAILS becomes 0. -/
  | bootOk (agent : Agent)
  /-- BOOT_DEADLINE_EXPIRY (R514): Without BOOT_OK by the deadline, Vesol performs a device reset. -/
  | bootDeadlineExpiry
  /-- ALIAS_OFF (R505): Ring 0 ends the boot alias of device field 0. -/
  | aliasOff (agent : Agent)
  /-- INSTALL (R519): Verifies a staged image and programs it into the slot not running. -/
  | install (agent : Agent)
  /-- SELECT (R519): Makes the slot not running active, optionally with a device reset. -/
  | select (agent : Agent) (now : Bool)
  /-- SETTINGS_COMMIT (R518): Writes the running slot's settings store and clears QUARANTINE. -/
  | settingsCommit (agent : Agent)
  /-- RAISE_SVN (R519): Raises the fused minimum security version to the running image's SVN. -/
  | raiseSvn (agent : Agent)
  /-- REVOKE_KEY (R519): Revokes a signing key in the fuses. -/
  | revokeKey (agent : Agent) (key : BitVec 2)
  /-- FW_REQUEST_DONE (R519): A firmware request finishes and FW_REQ_STATUS shows its result. -/
  | fwRequestDone (writeError readError : Bool)
  -- Errors (20)
  /-- FENCE_DEVICE (R540): ERR_CTRL.FENCE_DEVICE with CONFIRM fences the device until a device reset. -/
  | fenceDevice (agent : Agent) (confirm : BitVec 16)
  /-- ERR_IMPORT (R537): The sixteenth write delivers a carried record, checked and written with CARRIED set. -/
  | errImport (agent : Agent) (value : W64)
  /-- CORRECTED_RATE_WINDOW (R534): At each 10^9 TBC window end, a rate record is written per source over CORR_RATE. -/
  | correctedRateWindow (source : Byte)
  -- Management bus (21 R550-R552)
  /-- REG_WRITE32 (R550): Management-bus write of a 32-bit register at a PF offset. -/
  | regWrite32 (off value : W32) (pecOk : Bool)
  /-- REG_WRITE64 (R550): Management-bus write of a 64-bit register at a PF offset. -/
  | regWrite64 (off : W32) (value : W64) (pecOk : Bool)
  /-- REG_ADDR (R550): Management-bus command naming the register and width for REG_READ. -/
  | regAddr (off : W32) (width : Byte) (pecOk : Bool)
  /-- REG_READ (R550): Management-bus read of the register named by REG_ADDR. -/
  | regRead (pecOk : Bool)
  /-- PLACE (R467): Management-bus delivery of TRAY_POS, TRAY and RACK. -/
  | place (trayPos tray rack : Byte) (pecOk : Bool)
  /-- PLAN (R551): Management-bus delivery of the next bytes of plan text. -/
  | plan (text : List Byte) (pecOk : Bool)
  /-- PLAN_END (R551): Checks the delivered plan text and sets FAB_STATUS.PLAN. -/
  | planEnd (value : Byte) (pecOk : Bool)
  /-- RECORD (R552): Management-bus read removing the oldest record held for the TMC. -/
  | record (pecOk : Bool)
  /-- STATUS (R550): Management-bus read of the device's summary status byte. -/
  | status (pecOk : Bool)
  -- Boundary scan (21 R553, R554)
  /-- EXTEST (R554): Boundary-scan EXTEST drives pins from the boundary register while PERST_N is asserted. -/
  | extest (pins tdi : BitVec 48)
  /-- IDCODE (R553): Boundary-scan IDCODE selects the 0xB441_009F identification register. -/
  | idcode (tdi : BitVec 32)
  /-- SAMPLE_PRELOAD (R553): Boundary-scan SAMPLE/PRELOAD captures and shifts the boundary register. -/
  | samplePreload (pins tdi : BitVec 48)
  /-- CLAMP (R554): Boundary-scan CLAMP holds pins from the boundary register while PERST_N is asserted. -/
  | clamp (pins tdi : BitVec 48)
  /-- HIGHZ (R554): Boundary-scan HIGHZ places pins in high impedance while PERST_N is asserted. -/
  | highz (pins tdi : BitVec 48)
  /-- BYPASS (R553): Boundary-scan BYPASS, also taken by every unlisted opcode. -/
  | bypass (opcode : Byte) (tdi : Bool)
  -- Reference clocks and other events (21 R565, 14 R386, 04 R111, 08 R238, 19 R502, 17 R446)
  /-- FAB_CLK_LOSS (R565): Loss of the fabric reference makes every port lose lock and retrain on its return. -/
  | fabClkLoss
  /-- FAB_CLK_LOSS_TIMEOUT (R565): Ports still down 5 ms after fabric clock loss are fenced with reason 2. -/
  | fabClkLossTimeout
  /-- FAB_CLK_RETURN (R565): When the fabric reference clock returns, every port that lost lock retrains under R395. -/
  | fabClkReturn
  /-- HBM_PHY_RELOCK_DONE (R386): A PHY that has relocked and retrained takes its stack out of self refresh and the held accesses resume with contents unchanged. -/
  | hbmPhyRelockDone (stack : BitVec 3)
  /-- ACU_WRITEBACK_DONE (R111): The write-back and invalidation of lines under changed rules finish within 20 µs of a switch, and the waiting accesses to those lines proceed. -/
  | acuWritebackDone
  /-- ENGINE_RESET_DONE (R238): An engine reset written through a RESET field completes within 10 µs, and the engine leaves its in-reset state. -/
  | engineResetDone (queue : BitVec 8)
  /-- TB_PLL_LOCKED (R502): After a power-on reset the time-base PLL locks to its reference within 100 µs and TB_STATUS.LOCKED is set. -/
  | tbPllLocked
  /-- TAP_RESET (R553): A TAP reset of the boundary-scan port selects the IDCODE instruction. -/
  | tapReset
  /-- VCORE_SLEW_STEP (R547): Every 1,000 TBC units while the applied VCORE differs from its target, VID moves by one code toward the target, at reset as well. -/
  | vcoreSlewStep
  deriving DecidableEq, Repr

end Sys2Proof
end

