-- ==== Sys2Proof/Decode.lean ====
section
/-! DEFINITION. The headland instruction words (spec 05 R121 to R123, 06 R152, R153): the encoder that TINSN records
and the decoder that reads a word back; and the strand words' decoder (08 R236). The command table gives its rows no bits, so `decodeTableWord` reads none. -/

namespace Sys2Proof

/-- The command that a word of the command table's bits spells: no row of the table has bits. -/
def decodeTableWord (_nbits _w : Nat) : Option Instr := none

/-- Form A (R121). -/
def formA (major : BitVec 6) (rd rs1 rs2 : BitVec 5) (func : BitVec 11) : W32 := major ++ rd ++ rs1 ++ rs2 ++ func
/-- Forms I and B (R121). -/
def formI (major : BitVec 6) (x y : BitVec 5) (imm : BitVec 16) : W32 := major ++ x ++ y ++ imm
/-- Form J (R121). -/
def formJ (major : BitVec 6) (imm : BitVec 26) : W32 := major ++ imm

/-- The word of a headland instruction; 0 for a command that is none. -/
def encodeHl : Instr → W32
  | .add _ rd rs1 rs2 => formA 0x1 rd rs1 rs2 0x0
  | .sub _ rd rs1 rs2 => formA 0x1 rd rs1 rs2 0x1
  | .and _ rd rs1 rs2 => formA 0x1 rd rs1 rs2 0x2
  | .or _ rd rs1 rs2 => formA 0x1 rd rs1 rs2 0x3
  | .xor _ rd rs1 rs2 => formA 0x1 rd rs1 rs2 0x4
  | .shl _ rd rs1 rs2 => formA 0x1 rd rs1 rs2 0x5
  | .shr _ rd rs1 rs2 => formA 0x1 rd rs1 rs2 0x6
  | .sar _ rd rs1 rs2 => formA 0x1 rd rs1 rs2 0x7
  | .slt _ rd rs1 rs2 => formA 0x1 rd rs1 rs2 0x8
  | .sltu _ rd rs1 rs2 => formA 0x1 rd rs1 rs2 0x9
  | .min _ rd rs1 rs2 => formA 0x1 rd rs1 rs2 0xA
  | .max _ rd rs1 rs2 => formA 0x1 rd rs1 rs2 0xB
  | .mul _ rd rs1 rs2 => formA 0x1 rd rs1 rs2 0x10
  | .mulh _ rd rs1 rs2 => formA 0x1 rd rs1 rs2 0x11
  | .mulhu _ rd rs1 rs2 => formA 0x1 rd rs1 rs2 0x12
  | .div _ rd rs1 rs2 => formA 0x1 rd rs1 rs2 0x18
  | .divu _ rd rs1 rs2 => formA 0x1 rd rs1 rs2 0x19
  | .rem _ rd rs1 rs2 => formA 0x1 rd rs1 rs2 0x1A
  | .remu _ rd rs1 rs2 => formA 0x1 rd rs1 rs2 0x1B
  | .cjalr _ rd rs1 rs2 => formA 0x2C rd rs1 rs2 0x0
  | .cjalg _ rd rs1 rs2 => formA 0x2D rd rs1 rs2 0x0
  | .cmov _ rd rs1 rs2 => formA 0x30 rd rs1 rs2 0x0
  | .csetcur _ rd rs1 rs2 => formA 0x30 rd rs1 rs2 0x1
  | .cinccur _ rd rs1 rs2 => formA 0x30 rd rs1 rs2 0x2
  | .csetb _ rd rs1 rs2 => formA 0x30 rd rs1 rs2 0x3
  | .csetbx _ rd rs1 rs2 => formA 0x30 rd rs1 rs2 0x4
  | .candr _ rd rs1 rs2 => formA 0x30 rd rs1 rs2 0x5
  | .csetring _ rd rs1 rs2 => formA 0x30 rd rs1 rs2 0x6
  | .cseal _ rd rs1 rs2 => formA 0x30 rd rs1 rs2 0x7
  | .cunseal _ rd rs1 rs2 => formA 0x30 rd rs1 rs2 0x8
  | .cclrtag _ rd rs1 rs2 => formA 0x30 rd rs1 rs2 0x9
  | .cqbase _ rd rs1 rs2 => formA 0x30 rd rs1 rs2 0x10
  | .cqlen _ rd rs1 rs2 => formA 0x30 rd rs1 rs2 0x11
  | .cqrights _ rd rs1 rs2 => formA 0x30 rd rs1 rs2 0x12
  | .cqtype _ rd rs1 rs2 => formA 0x30 rd rs1 rs2 0x13
  | .cqtag _ rd rs1 rs2 => formA 0x30 rd rs1 rs2 0x14
  | .cqring _ rd rs1 rs2 => formA 0x30 rd rs1 rs2 0x15
  | .cqcur _ rd rs1 rs2 => formA 0x30 rd rs1 rs2 0x16
  | .csealh _ rd rs1 rs2 => formA 0x32 rd rs1 rs2 0x0
  | .cunsealh _ rd rs1 rs2 => formA 0x32 rd rs1 rs2 0x1
  | .cclrtags _ rd rs1 rs2 => formA 0x32 rd rs1 rs2 0x2
  | .fadd _ rd rs1 rs2 => formA 0x34 rd rs1 rs2 0x0
  | .fsub _ rd rs1 rs2 => formA 0x34 rd rs1 rs2 0x1
  | .fmul _ rd rs1 rs2 => formA 0x34 rd rs1 rs2 0x2
  | .fdiv _ rd rs1 rs2 => formA 0x34 rd rs1 rs2 0x3
  | .fsqrt _ rd rs1 rs2 => formA 0x34 rd rs1 rs2 0x4
  | .fmin _ rd rs1 rs2 => formA 0x34 rd rs1 rs2 0x5
  | .fmax _ rd rs1 rs2 => formA 0x34 rd rs1 rs2 0x6
  | .feq _ rd rs1 rs2 => formA 0x34 rd rs1 rs2 0x8
  | .flt _ rd rs1 rs2 => formA 0x34 rd rs1 rs2 0x9
  | .fle _ rd rs1 rs2 => formA 0x34 rd rs1 rs2 0xA
  | .fcvtld _ rd rs1 rs2 => formA 0x34 rd rs1 rs2 0x10
  | .fcvtdl _ rd rs1 rs2 => formA 0x34 rd rs1 rs2 0x11
  | .fcvtsd _ rd rs1 rs2 => formA 0x34 rd rs1 rs2 0x12
  | .fcvtds _ rd rs1 rs2 => formA 0x34 rd rs1 rs2 0x13
  | .fmvgf _ rd rs1 rs2 => formA 0x34 rd rs1 rs2 0x14
  | .fmvfg _ rd rs1 rs2 => formA 0x34 rd rs1 rs2 0x15
  | .scinc _ rd rs1 rs2 => formA 0x3A rd rs1 rs2 0x3
  | .scwait _ rd rs1 rs2 => formA 0x3A rd rs1 rs2 0x4
  | .screset _ rd rs1 rs2 => formA 0x3A rd rs1 rs2 0x5
  | .addi _ rd rs1 imm => formI 0x2 rd rs1 imm
  | .andi _ rd rs1 imm => formI 0x3 rd rs1 imm
  | .ori _ rd rs1 imm => formI 0x4 rd rs1 imm
  | .xori _ rd rs1 imm => formI 0x5 rd rs1 imm
  | .lui _ rd rs1 imm => formI 0x7 rd rs1 imm
  | .lshi _ rd rs1 imm => formI 0x8 rd rs1 imm
  | .slti _ rd rs1 imm => formI 0x9 rd rs1 imm
  | .ldb _ rd rs1 imm => formI 0x10 rd rs1 imm
  | .ldbu _ rd rs1 imm => formI 0x11 rd rs1 imm
  | .ldh _ rd rs1 imm => formI 0x12 rd rs1 imm
  | .ldhu _ rd rs1 imm => formI 0x13 rd rs1 imm
  | .ldw _ rd rs1 imm => formI 0x14 rd rs1 imm
  | .ldwu _ rd rs1 imm => formI 0x15 rd rs1 imm
  | .ldd _ rd rs1 imm => formI 0x16 rd rs1 imm
  | .ldq _ rd rs1 imm => formI 0x17 rd rs1 imm
  | .stb _ rd rs1 imm => formI 0x18 rd rs1 imm
  | .sth _ rd rs1 imm => formI 0x19 rd rs1 imm
  | .stw _ rd rs1 imm => formI 0x1A rd rs1 imm
  | .std _ rd rs1 imm => formI 0x1B rd rs1 imm
  | .stq _ rd rs1 imm => formI 0x1C rd rs1 imm
  | .cld _ rd rs1 imm => formI 0x1D rd rs1 imm
  | .cst _ rd rs1 imm => formI 0x1E rd rs1 imm
  | .fld _ rd rs1 imm => formI 0x1F rd rs1 imm
  | .fst _ rd rs1 imm => formI 0x20 rd rs1 imm
  | .cinccuri _ rd rs1 imm => formI 0x31 rd rs1 imm
  | .beq _ rs1 rs2 imm => formI 0x24 rs1 rs2 imm
  | .bne _ rs1 rs2 imm => formI 0x25 rs1 rs2 imm
  | .blt _ rs1 rs2 imm => formI 0x26 rs1 rs2 imm
  | .bge _ rs1 rs2 imm => formI 0x27 rs1 rs2 imm
  | .bltu _ rs1 rs2 imm => formI 0x28 rs1 rs2 imm
  | .bgeu _ rs1 rs2 imm => formI 0x29 rs1 rs2 imm
  | .jmp _ imm => formJ 0x2A imm
  | .jal _ imm => formJ 0x2B imm
  | .shiShl _ rd rs1 a => formI 6 rd rs1 ((0#8) ++ (0#2) ++ a)
  | .shiShr _ rd rs1 a => formI 6 rd rs1 ((0#8) ++ (1#2) ++ a)
  | .shiSar _ rd rs1 a => formI 6 rd rs1 ((0#8) ++ (2#2) ++ a)
  | .atomicSwap _ rd rs1 rs2 w => formA 0x21 rd rs1 rs2 ((0#6) ++ BitVec.ofBool w ++ (0#4))
  | .atomicAdd _ rd rs1 rs2 w => formA 0x21 rd rs1 rs2 ((0#6) ++ BitVec.ofBool w ++ (1#4))
  | .atomicAnd _ rd rs1 rs2 w => formA 0x21 rd rs1 rs2 ((0#6) ++ BitVec.ofBool w ++ (2#4))
  | .atomicOr _ rd rs1 rs2 w => formA 0x21 rd rs1 rs2 ((0#6) ++ BitVec.ofBool w ++ (3#4))
  | .atomicXor _ rd rs1 rs2 w => formA 0x21 rd rs1 rs2 ((0#6) ++ BitVec.ofBool w ++ (4#4))
  | .atomicMin _ rd rs1 rs2 w => formA 0x21 rd rs1 rs2 ((0#6) ++ BitVec.ofBool w ++ (5#4))
  | .atomicMax _ rd rs1 rs2 w => formA 0x21 rd rs1 rs2 ((0#6) ++ BitVec.ofBool w ++ (6#4))
  | .atomicMinu _ rd rs1 rs2 w => formA 0x21 rd rs1 rs2 ((0#6) ++ BitVec.ofBool w ++ (7#4))
  | .atomicMaxu _ rd rs1 rs2 w => formA 0x21 rd rs1 rs2 ((0#6) ++ BitVec.ofBool w ++ (8#4))
  | .cas _ rd rs1 rs2 w => formA 0x21 rd rs1 rs2 ((0#6) ++ BitVec.ofBool w ++ (9#4))
  | .msadd _ rd rs1 rs2 f => formA 0x22 rd rs1 rs2 ((0#8) ++ f)
  | .fma _ rd rs1 rs2 rs3 => formA 0x35 rd rs1 rs2 (rs3 ++ (0#6))
  | .fms _ rd rs1 rs2 rs3 => formA 0x35 rd rs1 rs2 (rs3 ++ (1#6))
  | .fnma _ rd rs1 rs2 rs3 => formA 0x35 rd rs1 rs2 (rs3 ++ (2#6))
  | .fnms _ rd rs1 rs2 rs3 => formA 0x35 rd rs1 rs2 (rs3 ++ (3#6))
  | .csrr _ rd csr cf => formI 0x38 rd 0 (BitVec.ofBool cf ++ (0#3) ++ csr)
  | .csrw _ rs1 csr cf => formI 0x39 0 rs1 (BitVec.ofBool cf ++ (0#3) ++ csr)
  | .fenceFull _ => formA 0x3A 0 0 0 0
  | .fenceLoad _ => formA 0x3A 0 0 0 0x100
  | .fenceStore _ => formA 0x3A 0 0 0 0x200
  | .isync _ => formA 0x3A 0 0 0 1
  | .rdtb _ rd => formA 0x3A rd 0 0 2
  | .wfi _ => formA 0x3A 0 0 0 6
  | .halt _ => formA 0x3A 0 0 0 7
  | .cstart _ rd rs1 rs2 rs3 => formA 0x3A rd rs1 rs2 (rs3 ++ (8#6))
  | .qput _ rd rs1 rs2 q => formA 0x3B rd rs1 rs2 ((0#3) ++ q)
  | .gate _ k => formI 0x3C 0 0 ((0#14) ++ k)
  | .retgRs1 _ rs1 rs2 => formA 0x3D 0 rs1 rs2 0
  | .retgRs1St _ rs1 rs2 => formA 0x3D 0 rs1 rs2 1
  | .retgBankO _ => formA 0x3D 0 0 0 2
  | .retgBankM _ => formA 0x3D 0 0 0 3
  | .illegalInstruction _ w => w
  | _ => 0

/-- Major 0x1 by func. -/
def decodeInt (c : BitVec 4) (w : W32) (rd rs1 rs2 : BitVec 5) : Nat → Instr
  | 0x0 => .add c rd rs1 rs2
  | 0x1 => .sub c rd rs1 rs2
  | 0x2 => .and c rd rs1 rs2
  | 0x3 => .or c rd rs1 rs2
  | 0x4 => .xor c rd rs1 rs2
  | 0x5 => .shl c rd rs1 rs2
  | 0x6 => .shr c rd rs1 rs2
  | 0x7 => .sar c rd rs1 rs2
  | 0x8 => .slt c rd rs1 rs2
  | 0x9 => .sltu c rd rs1 rs2
  | 0xA => .min c rd rs1 rs2
  | 0xB => .max c rd rs1 rs2
  | 0x10 => .mul c rd rs1 rs2
  | 0x11 => .mulh c rd rs1 rs2
  | 0x12 => .mulhu c rd rs1 rs2
  | 0x18 => .div c rd rs1 rs2
  | 0x19 => .divu c rd rs1 rs2
  | 0x1A => .rem c rd rs1 rs2
  | 0x1B => .remu c rd rs1 rs2
  | _ => .illegalInstruction c w

/-- Major 0x30 by func. -/
def decodeCap (c : BitVec 4) (w : W32) (rd rs1 rs2 : BitVec 5) : Nat → Instr
  | 0x0 => .cmov c rd rs1 rs2
  | 0x1 => .csetcur c rd rs1 rs2
  | 0x2 => .cinccur c rd rs1 rs2
  | 0x3 => .csetb c rd rs1 rs2
  | 0x4 => .csetbx c rd rs1 rs2
  | 0x5 => .candr c rd rs1 rs2
  | 0x6 => .csetring c rd rs1 rs2
  | 0x7 => .cseal c rd rs1 rs2
  | 0x8 => .cunseal c rd rs1 rs2
  | 0x9 => .cclrtag c rd rs1 rs2
  | 0x10 => .cqbase c rd rs1 rs2
  | 0x11 => .cqlen c rd rs1 rs2
  | 0x12 => .cqrights c rd rs1 rs2
  | 0x13 => .cqtype c rd rs1 rs2
  | 0x14 => .cqtag c rd rs1 rs2
  | 0x15 => .cqring c rd rs1 rs2
  | 0x16 => .cqcur c rd rs1 rs2
  | _ => .illegalInstruction c w

/-- Major 0x32 by func. -/
def decodeSealHost (c : BitVec 4) (w : W32) (rd rs1 rs2 : BitVec 5) : Nat → Instr
  | 0x0 => .csealh c rd rs1 rs2
  | 0x1 => .cunsealh c rd rs1 rs2
  | 0x2 => .cclrtags c rd rs1 rs2
  | _ => .illegalInstruction c w

/-- Major 0x34 by func. -/
def decodeFloat (c : BitVec 4) (w : W32) (rd rs1 rs2 : BitVec 5) : Nat → Instr
  | 0x0 => .fadd c rd rs1 rs2
  | 0x1 => .fsub c rd rs1 rs2
  | 0x2 => .fmul c rd rs1 rs2
  | 0x3 => .fdiv c rd rs1 rs2
  | 0x4 => .fsqrt c rd rs1 rs2
  | 0x5 => .fmin c rd rs1 rs2
  | 0x6 => .fmax c rd rs1 rs2
  | 0x8 => .feq c rd rs1 rs2
  | 0x9 => .flt c rd rs1 rs2
  | 0xA => .fle c rd rs1 rs2
  | 0x10 => .fcvtld c rd rs1 rs2
  | 0x11 => .fcvtdl c rd rs1 rs2
  | 0x12 => .fcvtsd c rd rs1 rs2
  | 0x13 => .fcvtds c rd rs1 rs2
  | 0x14 => .fmvgf c rd rs1 rs2
  | 0x15 => .fmvfg c rd rs1 rs2
  | _ => .illegalInstruction c w

/-- Major 0x21 by func[3:0]. -/
def decodeAtomic (c : BitVec 4) (w : W32) (rd rs1 rs2 : BitVec 5) (wide : Bool) : Nat → Instr
  | 0 => .atomicSwap c rd rs1 rs2 wide
  | 1 => .atomicAdd c rd rs1 rs2 wide
  | 2 => .atomicAnd c rd rs1 rs2 wide
  | 3 => .atomicOr c rd rs1 rs2 wide
  | 4 => .atomicXor c rd rs1 rs2 wide
  | 5 => .atomicMin c rd rs1 rs2 wide
  | 6 => .atomicMax c rd rs1 rs2 wide
  | 7 => .atomicMinu c rd rs1 rs2 wide
  | 8 => .atomicMaxu c rd rs1 rs2 wide
  | 9 => .cas c rd rs1 rs2 wide
  | _ => .illegalInstruction c w

/-- Major 0x35 by func[1:0]. -/
def decodeFma (c : BitVec 4) (w : W32) (rd rs1 rs2 rs3 : BitVec 5) : Nat → Instr
  | 0 => .fma c rd rs1 rs2 rs3
  | 1 => .fms c rd rs1 rs2 rs3
  | 2 => .fnma c rd rs1 rs2 rs3
  | 3 => .fnms c rd rs1 rs2 rs3
  | _ => .illegalInstruction c w

/-- Major 0x3A (R122): func[3:0] selects, func[5:4] is zero, and the upper bits are as each operation needs. -/
def decodeSync (c : BitVec 4) (w : W32) (rd rs1 rs2 : BitVec 5) (func : BitVec 11) : Instr :=
  let hi := (func.extractLsb' 6 5).toNat
  if func.extractLsb' 4 2 != 0 then .illegalInstruction c w
  else if hi == 0 then
    match (func.extractLsb' 0 4).toNat with
    | 0 => .fenceFull c
    | 1 => .isync c
    | 2 => .rdtb c rd
    | 3 => .scinc c rd rs1 rs2
    | 4 => .scwait c rd rs1 rs2
    | 5 => .screset c rd rs1 rs2
    | 6 => .wfi c
    | 7 => .halt c
    | 8 => .cstart c rd rs1 rs2 0
    | _ => .illegalInstruction c w
  else if func.extractLsb' 0 4 == 8#4 then .cstart c rd rs1 rs2 (func.extractLsb' 6 5)
  else if func.extractLsb' 0 4 == 0#4 && hi == 4 then .fenceLoad c
  else if func.extractLsb' 0 4 == 0#4 && hi == 8 then .fenceStore c
  else .illegalInstruction c w

/-- Major 0x3D (06 R153). -/
def decodeRetg (c : BitVec 4) (w : W32) (rd rs1 rs2 : BitVec 5) (func : BitVec 11) : Instr :=
  if rd != 0 then .illegalInstruction c w
  else
    match func.toNat with
    | 0 => .retgRs1 c rs1 rs2
    | 1 => .retgRs1St c rs1 rs2
    | 2 => if rs1 == 0 && rs2 == 0 then .retgBankO c else .illegalInstruction c w
    | 3 => if rs1 == 0 && rs2 == 0 then .retgBankM c else .illegalInstruction c w
    | _ => .illegalInstruction c w

/-- Form I loads, stores and immediates by major opcode. -/
def decodeImm (c : BitVec 4) (w : W32) (rd rs1 : BitVec 5) (imm : BitVec 16) : Nat → Instr
  | 0x2 => .addi c rd rs1 imm
  | 0x3 => .andi c rd rs1 imm
  | 0x4 => .ori c rd rs1 imm
  | 0x5 => .xori c rd rs1 imm
  | 0x7 => .lui c rd rs1 imm
  | 0x8 => .lshi c rd rs1 imm
  | 0x9 => .slti c rd rs1 imm
  | 0x10 => .ldb c rd rs1 imm
  | 0x11 => .ldbu c rd rs1 imm
  | 0x12 => .ldh c rd rs1 imm
  | 0x13 => .ldhu c rd rs1 imm
  | 0x14 => .ldw c rd rs1 imm
  | 0x15 => .ldwu c rd rs1 imm
  | 0x16 => .ldd c rd rs1 imm
  | 0x17 => .ldq c rd rs1 imm
  | 0x18 => .stb c rd rs1 imm
  | 0x19 => .sth c rd rs1 imm
  | 0x1A => .stw c rd rs1 imm
  | 0x1B => .std c rd rs1 imm
  | 0x1C => .stq c rd rs1 imm
  | 0x1D => .cld c rd rs1 imm
  | 0x1E => .cst c rd rs1 imm
  | 0x1F => .fld c rd rs1 imm
  | 0x20 => .fst c rd rs1 imm
  | 0x31 => .cinccuri c rd rs1 imm
  | _ => .illegalInstruction c w

/-- Branches by major opcode. -/
def decodeBranch (c : BitVec 4) (w : W32) (rs1 rs2 : BitVec 5) (imm : BitVec 16) : Nat → Instr
  | 0x24 => .beq c rs1 rs2 imm
  | 0x25 => .bne c rs1 rs2 imm
  | 0x26 => .blt c rs1 rs2 imm
  | 0x27 => .bge c rs1 rs2 imm
  | 0x28 => .bltu c rs1 rs2 imm
  | 0x29 => .bgeu c rs1 rs2 imm
  | _ => .illegalInstruction c w

/-- The headland instruction that a word is, on core `c` (R121 to R123): a word the tables do not list is the illegal
instruction. -/
def decodeHl (c : BitVec 4) (w : W32) : Instr :=
  let m := (w.extractLsb' 26 6).toNat
  let rd := w.extractLsb' 21 5
  let rs1 := w.extractLsb' 16 5
  let rs2 := w.extractLsb' 11 5
  let func := w.extractLsb' 0 11
  let imm := w.extractLsb' 0 16
  let ill := Instr.illegalInstruction c w
  match m with
  | 0x01 => decodeInt c w rd rs1 rs2 func.toNat
  | 0x06 =>
    match (imm.extractLsb' 6 2).toNat with
    | 0 => .shiShl c rd rs1 (imm.extractLsb' 0 6)
    | 1 => .shiShr c rd rs1 (imm.extractLsb' 0 6)
    | 2 => .shiSar c rd rs1 (imm.extractLsb' 0 6)
    | _ => ill
  | 0x21 =>
    if func.extractLsb' 5 6 == 0 then decodeAtomic c w rd rs1 rs2 (func.extractLsb' 4 1 == 1#1) (func.extractLsb' 0 4).toNat
    else ill
  | 0x22 =>
    if func.extractLsb' 3 8 == 0 && decide ((func.extractLsb' 0 3).toNat ≤ 4) then
      .msadd c rd rs1 rs2 (func.extractLsb' 0 3)
    else ill
  | 0x2A => .jmp c (w.extractLsb' 0 26)
  | 0x2B => .jal c (w.extractLsb' 0 26)
  | 0x2C => if func == 0 then .cjalr c rd rs1 rs2 else ill
  | 0x2D => if func == 0 then .cjalg c rd rs1 rs2 else ill
  | 0x30 => decodeCap c w rd rs1 rs2 func.toNat
  | 0x32 => decodeSealHost c w rd rs1 rs2 func.toNat
  | 0x34 => decodeFloat c w rd rs1 rs2 func.toNat
  | 0x35 =>
    if func.extractLsb' 2 4 == 0 then decodeFma c w rd rs1 rs2 (func.extractLsb' 6 5) (func.extractLsb' 0 2).toNat
    else ill
  | 0x38 => .csrr c rd (imm.extractLsb' 0 12) (imm.extractLsb' 15 1 == 1#1)
  | 0x39 => .csrw c rs1 (imm.extractLsb' 0 12) (imm.extractLsb' 15 1 == 1#1)
  | 0x3A => decodeSync c w rd rs1 rs2 func
  | 0x3B => if func.extractLsb' 8 3 == 0 then .qput c rd rs1 rs2 (func.extractLsb' 0 8) else ill
  | 0x3C => if rd == 0 && rs1 == 0 && imm.extractLsb' 2 14 == 0 then .gate c (imm.extractLsb' 0 2) else ill
  | 0x3D => decodeRetg c w rd rs1 rs2 func
  | m => if 0x24 ≤ m && m ≤ 0x29 then decodeBranch c w rd rs1 imm m else decodeImm c w rd rs1 imm m

/- Strand instruction words (08 R236) -/

/-- Reads of number 0x27 and writes of 0x27, DSTAT and CID are illegal (R236). -/
def Machine.srIllegal (r : Nat) (write : Bool) : Bool := r == 0x27 || (write && (r == 0x26 || r == 0x3F))

/-- A parallel-move field whose lanes are legal (R225, R236). -/
def Machine.movesOk (m : BitVec 13) : Bool :=
  let xd := (Machine.fld m 11 2).toNat
  let yd := (Machine.fld m 8 3).toNat
  decide (yd < 6) && (xd != 0 || Machine.fld m 4 4 == 0) && (yd != 0 || Machine.fld m 0 4 == 0) &&
    !(xd == 1 && yd == 3) && !(xd == 2 && yd == 4)
/-- The fields of class M that the operation leaves unused are zero (R236; DEDUCED, log entry 39): QI where no operand is Q[QI]; every
field but the moves in MOVE. -/
def Machine.mulFieldsOk (fa fb : BitVec 2) (qi : BitVec 5) : Bool := qi == 0 || fa == 3 || fb == 3
/-- MOVE's unused fields. -/
def Machine.moveFieldsOk (d : Bool) (fa fb sg : BitVec 2) (qi : BitVec 5) : Bool := !d && fa == 0 && fb == 0 && sg == 0 && qi == 0

/-- The fields of class A that operation `op` leaves unused are zero (R236; DEDUCED, log entry 39): REG serves 6 to 15, U serves 6 to
9, IMM serves SHA alone. -/
def Machine.accFieldsOk (op : Nat) (reg : BitVec 6) (u : Bool) (imm : BitVec 4) : Bool :=
  (decide (6 ≤ op) || reg == 0) && ((decide (6 ≤ op) && decide (op ≤ 9)) || !u) && (op == 5 || imm == 0)

/-- Class M by OP. -/
def decodeStrandM (c : BitVec 6) (d : Bool) (fa fb sg : BitVec 2) (qi : BitVec 5) (m : BitVec 13) : Nat → Option Instr
  | 0 => some (.mpy c d fa fb sg qi m)
  | 1 => some (.mac c d fa fb sg qi m)
  | 2 => some (.msu c d fa fb sg qi m)
  | 3 => some (.move c d fa fb sg qi m)
  | _ => none

/-- Class A by OP. -/
def decodeStrandA (c : BitVec 6) (d : Bool) (r : BitVec 6) (u : Bool) (i : BitVec 4) (m : BitVec 13) : Nat → Option Instr
  | 0 => some (.clr c d r u i m)
  | 1 => some (.adda c d r u i m)
  | 2 => some (.suba c d r u i m)
  | 3 => some (.neg c d r u i m)
  | 4 => some (.abs c d r u i m)
  | 5 => some (.sha c d r u i m)
  | 6 => some (.lda c d r u i m)
  | 7 => some (.addr c d r u i m)
  | 8 => some (.subr c d r u i m)
  | 9 => some (.movr c d r u i m)
  | 10 => some (.movp c d r u i m)
  | 11 => some (.movm c d r u i m)
  | 12 => some (.movg c d r u i m)
  | 13 => some (.setp c d r u i m)
  | 14 => some (.setm c d r u i m)
  | 15 => some (.setg c d r u i m)
  | _ => none

/-- Class R by OP. -/
def decodeStrandR (c : BitVec 6) (rd rs : BitVec 6) (m : BitVec 13) : Nat → Option Instr
  | 0 => some (.mov c rd rs m)
  | 1 => some (.strandAdd c rd rs m)
  | 2 => some (.strandSub c rd rs m)
  | 3 => some (.strandAnd c rd rs m)
  | 4 => some (.strandOr c rd rs m)
  | 5 => some (.strandXor c rd rs m)
  | 6 => some (.cmp c rd rs m)
  | 7 => some (.cmpu c rd rs m)
  | _ => none

/-- Class 000 by OP: every other OP, and every field that is not used, is reserved. REPEAT uses one of REG and n. -/
def decodeStrandControl (c : BitVec 6) (w : W32) : Option Instr :=
  let reg : BitVec 6 := w.extractLsb' 17 6
  let low (n : Nat) : Bool := w.toNat % 2 ^ 24 / 2 ^ n == 0
  let ok (b : Bool) (i : Instr) : Option Instr := if b then some i else none
  match (w.extractLsb' 24 5).toNat with
  | 0x00 => ok (low 0) (.strandNop c)
  | 0x01 => ok (w.extractLsb' 13 7 == 0 && w.extractLsb' 23 1 == 0) (.br c (w.extractLsb' 20 4) (w.extractLsb' 0 13))
  | 0x03 =>
    let rsel := w.extractLsb' 23 1 == 1
    ok (w.extractLsb' 11 6 == 0 && (if rsel then w.extractLsb' 0 11 == 0 && !Machine.srIllegal reg.toNat false else reg == 0))
      (.strandRepeat c rsel reg (w.extractLsb' 0 11))
  | 0x04 => ok (w.extractLsb' 13 4 == 0 && !Machine.srIllegal reg.toNat false)
      (.loop c (w.extractLsb' 23 1 == 1) reg (w.extractLsb' 0 13))
  | 0x05 => ok (low 16) (.strandHalt c (w.extractLsb' 0 16))
  | 0x06 => ok (w.extractLsb' 0 14 == 0)
      (.dma c (w.extractLsb' 23 1 == 1) (w.extractLsb' 20 3) (w.extractLsb' 17 3) (w.extractLsb' 14 3))
  | 0x07 => ok (low 2) (.waitd c (w.extractLsb' 0 2))
  | 0x09 => ok (low 0) (.reti c)
  | _ => none

/-- The strand instruction that a word is, on core `c`; none for an illegal one: classes 110 and 111, an operation that the
tables do not list, a reserved field that is not zero, register 0x27, a write of DSTAT or CID, two lanes with one destination. -/
def decodeStrand (c : BitVec 6) (w : W32) : Option Instr :=
  let m : BitVec 13 := w.extractLsb' 0 13
  let ok (b : Bool) (i : Option Instr) : Option Instr := if b then i else none
  let bit (i : Nat) : Bool := w.extractLsb' i 1 == 1
  match (w.extractLsb' 29 3).toNat with
  | 0 => decodeStrandControl c w
  | 1 =>
    let sg : BitVec 2 := w.extractLsb' 19 2
    let fa : BitVec 2 := w.extractLsb' 23 2
    let fb : BitVec 2 := w.extractLsb' 21 2
    let qi : BitVec 5 := w.extractLsb' 14 5
    let op := (w.extractLsb' 26 3).toNat
    ok (sg != 3 && !bit 13 && Machine.movesOk m &&
        (if op = 3 then Machine.moveFieldsOk (bit 25) fa fb sg qi else Machine.mulFieldsOk fa fb qi))
      (decodeStrandM c (bit 25) fa fb sg qi m op)
  | 2 =>
    let op := (w.extractLsb' 25 4).toNat
    let r : BitVec 6 := w.extractLsb' 18 6
    ok (Machine.movesOk m && !(decide (6 ≤ op) && Machine.srIllegal r.toNat (decide (9 ≤ op) && decide (op ≤ 12))) &&
        Machine.accFieldsOk op r (bit 17) (w.extractLsb' 13 4))
      (decodeStrandA c (bit 24) r (bit 17) (w.extractLsb' 13 4) m op)
  | 3 =>
    let r : BitVec 6 := w.extractLsb' 17 6
    ok (w.extractLsb' 0 17 == 0 && !Machine.srIllegal r.toNat (!bit 28))
      (some (if bit 28 then .strandStore c (w.extractLsb' 25 3) (w.extractLsb' 23 2) r
        else .strandLoad c (w.extractLsb' 25 3) (w.extractLsb' 23 2) r))
  | 4 =>
    let r : BitVec 6 := w.extractLsb' 23 6
    let op := (w.extractLsb' 21 2).toNat
    ok (decide (op ≤ 1) && w.extractLsb' 16 5 == 0 && !Machine.srIllegal r.toNat true)
      (some (if op = 0 then .ldi c r (w.extractLsb' 0 16) else .strandAddi c r (w.extractLsb' 0 16)))
  | 5 =>
    let op := (w.extractLsb' 26 3).toNat
    let rd : BitVec 6 := w.extractLsb' 20 6
    let rs : BitVec 6 := w.extractLsb' 14 6
    ok (!bit 13 && Machine.movesOk m && !Machine.srIllegal rd.toNat (decide (op < 6)) && !Machine.srIllegal rs.toNat false)
      (decodeStrandR c rd rs m op)
  | _ => none

end Sys2Proof
end

