-- ==== Sys2Proof/Machine/Float.lean ====
section
/-! DEFINITION. Floating-point formats (spec 13 R351): decoding to exact values, one rounding function with the flags of
R354, and the arithmetic built from the two. -/

namespace Sys2Proof.Machine

/-- A format of R351: exponent and mantissa bits, bias, and whether the top exponent holds infinities (all but E4M3). -/
structure FloatFmt where
  eb : Nat
  mb : Nat
  bias : Nat
  ieee : Bool
  deriving DecidableEq, Repr

def fp64 : FloatFmt := ⟨11, 52, 1023, true⟩
def fp32 : FloatFmt := ⟨8, 23, 127, true⟩
def bf16 : FloatFmt := ⟨8, 7, 127, true⟩
def fp16 : FloatFmt := ⟨5, 10, 15, true⟩
def e5m2 : FloatFmt := ⟨5, 2, 15, true⟩
def e4m3 : FloatFmt := ⟨4, 3, 7, false⟩

/-- A value: NaN (with its signalling bit), infinity, or (-1)^neg * m * 2^e. -/
inductive FVal where
  | nan (signalling : Bool)
  | inf (neg : Bool)
  | fin (neg : Bool) (m : Nat) (e : Int)
  deriving DecidableEq, Repr

/-- The flags of R354, bit by bit: 0 inexact, 1 underflow, 2 overflow, 3 divide by zero, 4 invalid. -/
abbrev FFlags := BitVec 5
def flInexact : FFlags := 1
def flUnderflow : FFlags := 2
def flOverflow : FFlags := 4
def flDivZero : FFlags := 8
def flInvalid : FFlags := 16

/-- Width of an encoding. -/
def fmtBits (f : FloatFmt) : Nat := 1 + f.eb + f.mb
/-- The all-ones exponent field. -/
def fmtTop (f : FloatFmt) : Nat := 2 ^ f.eb - 1
/-- Largest finite magnitude as mantissa and exponent. -/
def fmtMax (f : FloatFmt) : Nat × Int :=
  if f.ieee then (2 ^ (f.mb + 1) - 1, (fmtTop f : Int) - 1 - f.bias - f.mb)
  else (2 ^ (f.mb + 1) - 2, (fmtTop f : Int) - f.bias - f.mb)
/-- Exponent of the smallest subnormal. -/
def fmtMinExp (f : FloatFmt) : Int := 1 - (f.bias : Int) - f.mb
/-- Canonical NaN. -/
def fmtNaN (f : FloatFmt) : Nat :=
  if f.ieee then fmtTop f * 2 ^ f.mb + 2 ^ (f.mb - 1) else 2 ^ (f.eb + f.mb) - 1
/-- The sign bit of an encoding. -/
def fmtSign (f : FloatFmt) (neg : Bool) : Nat := if neg then 2 ^ (f.eb + f.mb) else 0
/-- Infinity. -/
def fmtInf (f : FloatFmt) (neg : Bool) : Nat := fmtSign f neg + fmtTop f * 2 ^ f.mb
/-- Largest finite encoding. -/
def fmtMaxEnc (f : FloatFmt) (neg : Bool) : Nat :=
  fmtSign f neg + (if f.ieee then fmtTop f * 2 ^ f.mb - 1 else 2 ^ (f.eb + f.mb) - 2)

/-- Decode an encoding. -/
def fDecode (f : FloatFmt) (x : Nat) : FVal :=
  let neg := x.testBit (f.eb + f.mb)
  let e := x / 2 ^ f.mb % 2 ^ f.eb
  let m := x % 2 ^ f.mb
  if f.ieee && e == fmtTop f then
    if m = 0 then .inf neg else .nan (!m.testBit (f.mb - 1))
  else if !f.ieee && e == fmtTop f && m == 2 ^ f.mb - 1 then .nan false
  else if e = 0 then .fin neg m (fmtMinExp f)
  else .fin neg (m + 2 ^ f.mb) ((e : Int) - f.bias - f.mb)

/-- Bits of a natural number. -/
def bitLen (n : Nat) : Nat := if n = 0 then 0 else n.log2 + 1

/-- Does rounding move a truncated magnitude up? `rm` 0 nearest even, 1 toward zero, 2 toward -inf, 3 toward +inf. -/
def roundsUp (rm : Nat) (neg odd : Bool) (half : Ordering) (inexact : Bool) : Bool :=
  match rm with
  | 0 => half == .gt || (half == .eq && odd)
  | 1 => false
  | 2 => neg && inexact
  | _ => !neg && inexact

/-- The magnitude m * 2^e (plus something below one unit when `sticky`) in units of 2^q: rounded count and inexactness. -/
def roundAt (rm : Nat) (neg : Bool) (m : Nat) (e : Int) (sticky : Bool) (q : Int) : Nat × Bool :=
  if q ≤ e then (m * 2 ^ (e - q).toNat, sticky)
  else
    let sh := (q - e).toNat
    let t := m / 2 ^ sh
    let r := m % 2 ^ sh
    let h := 2 ^ (sh - 1)
    let half : Ordering := if r < h then .lt else if r = h && !sticky then .eq else .gt
    let inexact := r != 0 || sticky
    (if roundsUp rm neg (t % 2 == 1) half inexact then t + 1 else t, inexact)

/-- An unrounded magnitude that a rounding at unbounded exponent takes beyond the largest finite value. -/
def exceedsMax (f : FloatFmt) (m : Nat) (q : Int) : Bool :=
  let (mm, me) := fmtMax f
  if q ≤ me then decide (mm * 2 ^ (me - q).toNat < m) else decide (mm < m * 2 ^ (q - me).toNat)

/-- Round (-1)^neg * m * 2^e (with `sticky`) to a format (R354, R355): encoding, flags. `clamp` writes the largest finite
value in place of an overflow. -/
def fRound (f : FloatFmt) (rm : Nat) (clamp : Bool) (neg : Bool) (m : Nat) (e : Int) (sticky : Bool) : Nat × FFlags :=
  if m = 0 && !sticky then (fmtSign f neg, 0)
  else
    let qU : Int := e + bitLen m - (f.mb + 1)
    let (mu, _) := roundAt rm neg m e sticky qU
    let tiny : Bool :=
      -- below the smallest normal 2^(mb) * 2^(minExp)
      let lim : Int := fmtMinExp f + f.mb
      if qU ≤ lim then decide (mu < 2 ^ (lim - qU).toNat) else false
    let q := max qU (fmtMinExp f)
    let (r, inexact) := roundAt rm neg m e sticky q
    if exceedsMax f mu qU then
      let toInf := !clamp && (match rm with | 0 => true | 1 => false | 2 => neg | _ => !neg)
      let enc := if toInf then (if f.ieee then fmtInf f neg else fmtSign f neg + fmtNaN f) else fmtMaxEnc f neg
      (enc, flOverflow ||| flInexact)
    else
      -- a carry out of the mantissa moves into the exponent field by itself
      let enc := if r < 2 ^ f.mb then r else ((q - fmtMinExp f).toNat + 1) * 2 ^ f.mb + (r - 2 ^ f.mb)
      (fmtSign f neg + enc, (if inexact then flInexact else 0) ||| (if inexact && tiny then flUnderflow else 0))

/-- Is a value a signalling NaN? -/
def isSNaN : FVal → Bool
  | .nan s => s
  | _ => false

/-- Is a value a NaN? -/
def isNaN : FVal → Bool
  | .nan _ => true
  | _ => false

/-- A finite signed magnitude as an integer in units of 2^q, q at most its exponent. -/
def scaled (neg : Bool) (m : Nat) (e q : Int) : Int :=
  let v : Int := ((m * 2 ^ (e - q).toNat : Nat) : Int)
  if neg then -v else v

/-- The exact sum of two finite values: sign, magnitude, exponent. An exact zero takes the sign that `rm` gives it, or
the common sign of the two operands. -/
def addExact (rm : Nat) (n1 : Bool) (m1 : Nat) (e1 : Int) (n2 : Bool) (m2 : Nat) (e2 : Int) : Bool × Nat × Int :=
  let q := min e1 e2
  let v := scaled n1 m1 e1 q + scaled n2 m2 e2 q
  if v = 0 then ((if n1 == n2 then n1 else rm == 2), 0, q)
  else (decide (v < 0), v.natAbs, q)

/-- Add two values: value of the exact result and the invalid flag. -/
def fAddVal (rm : Nat) (a b : FVal) : FVal × FFlags :=
  match a, b with
  | .nan _, _ => (.nan false, 0)
  | _, .nan _ => (.nan false, 0)
  | .inf x, .inf y => if x == y then (.inf x, 0) else (.nan false, flInvalid)
  | .inf x, .fin _ _ _ => (.inf x, 0)
  | .fin _ _ _, .inf y => (.inf y, 0)
  | .fin n1 m1 e1, .fin n2 m2 e2 =>
    let (n, m, e) := addExact rm n1 m1 e1 n2 m2 e2
    (.fin n m e, 0)

/-- Multiply two values exactly. -/
def fMulVal (a b : FVal) : FVal × FFlags :=
  match a, b with
  | .nan _, _ => (.nan false, 0)
  | _, .nan _ => (.nan false, 0)
  | .inf x, .inf y => (.inf (x != y), 0)
  | .inf x, .fin y m _ => if m = 0 then (.nan false, flInvalid) else (.inf (x != y), 0)
  | .fin x m _, .inf y => if m = 0 then (.nan false, flInvalid) else (.inf (x != y), 0)
  | .fin x m1 e1, .fin y m2 e2 => (.fin (x != y) (m1 * m2) (e1 + e2), 0)

/-- The other sign. -/
def fNegVal : FVal → FVal
  | .nan s => .nan s
  | .inf n => .inf (!n)
  | .fin n m e => .fin (!n) m e

/-- Write an exact value in a format: canonical NaN, infinity, or one rounding. -/
def fEncode (f : FloatFmt) (rm : Nat) (clamp : Bool) (v : FVal) (fl : FFlags) : Nat × FFlags :=
  match v with
  | .nan _ => (fmtNaN f, fl)
  | .inf n => (if f.ieee then fmtInf f n else fmtSign f n + fmtNaN f, fl)
  | .fin n m e =>
    let (x, fl') := fRound f rm clamp n m e false
    (x, fl ||| fl')

/-- Sum of two encodings, rounded once. -/
def fAdd (f : FloatFmt) (rm : Nat) (a b : Nat) : Nat × FFlags :=
  let (v, fl) := fAddVal rm (fDecode f a) (fDecode f b)
  fEncode f rm false v fl

/-- Product of two encodings, rounded once. -/
def fMul (f : FloatFmt) (rm : Nat) (a b : Nat) : Nat × FFlags :=
  let (v, fl) := fMulVal (fDecode f a) (fDecode f b)
  fEncode f rm false v fl

/-- a * b + c, rounded once. -/
def fMulAdd (f : FloatFmt) (rm : Nat) (a b c : FVal) : Nat × FFlags :=
  let (p, fl) := fMulVal a b
  let (v, fl') := fAddVal rm p c
  fEncode f rm false v (fl ||| fl')

/-- Quotient, rounded once. -/
def fDiv (f : FloatFmt) (rm : Nat) (a b : FVal) : Nat × FFlags :=
  match a, b with
  | .nan _, _ => (fmtNaN f, 0)
  | _, .nan _ => (fmtNaN f, 0)
  | .inf _, .inf _ => (fmtNaN f, flInvalid)
  | .inf x, .fin y _ _ => (fmtInf f (x != y), 0)
  | .fin x _ _, .inf y => (fmtSign f (x != y), 0)
  | .fin x m1 e1, .fin y m2 e2 =>
    if m2 = 0 then
      if m1 = 0 then (fmtNaN f, flInvalid) else (fmtInf f (x != y), flDivZero)
    else
      let sh := f.mb + 4 + bitLen m2
      let num := m1 * 2 ^ sh
      fRound f rm false (x != y) (num / m2) (e1 - e2 - sh) (num % m2 != 0)

/-- Integer square root by bits, from bit `n` down. -/
def isqrtGo (x : Nat) : Nat → Nat → Nat
  | 0, r => r
  | n + 1, r => let t := r + 2 ^ n; isqrtGo x n (if t * t ≤ x then t else r)

/-- Integer square root. -/
def isqrt (x : Nat) : Nat := isqrtGo x (bitLen x / 2 + 1) 0

/-- Square root, rounded once. -/
def fSqrt (f : FloatFmt) (rm : Nat) (a : FVal) : Nat × FFlags :=
  match a with
  | .nan _ => (fmtNaN f, 0)
  | .inf n => if n then (fmtNaN f, flInvalid) else (fmtInf f false, 0)
  | .fin n m e =>
    if m = 0 then (fmtSign f n, 0)
    else if n then (fmtNaN f, flInvalid)
    else
      let sh := 2 * (f.mb + 4) + (if (e % 2 == 0) then 0 else 1)
      let x := m * 2 ^ sh
      let r := isqrt x
      fRound f rm false false r ((e - sh) / 2) (r * r != x)

/-- Order of two values that are not NaN. -/
def fCmp (a b : FVal) : Ordering :=
  match a, b with
  | .inf x, .inf y => if x == y then .eq else if x then .lt else .gt
  | .inf x, _ => if x then .lt else .gt
  | _, .inf y => if y then .gt else .lt
  | .fin n1 m1 e1, .fin n2 m2 e2 =>
    let q := min e1 e2
    compare (scaled n1 m1 e1 q) (scaled n2 m2 e2 q)
  | _, _ => .eq

/-- The sign of a value. -/
def fSignOf : FVal → Bool
  | .nan _ => false
  | .inf n => n
  | .fin n _ _ => n

/-- A value as an integer of `w` bits (signed or not), rounded by `rm`: saturates, NaN gives 0, with flags. -/
def fToInt (w : Nat) (signed : Bool) (rm : Nat) (v : FVal) : Int × Bool × FFlags :=
  let hi : Int := if signed then 2 ^ (w - 1) - 1 else 2 ^ w - 1
  let lo : Int := if signed then -(2 ^ (w - 1)) else 0
  match v with
  | .nan _ => (0, true, flInvalid)
  | .inf n => (if n then lo else hi, true, 0)
  | .fin n m e =>
    let (r, inexact) := roundAt rm n m e false 0
    let x : Int := if n then -(r : Int) else r
    if x < lo then (lo, true, 0) else if hi < x then (hi, true, 0)
    else (x, false, if inexact then flInexact else 0)

end Sys2Proof.Machine
end

