-- ==== Sys2Proof/Config.lean ====
section
/-! DEFINITION. What an implementation fixes and the values the spec leaves open. Each is a constant without a body:
nothing in Lean can evaluate it, so every claim holds for every value. -/

namespace Sys2Proof

/-- ID_SERIAL, fused at manufacture (spec 01 R24). -/
opaque Config.serial : W64

/-- ID_SERIAL of the device at another place, by device number (spec 18 R492; log entry 27). -/
opaque Config.deviceSerial (d : Nat) : W64

/-- The key of tenant `t` after `draw` epoch advances since reset number `era` (spec 03 R79: drawn from Vesol's
internal random source; nothing reveals it). -/
opaque Config.tenantKey (era t draw : Nat) : BitVec 128

/-- Free values numbered by the counter `State.freeCtr` (log entry 4). -/
opaque Config.freeValue : Nat → BitVec 64

/-- Result of an integer division or remainder that the spec does not state: divisor 0, or the most negative number
by -1 (05 R122; log entry 9). `op` is the func value. -/
opaque Config.divCorner (op : Nat) (a b : W64) : W64

/-- Result of a register shift by 64 or more (05 R122 states none; log entry 10). `op` is the func value. -/
opaque Config.shiftCorner (op : Nat) (a amount : W64) : W64

/-- Bits [63:32] that a 32-bit atomic leaves in rd beside the old value (05 R127 states none; log entry 30). -/
opaque Config.atomicUpper : W32 → W32

/-- CODE of the error record that names a headland access's lost destination (15 R407; 20 R525 lists none; log entry 12). -/
opaque Config.lossCode : BitVec 16

/-- What the tray flash holds at manufacture (spec 19 R508; log entry 7). -/
opaque Config.flash0 : Nat → Byte

/-- The public key `k` of the start-up controller's mask ROM, as a point of P-384 (spec 19 R510). -/
opaque Config.romKey (k : Nat) : Nat × Nat

/-- Local address of the staging area of 32 MiB in HBM that the monitor names in FW_STAGE_TOKEN (spec 19 R519). -/
opaque Config.stageArea : Nat

/-- PF offsets and widths in bits of the registers that a settings schema names (spec 19 R516, R518). -/
opaque Config.schemaRegs (schema : Nat) : List (Nat × Nat)

/- Canary pipelines (spec 17 R459, R460): what is fused at manufacture. -/

/-- R_mfg: the canary rate at 60 °C at VCORE 0.55 V + 5 mV × code. -/
opaque Config.canaryCurve (code : Nat) : Nat
/-- r_RP: the canary rate that corresponds to RP throughput at exactly the minimum of 02 R32. -/
opaque Config.canaryRp : Nat
/-- V_need at manufacture, mV. -/
opaque Config.vNeed0 : Nat

/- Video (spec 09): ITU-T H.265's own coding is outside the spec. What the encoder chooses within it and what the decoder makes of
a stream depend only on what R253 and R267 name, so they are constants without a body applied to exactly that (log entry 32). -/

/-- One thing a stream context has begun since it was configured (R253): 0 a picture, 1 a FLUSH, 2 a KEY_REQUEST, with
its PARAMS and its source samples, as coded, or access unit; of a coded picture its row QPs and how many references it had. -/
structure VidStep where
  kind : Nat
  params : List Byte
  data : List Byte
  qps : List Int
  refs : Nat
  deriving DecidableEq, Repr

/-- A prediction unit: its first sample and its size (R262). -/
structure Pu where
  x : Nat
  y : Nat
  w : Nat
  h : Nat
  deriving DecidableEq, Repr

/-- The byte-aligned substream of a CTU row (R254), as it stands in the stream. `kind` is the picture's (0 IDR, 1 CRA, 2 P),
`qps` are those of the rows begun, `vectors` what the motion search finds for a prediction unit in a reference (R262). -/
opaque Config.encodeRow (setup : List Byte) (history : List VidStep) (now : VidStep) (kind : Nat) (qps : List Int) (row : Nat)
    (vectors : Pu → Nat → Int × Int) : List Byte

/-- Header fields that the spec leaves to the encoder, by the place where they stand (R248, R249). -/
opaque Config.headBits (setup : List Byte) (history : List VidStep) (now : VidStep) (place : Nat) : List Bool
/-- Parameter sets precede the picture's slice. -/
opaque Config.headSets (setup : List Byte) (history : List VidStep) (now : VidStep) : Bool
/-- A start code has a leading zero byte, by what it starts. -/
opaque Config.startZero (place : Nat) : Bool

/-- Reconstructed sample number `i` of a near-lossless picture. -/
opaque Config.encodeRecon (setup : List Byte) (history : List VidStep) (now : VidStep) (i : Nat) : Nat

/-- The candidate vectors of a prediction unit in a reference, the two of AMVP and then those of merge (R262): H.265 derives them, scaled
by picture distance where it says so, from vectors that the search has found for other units. `found k w r` is that of unit `w` in
reference `r` of this picture (k = 0) or of the k-th coded before it. Which units these are follows from how the encoder has divided the
pictures. -/
opaque Config.mvCandidates (setup : List Byte) (history : List VidStep) (now : VidStep) (pu : Pu) (ref : Nat)
    (found : Nat → Pu → Nat → Int × Int) : List (Int × Int)
/-- Sample (x, y) of a picture downsampled by `f` (R262). -/
opaque Config.downSample (f : Nat) (pic : Int → Int → Nat) (x y : Int) : Nat

/-- What decoding an access unit comes to (R250, R266 to R268). -/
structure Decoded where
  /-- byte offset of the NAL unit that makes the stream unsupported in a way that the fields below do not tell -/
  unsupported : Option Nat
  /-- byte offset of the NAL unit that those fields come from -/
  sets : Nat
  /-- general_profile_idc is 4 and the profile one of Monochrome, Monochrome 10, 12 or 16 -/
  monochrome : Bool
  /-- general_tier_flag, general_level_idc, chroma_format_idc, bit depth, sps_max_dec_pic_buffering -/
  highTier : Bool
  level : Nat
  chroma : Nat
  depth : Nat
  dpb : Nat
  /-- a RASL picture that follows a CRA at the start of decoding -/
  rasl : Bool
  poc : Int
  width : Nat
  height : Nat
  /-- log2 of the CTU size -/
  ctuLog : Nat
  hashPresent : Bool
  hashMismatch : Bool
  /-- the picture is a reference -/
  isRef : Bool
  /-- POCs of the earlier pictures that stay references -/
  keep : List Int
  deriving Inhabited

/-- What an access unit is, given the positions of its poisoned bytes. -/
opaque Config.decodeUnit (setup : List Byte) (history : List VidStep) (now : VidStep) (poison : List Nat) : Decoded

/-- The bytes that decoding CTU `i` has taken from its slice: the first of the slice and the one after the last; none where no slice
covers it. -/
opaque Config.ctuBytes (setup : List Byte) (history : List VidStep) (now : VidStep) (i : Nat) : Option (Nat × Nat)

/-- Code of CTU `i` (R268), before the watchdog, for a context that holds references of these POCs. -/
opaque Config.decodeCode (setup : List Byte) (history : List VidStep) (now : VidStep) (poison : List Nat) (held : List Int)
    (i : Nat) : Fin 4

/-- Decoded sample number `i`; `ref` gives the samples of the reference with a POC. -/
opaque Config.decodeSample (setup : List Byte) (history : List VidStep) (now : VidStep) (poison : List Nat)
    (ref : Int → Nat → Nat) (i : Nat) : Nat

/- Errors that strike by themselves -/

/-- An error in what a check code or parity protects, found at a moment that no command names (spec 20 R524). `multi`: the code
cannot correct it. -/
inductive Strike where
  /-- a read other than scrub finds a syndrome at the unit of a local HBM address (14 R370) -/
  | unit (a : Nat) (syndrome : BitVec 30)
  /-- a stack's own code reports a correction (14 R366) -/
  | onDie (stack : BitVec 3)
  /-- an access to the unit of an address finds parity errors, `tries` times in a row (14 R366) -/
  | parity (a : Nat) (tries : Nat) (syndrome : BitVec 30)
  /-- a read finds an error in the granule of a cove-memory address (20 R529) -/
  | granule (a : Nat) (multi : Bool)
  /-- an error in a word of strand memory (08 R245) -/
  | strandWord (a : Nat) (multi : Bool)
  /-- an error in the data-cache line that holds a local address (05 R147) -/
  | dataLine (core : BitVec 4) (a : Nat) (multi : Bool)
  /-- a parity error in an instruction-cache line -/
  | codeLine (core : BitVec 4) (a : Nat)
  /-- a parity error in region rule `i` of a bank (04 R117) -/
  | rule (bank : Bool) (i : Byte)
  /-- an error in a gather engine's memory, in state that a promoted or non-speculative step uses: of its own operation, or of the
  part that it fetches of another cove's walk (10 R287, R300) -/
  | gather (cove : BitVec 5) (multi part : Bool)
  /-- a corrected error in the VCU's row and line memories (09 R276) -/
  | video
  /-- a parity error in a stationary weight of a DTA during a pass (12 R348, R350) -/
  | weight (cove : BitVec 5)
  /-- an error in a DTA's accumulation buffer (12 R350) -/
  | accumulator (cove : BitVec 5) (multi : Bool)
  /-- an error in a hot-row directory entry (11 R326) -/
  | directory (entry : Nat) (multi : Bool)
  /-- an error in the candidate pairs (11 R326) -/
  | pairs (multi : Bool)
  /-- an error in a port's replay buffer (15 R423) -/
  | replay (port : BitVec 4) (multi : Bool)
  /-- an error in a routing entry -/
  | route (dest : BitVec 10) (multi : Bool)
  /-- an error in the collective state of an object -/
  | collective (object : BitVec 6) (multi : Bool)
  /-- an error in a sync counter (16 R444) -/
  | counter (n : Byte) (multi : Bool)
  /-- a codeword received with `n` symbols corrected, of at most 15 (15 R391) -/
  | fec (port n : BitVec 4)
  /-- bit errors received on a port's spare lane (15 R390) -/
  | spareBits (port : BitVec 4) (n : Byte)
  /-- an uncorrectable error in a log slot (20 R545) -/
  | logSlot (i : Byte)
  /-- the errors block fails to write a record (20 R545) -/
  | recordWrite
  deriving DecidableEq, Repr

/-- What strikes at idle tick number `n`, if anything (log entry 40). -/
opaque Config.strike (n : Nat) : Option Strike

end Sys2Proof
end

