-- ==== Sys2Proof/Machine/Cap.lean ====
section
/-! DEFINITION. Capabilities as values (spec 03 R55 to R63, R69 to R72): fields, bounds, the representable window,
derivation, sealing, and the capability checks of an access. Nothing here reads the machine's state. -/

namespace Sys2Proof.Machine

/-- The null capability (R60). -/
def capNull : Cap := ⟨false, 0⟩
/-- An integer in a G register: bits [127:64] zero, tag clear (05 R119). -/
def capOfInt (x : W64) : Cap := ⟨false, x.setWidth 128⟩

/-- R55 CURSOR. -/
def capCursor (c : Cap) : W64 := fld c.bits 0 64
/-- R55 E. -/
def capE (c : Cap) : BitVec 6 := fld c.bits 64 6
/-- R55 B. -/
def capB (c : Cap) : BitVec 17 := fld c.bits 70 17
/-- R55 T. -/
def capT (c : Cap) : BitVec 17 := fld c.bits 87 17
/-- R55 RIGHTS, in the order of R56: LD ST EX LDC STC ATOM DMA SEAL UNSEAL SYS GLOB VID. -/
def capRights (c : Cap) : BitVec 12 := fld c.bits 104 12
/-- R55 OTYPE. -/
def capOtype (c : Cap) : Byte := fld c.bits 116 8
/-- R55 RING. -/
def capRing (c : Cap) : BitVec 2 := fld c.bits 124 2

/-- R56: bit numbers of the rights within RIGHTS, as masks. -/
def rLD : BitVec 12 := 0x001
def rST : BitVec 12 := 0x002
def rEX : BitVec 12 := 0x004
def rLDC : BitVec 12 := 0x008
def rSTC : BitVec 12 := 0x010
def rATOM : BitVec 12 := 0x020
def rDMA : BitVec 12 := 0x040
def rSEAL : BitVec 12 := 0x080
def rUNSEAL : BitVec 12 := 0x100
def rSYS : BitVec 12 := 0x200
def rGLOB : BitVec 12 := 0x400
def rVID : BitVec 12 := 0x800

/-- The capability holds every right of the mask. -/
def capHas (c : Cap) (m : BitVec 12) : Bool := capRights c &&& m == m

/-- R59: base and top as decoded from the cursor. -/
def capBounds (c : Cap) : Int × Int :=
  let e := (capE c).toNat
  let q := (capCursor c).toNat >>> e
  let off0 : Nat := (q % 2 ^ 17 + 2 ^ 17 - (capB c).toNat) % 2 ^ 17
  let off : Int :=
    if off0 ≥ 0x18000 then (off0 : Int) - 0x20000 else (off0 : Int)
  let len : Nat := ((capT c).toNat + 2 ^ 17 - (capB c).toNat) % 2 ^ 17
  let base : Int := ((q : Int) - off) * ((2 ^ e : Nat) : Int)
  (base, base + ((len * 2 ^ e : Nat) : Int))

/-- R57: OTYPE values that are reserved. -/
def otypeReserved (o : Byte) : Bool :=
  (224 ≤ o.toNat && o.toNat ≤ 239) || decide (245 ≤ o.toNat)

/-- R60: the conditions without which Vesol never sets or keeps a tag. -/
def capOk (c : Cap) : Bool :=
  let b := capBounds c
  decide ((capE c).toNat ≤ 48) &&
  decide (((capT c).toNat + 2 ^ 17 - (capB c).toNat) % 2 ^ 17 ≤ 0x10000) &&
  decide (0 ≤ b.1) && decide (b.1 ≤ b.2) && decide (b.2 ≤ 2 ^ 64) &&
  fld c.bits 126 2 == 0 && !otypeReserved (capOtype c)

/-- R61: a cursor lies inside the representable window. -/
def capInWindow (c : Cap) (cur : Nat) : Bool :=
  let lo := (capBounds c).1 - ((2 ^ ((capE c).toNat + 15) : Nat) : Int)
  decide (lo ≤ cur) && decide ((cur : Int) < lo + ((2 ^ ((capE c).toNat + 17) : Nat) : Int)) && decide (cur < 2 ^ 64)

/-- The capability is sealed (R57). -/
def capSealed (c : Cap) : Bool := capOtype c != 0

/-- A new cursor: the tag is kept unless the source is sealed or the cursor leaves the window (R61, R69). -/
def capSetCursor (c : Cap) (cur : W64) : Cap :=
  ⟨c.tag && !capSealed c && capInWindow c cur.toNat, setFld c.bits 0 cur⟩

/-- A new cursor for EXC, whose OTYPE is never tested here (05 R120): the tag is kept under R61. -/
def capMoveCursor (c : Cap) (cur : W64) : Cap :=
  ⟨c.tag && capInWindow c cur.toNat, setFld c.bits 0 cur⟩

/-- CINCCUR (05 R123): a sum that leaves 0 to 2^64 - 1 clears the tag. -/
def capIncCursor (c : Cap) (d : Int) : Cap :=
  let sum : Int := (capCursor c).toNat + d
  let r := capSetCursor c (BitVec.ofInt 64 sum)
  ⟨r.tag && decide (0 ≤ sum) && decide (sum < 2 ^ 64), r.bits⟩

/-- The smallest exponent from `e` on that holds the span in 2^16 units (R62). -/
def boundsExp (base top : Nat) : Nat → Nat → Nat
  | 0, e => e
  | n + 1, e => if cdiv top (2 ^ e) - base / 2 ^ e ≤ 2 ^ 16 then e else boundsExp base top n (e + 1)

/-- R62: E, base and top as rounded for the requested span. -/
def roundBounds (base top : Nat) : Nat × Nat × Nat :=
  let e := boundsExp base top 63 0
  (e, base / 2 ^ e * 2 ^ e, cdiv top (2 ^ e) * 2 ^ e)

/-- CSETB, and with `exact` CSETBX (R62, R69, 05 R123): bounds [CURSOR, CURSOR + len). -/
def capSetBounds (c : Cap) (len : Nat) (exact : Bool) : Cap :=
  let base := (capCursor c).toNat
  let top := base + len
  let (e, rb, rt) := roundBounds base top
  let bits := setFld (setFld (setFld c.bits 64 (BitVec.ofNat 6 e)) 70 (BitVec.ofNat 17 (rb / 2 ^ e)))
    87 (BitVec.ofNat 17 (rt / 2 ^ e))
  let src := capBounds c
  let r : Cap := ⟨false, bits⟩
  ⟨c.tag && !capSealed c && decide (src.1 ≤ rb) && decide ((rt : Int) ≤ src.2) &&
    (!exact || (rb == base && rt == top)) && capOk r, bits⟩

/-- CANDR (R69): RIGHTS AND a mask. -/
def capAndRights (c : Cap) (m : BitVec 12) : Cap :=
  ⟨c.tag && !capSealed c, setFld c.bits 104 (capRights c &&& m)⟩

/-- CSETRING (R69): kept unless sealed or the new RING is below EXC.RING. -/
def capSetRing (c : Cap) (r excRing : BitVec 2) : Cap :=
  ⟨c.tag && !capSealed c && decide (excRing.toNat ≤ r.toNat), setFld c.bits 124 r⟩

/-- A capability with another OTYPE, its tag as given. -/
def capWithOtype (c : Cap) (o : Byte) (tag : Bool) : Cap := ⟨tag, setFld c.bits 116 o⟩

/-- CSEAL (R70). -/
def capSeal (cs ck : Cap) (excRing : BitVec 2) : Cap :=
  let o := (capCursor ck).toNat
  let b := capBounds ck
  capWithOtype cs (BitVec.ofNat 8 o)
    (cs.tag && !capSealed cs && ck.tag && !capSealed ck && capHas ck rSEAL &&
     decide (excRing.toNat ≤ (capRing ck).toNat) && decide (b.1 ≤ o) && decide ((o : Int) < b.2) &&
     ((1 ≤ o && o ≤ 223) || (240 ≤ o && o ≤ 243 && decide (excRing.toNat ≤ 1))))

/-- CUNSEAL (R71). -/
def capUnseal (cs ck : Cap) (excRing : BitVec 2) : Cap :=
  let o := (capOtype cs).toNat
  let b := capBounds ck
  let ok := cs.tag && ck.tag && !capSealed ck && capHas ck rUNSEAL &&
     decide (excRing.toNat ≤ (capRing ck).toNat) && (capCursor ck).toNat == o &&
     decide (b.1 ≤ o) && decide ((o : Int) < b.2) && 1 ≤ o && o ≤ 223
  let r := capWithOtype cs 0 ok
  if capHas cs rGLOB && capHas ck rGLOB then r
  else ⟨r.tag, setFld r.bits 104 (capRights r &&& ~~~rGLOB)⟩

/-- CQBASE (05 R123): the base modulo 2^64, tagged or not. -/
def capBase64 (c : Cap) : W64 := BitVec.ofInt 64 (capBounds c).1

/-- CQLEN (05 R123): top - base, saturating at 2^64 - 1. -/
def capLen64 (c : Cap) : W64 :=
  BitVec.ofNat 64 (min ((capBounds c).2 - (capBounds c).1).toNat (2 ^ 64 - 1))

/-- The capability checks of an access in the order of R63: the cause number (06 R158) of the first that fails. `mask`
holds the rights needed; `extraRights` is false when a further condition of step 4 fails (R69 GLOB, R68). -/
def capCheck (c : Cap) (ring : BitVec 2) (mask : BitVec 12) (extraRights : Bool) (addr size align : Nat) : Option Nat :=
  let b := capBounds c
  if !c.tag then some 3
  else if capSealed c then some 4
  else if (capRing c).toNat < ring.toNat then some 5
  else if !capHas c mask || !extraRights then some 6
  else if (addr : Int) < b.1 || b.2 < ((addr + size : Nat) : Int) then some 7
  else if addr % align != 0 then some 8
  else none

/-- A root capability over [0, 2^64) (R64). -/
def capRoot (rights : BitVec 12) : Cap :=
  ⟨true, setFld (setFld (setFld (0 : BitVec 128) 64 (48 : BitVec 6)) 87 (0x10000 : BitVec 17)) 104 rights⟩

/-- R64: the execute root. -/
def executeRoot : Cap := capRoot (rEX ||| rLD ||| rLDC ||| rSYS ||| rGLOB)
/-- R64: the memory root. -/
def memoryRoot : Cap :=
  capRoot (rLD ||| rST ||| rLDC ||| rSTC ||| rATOM ||| rDMA ||| rSYS ||| rGLOB ||| rVID)
/-- R64: the sealing root. -/
def sealingRoot : Cap :=
  ⟨true, setFld (setFld (0 : BitVec 128) 87 (0x100 : BitVec 17)) 104 (rSEAL ||| rUNSEAL ||| rGLOB)⟩

end Sys2Proof.Machine
end

