-- ==== Sys2Proof/Machine/RegMap.lean ====
section
/-! DEFINITION. The set-up register map (spec 07 R178 and the register sections of every chapter): the window offset
of each register, and one row per register with its width, its reset value and what a write does to its bits. -/

namespace Sys2Proof.Machine

/-- A register (or a run of `count` registers `stride` bytes apart) of the set-up windows. `rw`, `w1c` and `keep` are
masks of the bits that a write stores, that a write of 1 clears, and that only power-on reset returns to their reset
value (spec 00 R8); `ranges` lists the fields (low bit, width, least and greatest value) with reserved encodings
(R10). `vf` is 0 for the PF window alone, 1 for both windows, 2 for a VF window alone. -/
structure RegRow where
  off : Nat
  stride : Nat
  count : Nat
  bits : Nat
  reset : Nat
  rw : Nat
  w1c : Nat
  keep : Nat
  ranges : List (Nat × Nat × Nat × Nat)
  vf : Nat
  deriving DecidableEq, Repr

/-- Window offset of idPart. -/
def Reg.idPart : Nat := 0
/-- Window offset of idPlace. -/
def Reg.idPlace : Nat := 4
/-- Window offset of idResources. -/
def Reg.idResources : Nat := 8
/-- Window offset of idSerial. -/
def Reg.idSerial : Nat := 0x10
/-- Window offset of tbNow. -/
def Reg.tbNow : Nat := 0x100
/-- Window offset of tbStatus. -/
def Reg.tbStatus : Nat := 0x108
/-- Window offset of tbControl. -/
def Reg.tbControl : Nat := 0x10C
/-- Window offset of tbUtcOffset. -/
def Reg.tbUtcOffset : Nat := 0x110
/-- Window offset of tbRate. -/
def Reg.tbRate : Nat := 0x118
/-- Window offset of tbErr. -/
def Reg.tbErr : Nat := 0x11C
/-- Window offset of opPoint. -/
def Reg.opPoint : Nat := 0x120
/-- Window offset of sealEpoch. -/
def Reg.sealEpoch : Nat := 0x200
/-- Window offset of sealSeq. -/
def Reg.sealSeq : Nat := 0x204
/-- Window offset of sealRejects. -/
def Reg.sealRejects : Nat := 0x208
/-- Window offset of sealForce. -/
def Reg.sealForce : Nat := 0x20C
/-- Window offset of sealLastReject. -/
def Reg.sealLastReject : Nat := 0x210
/-- Window offset of fnStatus. -/
def Reg.fnStatus : Nat := 0x1000
/-- Window offset of dbSqAddr. -/
def Reg.dbSqAddr : Nat := 0x1008
/-- Window offset of dbCqAddr. -/
def Reg.dbCqAddr : Nat := 0x1010
/-- Window offset of poll. -/
def Reg.poll : Nat := 0x1018
/-- Window offset of wakeCount. -/
def Reg.wakeCount : Nat := 0x101C
/-- Window offset of sqBase number `i`. -/
def Reg.sqBase (i : Nat) : Nat := 0x1100 + 0x20 * i
/-- Window offset of sqCtrl number `i`. -/
def Reg.sqCtrl (i : Nat) : Nat := 0x1108 + 0x20 * i
/-- Window offset of sqHead number `i`. -/
def Reg.sqHead (i : Nat) : Nat := 0x110C + 0x20 * i
/-- Window offset of sqTimeout number `i`. -/
def Reg.sqTimeout (i : Nat) : Nat := 0x1110 + 0x20 * i
/-- Window offset of sqStatus number `i`. -/
def Reg.sqStatus (i : Nat) : Nat := 0x1114 + 0x20 * i
/-- Window offset of cqBase number `i`. -/
def Reg.cqBase (i : Nat) : Nat := 0x1300 + 0x20 * i
/-- Window offset of cqCtrl number `i`. -/
def Reg.cqCtrl (i : Nat) : Nat := 0x1308 + 0x20 * i
/-- Window offset of cqTail number `i`. -/
def Reg.cqTail (i : Nat) : Nat := 0x130C + 0x20 * i
/-- Window offset of cqInt number `i`. -/
def Reg.cqInt (i : Nat) : Nat := 0x1310 + 0x20 * i
/-- Window offset of cqStatus number `i`. -/
def Reg.cqStatus (i : Nat) : Nat := 0x1314 + 0x20 * i
/-- Window offset of tenInvalid. -/
def Reg.tenInvalid : Nat := 0x2000
/-- Window offset of tenAbsent. -/
def Reg.tenAbsent : Nat := 0x2008
/-- Window offset of tenSkewSel. -/
def Reg.tenSkewSel : Nat := 0x2010
/-- Window offset of tenSkewAt. -/
def Reg.tenSkewAt : Nat := 0x2018
/-- Window offset of tenSkewShard number `i`. -/
def Reg.tenSkewShard (i : Nat) : Nat := 0x2100 + 4 * i
/-- Window offset of terrCount. -/
def Reg.terrCount : Nat := 0x3000
/-- Window offset of terrAck. -/
def Reg.terrAck : Nat := 0x3004
/-- Window offset of terrOverrun. -/
def Reg.terrOverrun : Nat := 0x3008
/-- Window offset of terrLog number `i`. -/
def Reg.terrLog (i : Nat) : Nat := 0x3100 + 8 * i
/-- Window offset of msixAddrLo number `i`. -/
def Reg.msixAddrLo (i : Nat) : Nat := 0xF000 + 0x10 * i
/-- Window offset of msixAddrHi number `i`. -/
def Reg.msixAddrHi (i : Nat) : Nat := 0xF004 + 0x10 * i
/-- Window offset of msixData number `i`. -/
def Reg.msixData (i : Nat) : Nat := 0xF008 + 0x10 * i
/-- Window offset of msixCtrl number `i`. -/
def Reg.msixCtrl (i : Nat) : Nat := 0xF00C + 0x10 * i
/-- Window offset of msixPba. -/
def Reg.msixPba : Nat := 0xF800
/-- Window offset of acuStatus. -/
def Reg.acuStatus : Nat := 0x10000
/-- Window offset of acuControl. -/
def Reg.acuControl : Nat := 0x10004
/-- Window offset of acuSwitchAt. -/
def Reg.acuSwitchAt : Nat := 0x10008
/-- Window offset of acuLastSwitch. -/
def Reg.acuLastSwitch : Nat := 0x10010
/-- Window offset of acuDenyAddr. -/
def Reg.acuDenyAddr : Nat := 0x10018
/-- Window offset of acuDenyInfo. -/
def Reg.acuDenyInfo : Nat := 0x10020
/-- Window offset of acuDenyCount. -/
def Reg.acuDenyCount : Nat := 0x10024
/-- Window offset of acuErr. -/
def Reg.acuErr : Nat := 0x10028
/-- Window offset of ruleStart number `i`. -/
def Reg.ruleStart (i : Nat) : Nat := 0x11000 + 0x20 * i
/-- Window offset of ruleEnd number `i`. -/
def Reg.ruleEnd (i : Nat) : Nat := 0x11008 + 0x20 * i
/-- Window offset of ruleAttr number `i`. -/
def Reg.ruleAttr (i : Nat) : Nat := 0x11010 + 0x20 * i
/-- Window offset of hlStatus number `i`. -/
def Reg.hlStatus (i : Nat) : Nat := 0x20000 + 4 * i
/-- Window offset of hlErr. -/
def Reg.hlErr : Nat := 0x20040
/-- Window offset of hlCorrected. -/
def Reg.hlCorrected : Nat := 0x20044
/-- Window offset of trapTimer number `i`. -/
def Reg.trapTimer (i : Nat) : Nat := 0x21000 + 8 * i
/-- Window offset of trapWdog number `i`. -/
def Reg.trapWdog (i : Nat) : Nat := 0x21080 + 8 * i
/-- Window offset of intPend number `i`. -/
def Reg.intPend (i : Nat) : Nat := 0x21100 + 4 * i
/-- Window offset of intEn number `i`. -/
def Reg.intEn (i : Nat) : Nat := 0x21140 + 4 * i
/-- Window offset of intSend. -/
def Reg.intSend : Nat := 0x21180
/-- Window offset of trapStopped. -/
def Reg.trapStopped : Nat := 0x21184
/-- Window offset of hpLink. -/
def Reg.hpLink : Nat := 0x30000
/-- Window offset of hpErr. -/
def Reg.hpErr : Nat := 0x30004
/-- Window offset of tenState number `i`. -/
def Reg.tenState (i : Nat) : Nat := 0x30100 + 0x10 * i
/-- Window offset of tenCoves number `i`. -/
def Reg.tenCoves (i : Nat) : Nat := 0x30104 + 0x10 * i
/-- Window offset of tenVctx number `i`. -/
def Reg.tenVctx (i : Nat) : Nat := 0x30108 + 0x10 * i
/-- Window offset of tenQuota number `i`. -/
def Reg.tenQuota (i : Nat) : Nat := 0x3010C + 0x10 * i
/-- Window offset of csStatus. -/
def Reg.csStatus : Nat := 0x31000
/-- Window offset of csLastAt. -/
def Reg.csLastAt : Nat := 0x31008
/-- Window offset of strStatus number `i`. -/
def Reg.strStatus (i : Nat) : Nat := 0x40000 + 4 * i
/-- Window offset of strAttn. -/
def Reg.strAttn : Nat := 0x40100
/-- Window offset of strGroupCtrl number `i`. -/
def Reg.strGroupCtrl (i : Nat) : Nat := 0x40110 + 4 * i
/-- Window offset of strMacs number `i`. -/
def Reg.strMacs (i : Nat) : Nat := 0x40120 + 8 * i
/-- Window offset of strCorrected. -/
def Reg.strCorrected : Nat := 0x40140
/-- Window offset of strErr. -/
def Reg.strErr : Nat := 0x40144
/-- Window offset of vcuStatus. -/
def Reg.vcuStatus : Nat := 0x50000
/-- Window offset of vcuCtrl. -/
def Reg.vcuCtrl : Nat := 0x50004
/-- Window offset of vcuSched. -/
def Reg.vcuSched : Nat := 0x50008
/-- Window offset of vcuErr. -/
def Reg.vcuErr : Nat := 0x5000C
/-- Window offset of vcuCorrected. -/
def Reg.vcuCorrected : Nat := 0x50010
/-- Window offset of vcuEncSamples. -/
def Reg.vcuEncSamples : Nat := 0x50018
/-- Window offset of vcuDecSamples. -/
def Reg.vcuDecSamples : Nat := 0x50020
/-- Window offset of vctxStatus number `i`. -/
def Reg.vctxStatus (i : Nat) : Nat := 0x50100 + 8 * i
/-- Window offset of geStatus number `i`. -/
def Reg.geStatus (i : Nat) : Nat := 0x60000 + 4 * i
/-- Window offset of geCtrl number `i`. -/
def Reg.geCtrl (i : Nat) : Nat := 0x60080 + 4 * i
/-- Window offset of geHub. -/
def Reg.geHub : Nat := 0x60100
/-- Window offset of geErr. -/
def Reg.geErr : Nat := 0x60104
/-- Window offset of geCorrected. -/
def Reg.geCorrected : Nat := 0x60108
/-- Window offset of geReads number `i`. -/
def Reg.geReads (i : Nat) : Nat := 0x60200 + 8 * i
/-- Window offset of geSeed number `i`. -/
def Reg.geSeed (i : Nat) : Nat := 0x60400 + 8 * i
/-- Window offset of embStatus. -/
def Reg.embStatus : Nat := 0x70000
/-- Window offset of embCtrl. -/
def Reg.embCtrl : Nat := 0x70004
/-- Window offset of embPolicy. -/
def Reg.embPolicy : Nat := 0x70008
/-- Window offset of embErr. -/
def Reg.embErr : Nat := 0x7000C
/-- Window offset of embCorrected. -/
def Reg.embCorrected : Nat := 0x70010
/-- Window offset of embMigrations. -/
def Reg.embMigrations : Nat := 0x70018
/-- Window offset of embSkewSel. -/
def Reg.embSkewSel : Nat := 0x70020
/-- Window offset of embDeferred. -/
def Reg.embDeferred : Nat := 0x70024
/-- Window offset of embSkewAt. -/
def Reg.embSkewAt : Nat := 0x70028
/-- Window offset of embSkewShard number `i`. -/
def Reg.embSkewShard (i : Nat) : Nat := 0x70100 + 4 * i
/-- Window offset of tblState number `i`. -/
def Reg.tblState (i : Nat) : Nat := 0x71000 + 0x40 * i
/-- Window offset of tblRec0 number `i`. -/
def Reg.tblRec0 (i : Nat) : Nat := 0x71004 + 0x40 * i
/-- Window offset of tblRec1 number `i`. -/
def Reg.tblRec1 (i : Nat) : Nat := 0x71008 + 0x40 * i
/-- Window offset of tblDir number `i`. -/
def Reg.tblDir (i : Nat) : Nat := 0x7100C + 0x40 * i
/-- Window offset of tblInvalid number `i`. -/
def Reg.tblInvalid (i : Nat) : Nat := 0x71010 + 0x40 * i
/-- Window offset of tblAbsent number `i`. -/
def Reg.tblAbsent (i : Nat) : Nat := 0x71018 + 0x40 * i
/-- Window offset of tblReplicaReads number `i`. -/
def Reg.tblReplicaReads (i : Nat) : Nat := 0x71020 + 0x40 * i
/-- Window offset of dtaStatus number `i`. -/
def Reg.dtaStatus (i : Nat) : Nat := 0x80000 + 4 * i
/-- Window offset of dtaCtrl number `i`. -/
def Reg.dtaCtrl (i : Nat) : Nat := 0x80080 + 4 * i
/-- Window offset of dtaErr. -/
def Reg.dtaErr : Nat := 0x80100
/-- Window offset of dtaCorrected. -/
def Reg.dtaCorrected : Nat := 0x80104
/-- Window offset of dtaProducts number `i`. -/
def Reg.dtaProducts (i : Nat) : Nat := 0x80200 + 8 * i
/-- Window offset of hbmStatus. -/
def Reg.hbmStatus : Nat := 0x90000
/-- Window offset of hbmConfig. -/
def Reg.hbmConfig : Nat := 0x90004
/-- Window offset of hbmTherm. -/
def Reg.hbmTherm : Nat := 0x90008
/-- Window offset of hbmScrub. -/
def Reg.hbmScrub : Nat := 0x9000C
/-- Window offset of hbmErr. -/
def Reg.hbmErr : Nat := 0x90010
/-- Window offset of hbmZero. -/
def Reg.hbmZero : Nat := 0x90014
/-- Window offset of hbmTemp number `i`. -/
def Reg.hbmTemp (i : Nat) : Nat := 0x90100 + 0x40 * i
/-- Window offset of hbmTempAt number `i`. -/
def Reg.hbmTempAt (i : Nat) : Nat := 0x90108 + 0x40 * i
/-- Window offset of hbmCorr number `i`. -/
def Reg.hbmCorr (i : Nat) : Nat := 0x90110 + 0x40 * i
/-- Window offset of hbmUncorr number `i`. -/
def Reg.hbmUncorr (i : Nat) : Nat := 0x90114 + 0x40 * i
/-- Window offset of hbmAdds number `i`. -/
def Reg.hbmAdds (i : Nat) : Nat := 0x90118 + 0x40 * i
/-- Window offset of hbmLastUe number `i`. -/
def Reg.hbmLastUe (i : Nat) : Nat := 0x90120 + 0x40 * i
/-- Window offset of fabStatus. -/
def Reg.fabStatus : Nat := 0xA0000
/-- Window offset of fabCoord. -/
def Reg.fabCoord : Nat := 0xA0004
/-- Window offset of fabCfg. -/
def Reg.fabCfg : Nat := 0xA0008
/-- Window offset of fabErr. -/
def Reg.fabErr : Nat := 0xA000C
/-- Window offset of fabCorrected. -/
def Reg.fabCorrected : Nat := 0xA0010
/-- Window offset of fabLost. -/
def Reg.fabLost : Nat := 0xA0018
/-- Window offset of fabColls. -/
def Reg.fabColls : Nat := 0xA0020
/-- Window offset of portStatus number `i`. -/
def Reg.portStatus (i : Nat) : Nat := 0xA0100 + 0x40 * i
/-- Window offset of portCtrl number `i`. -/
def Reg.portCtrl (i : Nat) : Nat := 0xA0104 + 0x40 * i
/-- Window offset of portFarSerial number `i`. -/
def Reg.portFarSerial (i : Nat) : Nat := 0xA0108 + 0x40 * i
/-- Window offset of portFarPlace number `i`. -/
def Reg.portFarPlace (i : Nat) : Nat := 0xA0110 + 0x40 * i
/-- Window offset of portReplays number `i`. -/
def Reg.portReplays (i : Nat) : Nat := 0xA0114 + 0x40 * i
/-- Window offset of portFecCorr number `i`. -/
def Reg.portFecCorr (i : Nat) : Nat := 0xA0118 + 0x40 * i
/-- Window offset of portFecUncorr number `i`. -/
def Reg.portFecUncorr (i : Nat) : Nat := 0xA0120 + 0x40 * i
/-- Window offset of portRetrains number `i`. -/
def Reg.portRetrains (i : Nat) : Nat := 0xA0124 + 0x40 * i
/-- Window offset of lanePrbs number `i`. -/
def Reg.lanePrbs (i : Nat) : Nat := 0xA0400 + 8 * i
/-- Window offset of laneInfo number `i`. -/
def Reg.laneInfo (i : Nat) : Nat := 0xA0404 + 8 * i
/-- Window offset of route number `i`. -/
def Reg.route (i : Nat) : Nat := 0xA1000 + 4 * i
/-- Window offset of fabBar number `i`. -/
def Reg.fabBar (i : Nat) : Nat := 0xA2000 + 4 * i
/-- Window offset of pwrStatus. -/
def Reg.pwrStatus : Nat := 0xB0000
/-- Window offset of pwrPolicy. -/
def Reg.pwrPolicy : Nat := 0xB0004
/-- Window offset of pwrLimit. -/
def Reg.pwrLimit : Nat := 0xB0008
/-- Window offset of rampUp. -/
def Reg.rampUp : Nat := 0xB000C
/-- Window offset of rampDown. -/
def Reg.rampDown : Nat := 0xB0010
/-- Window offset of fill. -/
def Reg.fill : Nat := 0xB0014
/-- Window offset of pwrLock. -/
def Reg.pwrLock : Nat := 0xB0018
/-- Window offset of tjTherm. -/
def Reg.tjTherm : Nat := 0xB001C
/-- Window offset of pwrNow. -/
def Reg.pwrNow : Nat := 0xB0020
/-- Window offset of pwrErr. -/
def Reg.pwrErr : Nat := 0xB0024
/-- Window offset of rampViolCount. -/
def Reg.rampViolCount : Nat := 0xB0028
/-- Window offset of dipCount. -/
def Reg.dipCount : Nat := 0xB002C
/-- Window offset of wearRate. -/
def Reg.wearRate : Nat := 0xB0040
/-- Window offset of wearVneed. -/
def Reg.wearVneed : Nat := 0xB0044
/-- Window offset of wearMargin. -/
def Reg.wearMargin : Nat := 0xB0048
/-- Window offset of wearHours. -/
def Reg.wearHours : Nat := 0xB004C
/-- Window offset of wearEolHours. -/
def Reg.wearEolHours : Nat := 0xB0050
/-- Window offset of wearEolDay. -/
def Reg.wearEolDay : Nat := 0xB0054
/-- Window offset of wearCell. -/
def Reg.wearCell : Nat := 0xB0058
/-- Window offset of wearAt. -/
def Reg.wearAt : Nat := 0xB0060
/-- Window offset of dipLog number `i`. -/
def Reg.dipLog (i : Nat) : Nat := 0xB0100 + 8 * i
/-- Window offset of scValue number `i`. -/
def Reg.scValue (i : Nat) : Nat := 0xC0000 + 4 * i
/-- Window offset of scSat number `i`. -/
def Reg.scSat (i : Nat) : Nat := 0xC0400 + 4 * i
/-- Window offset of scWait number `i`. -/
def Reg.scWait (i : Nat) : Nat := 0xC0420 + 4 * i
/-- Window offset of scPoison number `i`. -/
def Reg.scPoison (i : Nat) : Nat := 0xC0440 + 4 * i
/-- Window offset of scErr. -/
def Reg.scErr : Nat := 0xC0460
/-- Window offset of scCorrected. -/
def Reg.scCorrected : Nat := 0xC0464
/-- Window offset of scOps. -/
def Reg.scOps : Nat := 0xC0468
/-- Window offset of suStatus. -/
def Reg.suStatus : Nat := 0xD0000
/-- Window offset of suCtrl. -/
def Reg.suCtrl : Nat := 0xD0004
/-- Window offset of suResetAt. -/
def Reg.suResetAt : Nat := 0xD0008
/-- Window offset of suBootDeadline. -/
def Reg.suBootDeadline : Nat := 0xD0010
/-- Window offset of fwVersionA. -/
def Reg.fwVersionA : Nat := 0xD0018
/-- Window offset of fwVersionB. -/
def Reg.fwVersionB : Nat := 0xD0020
/-- Window offset of fwSvn. -/
def Reg.fwSvn : Nat := 0xD0028
/-- Window offset of fwSchema. -/
def Reg.fwSchema : Nat := 0xD002C
/-- Window offset of fwReq. -/
def Reg.fwReq : Nat := 0xD0030
/-- Window offset of fwReqStatus. -/
def Reg.fwReqStatus : Nat := 0xD0034
/-- Window offset of fwReqLen. -/
def Reg.fwReqLen : Nat := 0xD0038
/-- Window offset of fwStageToken number `i`. -/
def Reg.fwStageToken (i : Nat) : Nat := 0xD0040 + 8 * i
/-- Window offset of errSeq. -/
def Reg.errSeq : Nat := 0xE0000
/-- Window offset of errAck. -/
def Reg.errAck : Nat := 0xE0004
/-- Window offset of errStatus. -/
def Reg.errStatus : Nat := 0xE0008
/-- Window offset of errCfg. -/
def Reg.errCfg : Nat := 0xE000C
/-- Window offset of errCtrl. -/
def Reg.errCtrl : Nat := 0xE0010
/-- Window offset of errOverrun. -/
def Reg.errOverrun : Nat := 0xE0014
/-- Window offset of errClass number `i`. -/
def Reg.errClass (i : Nat) : Nat := 0xE0020 + 4 * i
/-- Window offset of coveCorrected. -/
def Reg.coveCorrected : Nat := 0xE0040
/-- Window offset of coveErr. -/
def Reg.coveErr : Nat := 0xE0044
/-- Window offset of errImport. -/
def Reg.errImport : Nat := 0xE0048
/-- Window offset of errLog number `i`. -/
def Reg.errLog (i : Nat) : Nat := 0xE8000 + 8 * i

/-- Register rows, part 0. -/
def regRows0 : List RegRow :=
  [ ⟨0, 4, 1, 32, 0x1B04410, 0, 0, 0, [], 1⟩ /- idPart -/
  , ⟨4, 4, 1, 32, 0, 0, 0, 0, [], 1⟩ /- idPlace -/
  , ⟨8, 4, 1, 32, 0, 0, 0, 0, [], 1⟩ /- idResources -/
  , ⟨0x10, 8, 1, 64, 0, 0, 0, 0, [], 1⟩ /- idSerial -/
  , ⟨0x100, 8, 1, 64, 0, 0, 0, 0, [], 1⟩ /- tbNow -/
  , ⟨0x108, 4, 1, 32, 0, 0, 0, 0, [], 1⟩ /- tbStatus -/
  , ⟨0x10C, 4, 1, 32, 2, 3, 0, 0, [], 1⟩ /- tbControl -/
  , ⟨0x110, 8, 1, 64, 0, 0xFFFFFFFFFFFFFFFF, 0, 0xFFFFFFFFFFFFFFFF, [], 1⟩ /- tbUtcOffset -/
  , ⟨0x118, 4, 1, 32, 0, 0, 0, 0, [], 1⟩ /- tbRate -/
  , ⟨0x11C, 4, 1, 32, 0, 0, 0xF, 0, [], 1⟩ /- tbErr -/
  , ⟨0x120, 4, 1, 32, 0, 0, 0, 0, [], 1⟩ /- opPoint -/
  , ⟨0x200, 4, 1, 32, 1, 0, 0, 0, [], 1⟩ /- sealEpoch -/
  , ⟨0x204, 4, 1, 32, 0, 0, 0, 0, [], 1⟩ /- sealSeq -/
  , ⟨0x208, 4, 1, 32, 0, 0xFFFFFFFF, 0, 0, [], 1⟩ /- sealRejects -/
  , ⟨0x20C, 4, 1, 32, 0, 0, 0, 0, [], 1⟩ /- sealForce -/
  , ⟨0x210, 8, 1, 64, 0, 0, 0, 0, [], 1⟩ /- sealLastReject -/
  , ⟨0x1000, 4, 1, 32, 0, 0, 0, 0, [], 1⟩ /- fnStatus -/
  , ⟨0x1008, 8, 1, 64, 0, 0xFFFFFFFFFFFFFFC0, 0, 0, [], 1⟩ /- dbSqAddr -/
  , ⟨0x1010, 8, 1, 64, 0, 0xFFFFFFFFFFFFFFC0, 0, 0, [], 1⟩ /- dbCqAddr -/
  , ⟨0x1018, 4, 1, 32, 0x4001, 0x7F7F, 0, 0, [(0, 7, 1, 64), (8, 7, 1, 64)], 1⟩ /- poll -/ ]

/-- Register rows, part 1. -/
def regRows1 : List RegRow :=
  [ ⟨0x101C, 4, 1, 32, 0, 0xFFFFFFFF, 0, 0, [], 1⟩ /- wakeCount -/
  , ⟨0x1100, 0x20, 0x10, 64, 0, 0xFFFFFFFFFFFFF000, 0, 0, [], 1⟩ /- sqBase -/
  , ⟨0x1108, 0x20, 0x10, 32, 0x20006, 0x10F1F, 0, 0, [(0, 5, 6, 16)], 1⟩ /- sqCtrl -/
  , ⟨0x110C, 0x20, 0x10, 32, 0, 0xFFFFFFFF, 0, 0, [], 1⟩ /- sqHead -/
  , ⟨0x1110, 0x20, 0x10, 32, 0xF4240, 0xFFFFFFFF, 0, 0, [], 1⟩ /- sqTimeout -/
  , ⟨0x1114, 0x20, 0x10, 32, 0, 0, 0xF, 0, [], 1⟩ /- sqStatus -/
  , ⟨0x1300, 0x20, 0x10, 64, 0, 0xFFFFFFFFFFFFF000, 0, 0, [], 1⟩ /- cqBase -/
  , ⟨0x1308, 0x20, 0x10, 32, 6, 0x3001F, 0, 0, [(0, 5, 6, 16)], 1⟩ /- cqCtrl -/
  , ⟨0x130C, 0x20, 0x10, 32, 0, 0xFFFFFFFF, 0, 0, [], 1⟩ /- cqTail -/
  , ⟨0x1310, 0x20, 0x10, 32, 1, 0xFFFFFFFF, 0, 0, [(0, 16, 1, 65535)], 1⟩ /- cqInt -/
  , ⟨0x1314, 0x20, 0x10, 32, 0, 0, 0xF, 0, [], 1⟩ /- cqStatus -/
  , ⟨0x2000, 8, 1, 64, 0, 0xFFFFFFFFFFFFFFFF, 0, 0, [], 2⟩ /- tenInvalid -/
  , ⟨0x2008, 8, 1, 64, 0, 0xFFFFFFFFFFFFFFFF, 0, 0, [], 2⟩ /- tenAbsent -/
  , ⟨0x2010, 4, 1, 32, 0, 0xFF, 0, 0, [], 2⟩ /- tenSkewSel -/
  , ⟨0x2018, 8, 1, 64, 0, 0, 0, 0, [], 2⟩ /- tenSkewAt -/
  , ⟨0x2100, 4, 0x20, 32, 0, 0, 0, 0, [], 2⟩ /- tenSkewShard -/
  , ⟨0x3000, 4, 1, 32, 0, 0, 0, 0, [], 2⟩ /- terrCount -/
  , ⟨0x3004, 4, 1, 32, 0, 0xFFFFFFFF, 0, 0, [], 2⟩ /- terrAck -/
  , ⟨0x3008, 4, 1, 32, 0, 0xFFFFFFFF, 0, 0, [], 2⟩ /- terrOverrun -/
  , ⟨0x3100, 8, 0x100, 64, 0, 0, 0, 0, [], 2⟩ /- terrLog -/ ]

/-- Register rows, part 2. -/
def regRows2 : List RegRow :=
  [ ⟨0xF000, 0x10, 0x11, 32, 0, 0xFFFFFFFC, 0, 0, [], 1⟩ /- msixAddrLo -/
  , ⟨0xF004, 0x10, 0x11, 32, 0, 0xFFFFFFFF, 0, 0, [], 1⟩ /- msixAddrHi -/
  , ⟨0xF008, 0x10, 0x11, 32, 0, 0xFFFFFFFF, 0, 0, [], 1⟩ /- msixData -/
  , ⟨0xF00C, 0x10, 0x11, 32, 1, 1, 0, 0, [], 1⟩ /- msixCtrl -/
  , ⟨0xF800, 8, 1, 64, 0, 0, 0, 0, [], 1⟩ /- msixPba -/
  , ⟨0x10000, 4, 1, 32, 0, 0, 0, 0, [], 0⟩ /- acuStatus -/
  , ⟨0x10004, 4, 1, 32, 0, 0, 0, 0, [], 0⟩ /- acuControl -/
  , ⟨0x10008, 8, 1, 64, 0, 0xFFFFFFFFFFFFFFFF, 0, 0, [], 0⟩ /- acuSwitchAt -/
  , ⟨0x10010, 8, 1, 64, 0, 0, 0, 0, [], 0⟩ /- acuLastSwitch -/
  , ⟨0x10018, 8, 1, 64, 0, 0, 0, 0, [], 0⟩ /- acuDenyAddr -/
  , ⟨0x10020, 4, 1, 32, 0, 0, 0, 0, [], 0⟩ /- acuDenyInfo -/
  , ⟨0x10024, 4, 1, 32, 0, 0xFFFFFFFF, 0, 0, [], 0⟩ /- acuDenyCount -/
  , ⟨0x10028, 4, 1, 32, 0, 0, 7, 0, [], 0⟩ /- acuErr -/
  , ⟨0x11000, 0x20, 0x100, 64, 0, 0x3FFFFFFFFFFFC0, 0, 0, [], 0⟩ /- ruleStart -/
  , ⟨0x11008, 0x20, 0x100, 64, 0, 0x3FFFFFFFFFFFC0, 0, 0, [], 0⟩ /- ruleEnd -/
  , ⟨0x11010, 0x20, 0x100, 32, 0, 0xF1FFF03, 0, 0, [(8, 8, 0, 128), (26, 2, 0, 2)], 0⟩ /- ruleAttr -/
  , ⟨0x20000, 4, 0x10, 32, 0, 0, 0, 0, [], 0⟩ /- hlStatus -/
  , ⟨0x20040, 4, 1, 32, 0, 0, 0xFFFF, 0, [], 0⟩ /- hlErr -/
  , ⟨0x20044, 4, 1, 32, 0, 0xFFFFFFFF, 0, 0, [], 0⟩ /- hlCorrected -/
  , ⟨0x21000, 8, 0x10, 64, 0, 0xFFFFFFFFFFFFFFFF, 0, 0, [], 0⟩ /- trapTimer -/ ]

/-- Register rows, part 3. -/
def regRows3 : List RegRow :=
  [ ⟨0x21080, 8, 0x10, 64, 0, 0xFFFFFFFFFFFFFFFF, 0, 0, [], 0⟩ /- trapWdog -/
  , ⟨0x21100, 4, 0x10, 32, 0, 0, 0xF, 0, [], 0⟩ /- intPend -/
  , ⟨0x21140, 4, 0x10, 32, 0, 0xF, 0, 0, [], 0⟩ /- intEn -/
  , ⟨0x21180, 4, 1, 32, 0, 0, 0, 0, [], 0⟩ /- intSend -/
  , ⟨0x21184, 4, 1, 32, 0, 0, 0xFFFF, 0, [], 0⟩ /- trapStopped -/
  , ⟨0x30000, 4, 1, 32, 0, 0, 0, 0, [], 0⟩ /- hpLink -/
  , ⟨0x30004, 4, 1, 32, 0, 0, 0xF, 0, [], 0⟩ /- hpErr -/
  , ⟨0x30100, 0x10, 0x81, 32, 0, 1, 0, 0, [], 0⟩ /- tenState -/
  , ⟨0x30104, 0x10, 0x81, 32, 0, 0, 0, 0, [], 0⟩ /- tenCoves -/
  , ⟨0x30108, 0x10, 0x81, 32, 0, 0, 0, 0, [], 0⟩ /- tenVctx -/
  , ⟨0x3010C, 0x10, 0x81, 32, 0, 0, 0, 0, [], 0⟩ /- tenQuota -/
  , ⟨0x31000, 4, 1, 32, 0, 0, 0, 0, [], 0⟩ /- csStatus -/
  , ⟨0x31008, 8, 1, 64, 0, 0, 0, 0, [], 0⟩ /- csLastAt -/
  , ⟨0x40000, 4, 0x40, 32, 0, 0, 0, 0, [], 0⟩ /- strStatus -/
  , ⟨0x40100, 4, 1, 32, 0, 0, 0, 0, [], 0⟩ /- strAttn -/
  , ⟨0x40110, 4, 4, 32, 0, 1, 0, 0, [], 0⟩ /- strGroupCtrl -/
  , ⟨0x40120, 8, 4, 64, 0, 0, 0, 0, [], 0⟩ /- strMacs -/
  , ⟨0x40140, 4, 1, 32, 0, 0xFFFFFFFF, 0, 0, [], 0⟩ /- strCorrected -/
  , ⟨0x40144, 4, 1, 32, 0, 0, 1, 0, [], 0⟩ /- strErr -/
  , ⟨0x50000, 4, 1, 32, 0, 0, 0, 0, [], 0⟩ /- vcuStatus -/ ]

/-- Register rows, part 4. -/
def regRows4 : List RegRow :=
  [ ⟨0x50004, 4, 1, 32, 0, 1, 0, 0, [], 0⟩ /- vcuCtrl -/
  , ⟨0x50008, 4, 1, 32, 0, 7, 0, 0, [], 0⟩ /- vcuSched -/
  , ⟨0x5000C, 4, 1, 32, 0, 0, 3, 0, [], 0⟩ /- vcuErr -/
  , ⟨0x50010, 4, 1, 32, 0, 0xFFFFFFFF, 0, 0, [], 0⟩ /- vcuCorrected -/
  , ⟨0x50018, 8, 1, 64, 0, 0, 0, 0, [], 0⟩ /- vcuEncSamples -/
  , ⟨0x50020, 8, 1, 64, 0, 0, 0, 0, [], 0⟩ /- vcuDecSamples -/
  , ⟨0x50100, 8, 0x20, 64, 0, 0, 0, 0, [], 0⟩ /- vctxStatus -/
  , ⟨0x60000, 4, 0x20, 32, 0, 0, 0, 0, [], 0⟩ /- geStatus -/
  , ⟨0x60080, 4, 0x20, 32, 0, 1, 0, 0, [], 0⟩ /- geCtrl -/
  , ⟨0x60100, 4, 1, 32, 0x1000, 0x1FFFFF, 0, 0, [(0, 21, 1024, 1048576)], 0⟩ /- geHub -/
  , ⟨0x60104, 4, 1, 32, 0, 0, 1, 0, [], 0⟩ /- geErr -/
  , ⟨0x60108, 4, 1, 32, 0, 0xFFFFFFFF, 0, 0, [], 0⟩ /- geCorrected -/
  , ⟨0x60200, 8, 0x20, 64, 0, 0, 0, 0, [], 0⟩ /- geReads -/
  , ⟨0x60400, 8, 0x81, 64, 0, 0xFFFFFFFFFFFFFFFF, 0, 0, [], 0⟩ /- geSeed -/
  , ⟨0x70000, 4, 1, 32, 0, 0, 0, 0, [], 0⟩ /- embStatus -/
  , ⟨0x70004, 4, 1, 32, 1, 3, 0, 0, [], 0⟩ /- embCtrl -/
  , ⟨0x70008, 4, 1, 32, 0x1001096, 0xFFFFFFFF, 0, 0, [(0, 8, 101, 255), (8, 8, 1, 255), (16, 16, 8, 65535)], 0⟩ /- embPolicy -/
  , ⟨0x7000C, 4, 1, 32, 0, 0, 1, 0, [], 0⟩ /- embErr -/
  , ⟨0x70010, 4, 1, 32, 0, 0xFFFFFFFF, 0, 0, [], 0⟩ /- embCorrected -/
  , ⟨0x70018, 8, 1, 64, 0, 0, 0, 0, [], 0⟩ /- embMigrations -/ ]

/-- Register rows, part 5. -/
def regRows5 : List RegRow :=
  [ ⟨0x70020, 4, 1, 32, 0, 0xFF, 0, 0, [], 0⟩ /- embSkewSel -/
  , ⟨0x70024, 4, 1, 32, 0, 0xFFFFFFFF, 0, 0, [], 0⟩ /- embDeferred -/
  , ⟨0x70028, 8, 1, 64, 0, 0, 0, 0, [], 0⟩ /- embSkewAt -/
  , ⟨0x70100, 4, 0x20, 32, 0, 0, 0, 0, [], 0⟩ /- embSkewShard -/
  , ⟨0x71000, 0x40, 0x100, 32, 0, 0, 0, 0, [], 0⟩ /- tblState -/
  , ⟨0x71004, 0x40, 0x100, 32, 0, 0, 0, 0, [], 0⟩ /- tblRec0 -/
  , ⟨0x71008, 0x40, 0x100, 32, 0, 0, 0, 0, [], 0⟩ /- tblRec1 -/
  , ⟨0x7100C, 0x40, 0x100, 32, 0, 0, 0, 0, [], 0⟩ /- tblDir -/
  , ⟨0x71010, 0x40, 0x100, 64, 0, 0xFFFFFFFFFFFFFFFF, 0, 0, [], 0⟩ /- tblInvalid -/
  , ⟨0x71018, 0x40, 0x100, 64, 0, 0xFFFFFFFFFFFFFFFF, 0, 0, [], 0⟩ /- tblAbsent -/
  , ⟨0x71020, 0x40, 0x100, 64, 0, 0, 0, 0, [], 0⟩ /- tblReplicaReads -/
  , ⟨0x80000, 4, 0x20, 32, 0, 0, 0, 0, [], 0⟩ /- dtaStatus -/
  , ⟨0x80080, 4, 0x20, 32, 0, 1, 0, 0, [], 0⟩ /- dtaCtrl -/
  , ⟨0x80100, 4, 1, 32, 0, 0, 1, 0, [], 0⟩ /- dtaErr -/
  , ⟨0x80104, 4, 1, 32, 0, 0xFFFFFFFF, 0, 0, [], 0⟩ /- dtaCorrected -/
  , ⟨0x80200, 8, 0x20, 64, 0, 0, 0, 0, [], 0⟩ /- dtaProducts -/
  , ⟨0x90000, 4, 1, 32, 0, 0, 0, 0, [], 0⟩ /- hbmStatus -/
  , ⟨0x90004, 4, 1, 32, 0, 0x1F, 0, 0x1F, [(0, 5, 0, 24)], 0⟩ /- hbmConfig -/
  , ⟨0x90008, 4, 1, 32, 0x3695F, 0xFFFFF, 0, 0, [(0, 8, 80, 104), (8, 8, 90, 110), (16, 4, 1, 15)], 0⟩ /- hbmTherm -/
  , ⟨0x9000C, 4, 1, 32, 0x18, 0xFF, 0, 0, [(0, 8, 0, 168)], 0⟩ /- hbmScrub -/ ]

/-- Register rows, part 6. -/
def regRows6 : List RegRow :=
  [ ⟨0x90010, 4, 1, 32, 0, 0, 0xFFFFFFFF, 0, [], 0⟩ /- hbmErr -/
  , ⟨0x90014, 4, 1, 32, 0, 0, 0, 0, [], 0⟩ /- hbmZero -/
  , ⟨0x90100, 0x40, 8, 32, 0x3800, 0, 0, 0, [], 0⟩ /- hbmTemp -/
  , ⟨0x90108, 0x40, 8, 64, 0, 0, 0, 0, [], 0⟩ /- hbmTempAt -/
  , ⟨0x90110, 0x40, 8, 32, 0, 0xFFFFFFFF, 0, 0, [], 0⟩ /- hbmCorr -/
  , ⟨0x90114, 0x40, 8, 32, 0, 0xFFFFFFFF, 0, 0, [], 0⟩ /- hbmUncorr -/
  , ⟨0x90118, 0x40, 8, 64, 0, 0, 0, 0, [], 0⟩ /- hbmAdds -/
  , ⟨0x90120, 0x40, 8, 64, 0, 0, 0, 0, [], 0⟩ /- hbmLastUe -/
  , ⟨0xA0000, 4, 1, 32, 0, 0, 0, 0, [], 0⟩ /- fabStatus -/
  , ⟨0xA0004, 4, 1, 32, 0, 0, 0, 0, [], 0⟩ /- fabCoord -/
  , ⟨0xA0008, 4, 1, 32, 0x182710, 0xFFFFFF, 0, 0, [(0, 16, 100, 65535), (16, 8, 1, 168)], 0⟩ /- fabCfg -/
  , ⟨0xA000C, 4, 1, 32, 0, 0, 0xF, 0, [], 0⟩ /- fabErr -/
  , ⟨0xA0010, 4, 1, 32, 0, 0xFFFFFFFF, 0, 0, [], 0⟩ /- fabCorrected -/
  , ⟨0xA0018, 8, 1, 64, 0, 0, 0, 0, [], 0⟩ /- fabLost -/
  , ⟨0xA0020, 8, 1, 64, 0, 0, 0, 0, [], 0⟩ /- fabColls -/
  , ⟨0xA0100, 0x40, 0xC, 32, 0x40, 0, 0, 0, [], 0⟩ /- portStatus -/
  , ⟨0xA0104, 0x40, 0xC, 32, 0, 1, 0, 0, [], 0⟩ /- portCtrl -/
  , ⟨0xA0108, 0x40, 0xC, 64, 0, 0, 0, 0, [], 0⟩ /- portFarSerial -/
  , ⟨0xA0110, 0x40, 0xC, 32, 0, 0, 0, 0, [], 0⟩ /- portFarPlace -/
  , ⟨0xA0114, 0x40, 0xC, 32, 0, 0xFFFFFFFF, 0, 0, [], 0⟩ /- portReplays -/ ]

/-- Register rows, part 7. -/
def regRows7 : List RegRow :=
  [ ⟨0xA0118, 0x40, 0xC, 64, 0, 0, 0, 0, [], 0⟩ /- portFecCorr -/
  , ⟨0xA0120, 0x40, 0xC, 32, 0, 0xFFFFFFFF, 0, 0, [], 0⟩ /- portFecUncorr -/
  , ⟨0xA0124, 0x40, 0xC, 32, 0, 0xFFFFFFFF, 0, 0, [], 0⟩ /- portRetrains -/
  , ⟨0xA0400, 8, 0x60, 32, 0, 0, 0, 0, [], 0⟩ /- lanePrbs -/
  , ⟨0xA0404, 8, 0x60, 32, 0, 0, 0, 0, [], 0⟩ /- laneInfo -/
  , ⟨0xA1000, 4, 0x400, 32, 0, 0, 0, 0, [], 0⟩ /- route -/
  , ⟨0xA2000, 4, 0x40, 32, 0, 0xFF, 0, 0, [(0, 8, 0, 128)], 0⟩ /- fabBar -/
  , ⟨0xB0000, 4, 1, 32, 8, 0, 0, 0, [], 0⟩ /- pwrStatus -/
  , ⟨0xB0004, 4, 1, 32, 0x40, 0x1F1, 0, 0, [(4, 4, 1, 8)], 0⟩ /- pwrPolicy -/
  , ⟨0xB0008, 4, 1, 32, 0x30C, 0x3FF, 0, 0, [(0, 10, 130, 780)], 0⟩ /- pwrLimit -/
  , ⟨0xB000C, 4, 1, 32, 0x5F5E1, 0xFFFFFFFF, 0, 0, [(0, 32, 1000, 100000000)], 0⟩ /- rampUp -/
  , ⟨0xB0010, 4, 1, 32, 0x5F5E1, 0xFFFFFFFF, 0, 0, [(0, 32, 1000, 100000000)], 0⟩ /- rampDown -/
  , ⟨0xB0014, 4, 1, 32, 0x13883C, 0xFFFF7F, 0, 0, [(0, 7, 0, 100)], 0⟩ /- fill -/
  , ⟨0xB0018, 4, 1, 32, 0, 0, 0, 0, [], 0⟩ /- pwrLock -/
  , ⟨0xB001C, 4, 1, 32, 0x3695F, 0xFFFFF, 0, 0, [(0, 8, 80, 104), (8, 8, 90, 110), (16, 4, 1, 15)], 0⟩ /- tjTherm -/
  , ⟨0xB0020, 4, 1, 32, 0, 0, 0, 0, [], 0⟩ /- pwrNow -/
  , ⟨0xB0024, 4, 1, 32, 0, 0, 0xFF, 0, [], 0⟩ /- pwrErr -/
  , ⟨0xB0028, 4, 1, 32, 0, 0xFFFFFFFF, 0, 0, [], 0⟩ /- rampViolCount -/
  , ⟨0xB002C, 4, 1, 32, 0, 0, 0, 0, [], 0⟩ /- dipCount -/
  , ⟨0xB0040, 4, 1, 32, 0, 0, 0, 0, [], 0⟩ /- wearRate -/ ]

/-- Register rows, part 8. -/
def regRows8 : List RegRow :=
  [ ⟨0xB0044, 4, 1, 32, 0, 0, 0, 0, [], 0⟩ /- wearVneed -/
  , ⟨0xB0048, 4, 1, 32, 0, 0, 0, 0, [], 0⟩ /- wearMargin -/
  , ⟨0xB004C, 4, 1, 32, 0, 0, 0, 0, [], 0⟩ /- wearHours -/
  , ⟨0xB0050, 4, 1, 32, 0xFFFFFFFF, 0, 0, 0, [], 0⟩ /- wearEolHours -/
  , ⟨0xB0054, 4, 1, 32, 0, 0, 0, 0, [], 0⟩ /- wearEolDay -/
  , ⟨0xB0058, 4, 1, 32, 0, 0, 0, 0, [], 0⟩ /- wearCell -/
  , ⟨0xB0060, 8, 1, 64, 0, 0, 0, 0, [], 0⟩ /- wearAt -/
  , ⟨0xB0100, 8, 0x20, 64, 0, 0, 0, 0, [], 0⟩ /- dipLog -/
  , ⟨0xC0000, 4, 0x100, 32, 0, 0xFFFFFFFF, 0, 0, [], 0⟩ /- scValue -/
  , ⟨0xC0400, 4, 8, 32, 0, 0, 0xFFFFFFFF, 0, [], 0⟩ /- scSat -/
  , ⟨0xC0420, 4, 8, 32, 0, 0, 0, 0, [], 0⟩ /- scWait -/
  , ⟨0xC0440, 4, 8, 32, 0, 0, 0, 0, [], 0⟩ /- scPoison -/
  , ⟨0xC0460, 4, 1, 32, 0, 0, 1, 0, [], 0⟩ /- scErr -/
  , ⟨0xC0464, 4, 1, 32, 0, 0xFFFFFFFF, 0, 0, [], 0⟩ /- scCorrected -/
  , ⟨0xC0468, 8, 1, 64, 0, 0, 0, 0, [], 0⟩ /- scOps -/
  , ⟨0xD0000, 4, 1, 32, 0x40, 0, 0, 0, [], 0⟩ /- suStatus -/
  , ⟨0xD0004, 4, 1, 32, 0, 0, 0, 0, [], 0⟩ /- suCtrl -/
  , ⟨0xD0008, 8, 1, 64, 0, 0, 0, 0, [], 0⟩ /- suResetAt -/
  , ⟨0xD0010, 4, 1, 32, 0x7530, 0xFFFFF, 0, 0xFFFFF, [(0, 20, 1000, 600000)], 0⟩ /- suBootDeadline -/
  , ⟨0xD0018, 8, 1, 64, 0, 0, 0, 0, [], 0⟩ /- fwVersionA -/ ]

/-- Register rows, part 9. -/
def regRows9 : List RegRow :=
  [ ⟨0xD0020, 8, 1, 64, 0, 0, 0, 0, [], 0⟩ /- fwVersionB -/
  , ⟨0xD0028, 4, 1, 32, 0, 0, 0, 0, [], 0⟩ /- fwSvn -/
  , ⟨0xD002C, 4, 1, 32, 0, 0, 0, 0, [], 0⟩ /- fwSchema -/
  , ⟨0xD0030, 4, 1, 32, 0, 0, 0, 0, [], 0⟩ /- fwReq -/
  , ⟨0xD0034, 4, 1, 32, 0, 0, 0, 0, [], 0⟩ /- fwReqStatus -/
  , ⟨0xD0038, 4, 1, 32, 0, 0xFFFFFFFF, 0, 0, [(0, 32, 1280, 33554432)], 0⟩ /- fwReqLen -/
  , ⟨0xD0040, 8, 4, 64, 0, 0, 0, 0, [], 0⟩ /- fwStageToken -/
  , ⟨0xE0000, 4, 1, 32, 0, 0, 0, 0, [], 0⟩ /- errSeq -/
  , ⟨0xE0004, 4, 1, 32, 0, 0xFFFFFFFF, 0, 0, [], 0⟩ /- errAck -/
  , ⟨0xE0008, 4, 1, 32, 0, 0, 0, 0, [], 0⟩ /- errStatus -/
  , ⟨0xE000C, 4, 1, 32, 0xA010, 0xFFFF, 0, 0, [(0, 8, 1, 255), (12, 3, 1, 6)], 0⟩ /- errCfg -/
  , ⟨0xE0010, 4, 1, 32, 0, 0, 0, 0, [], 0⟩ /- errCtrl -/
  , ⟨0xE0014, 4, 1, 32, 0, 0xFFFFFFFF, 0, 0, [], 0⟩ /- errOverrun -/
  , ⟨0xE0020, 4, 6, 32, 0, 0xFFFFFFFF, 0, 0, [], 0⟩ /- errClass -/
  , ⟨0xE0040, 4, 1, 32, 0, 0xFFFFFFFF, 0, 0, [], 0⟩ /- coveCorrected -/
  , ⟨0xE0044, 4, 1, 32, 0, 0, 0xFFFFFFFF, 0, [], 0⟩ /- coveErr -/
  , ⟨0xE0048, 8, 1, 64, 0, 0, 0, 0, [], 0⟩ /- errImport -/
  , ⟨0xE8000, 8, 0x1000, 64, 0, 0, 0, 0, [], 0⟩ /- errLog -/ ]

/-- Every row of the map. -/
def regRows : List RegRow :=
  regRows0 ++ regRows1 ++ regRows2 ++ regRows3 ++ regRows4 ++ regRows5 ++ regRows6 ++ regRows7 ++ regRows8 ++ regRows9

/-- The row that holds window offset `off` of function `fn`, when `off` is the offset of a register. -/
def regRowAt (fn off : Nat) : Option RegRow :=
  regRows.find? (fun r => (if fn = 0 then r.vf != 2 else r.vf != 0) && decide (r.off ≤ off) &&
    (off - r.off) % r.stride == 0 && decide ((off - r.off) / r.stride < r.count))

/-- Window offset `off` of function `fn` is a byte of some register. -/
def regByte (fn off : Nat) : Bool :=
  regRows.any (fun r => (if fn = 0 then r.vf != 2 else r.vf != 0) && decide (r.off ≤ off) &&
    decide ((off - r.off) % r.stride < r.bits / 8) && decide ((off - r.off) / r.stride < r.count))

/-- An access of `size` bytes at `off` touches a register; unless it is one of the register's full width at its offset, it is
an access-size error (R11, R12). -/
def regTouched (fn off size : Nat) : Bool := (List.range size).any (fun j => regByte fn (off + j))

/-- The register that an access of `size` bytes at `off` reaches at its full width (R11). -/
def regRowExact (fn off size : Nat) : Option RegRow := (regRowAt fn off).filter (fun r => r.bits == 8 * size)

/-- The key of the register at offset `off` of function `fn`'s window (0 for the PF). -/
def regKey (fn off : Nat) : Nat := fn * 0x100000 + off

/-- Reset values that differ from one register of a run to the next (01 ID_RESOURCES in a VF, 07 FN_STATUS and
TEN_QUOTA of tenant 0). -/
def regResetSpecial (fn off : Nat) : Option Nat :=
  if off = Reg.fnStatus then some fn
  else if off = Reg.tenQuota 0 && fn == 0 then some 0x01000040
  else none

/-- What an unlisted register key reads as: the register's reset value. -/
def regReset (key : Nat) : BitVec 64 :=
  let fn := key / 0x100000
  let off := key % 0x100000
  match regResetSpecial fn off with
  | some v => BitVec.ofNat 64 v
  | none =>
    match regRowAt fn off with
    | some r => BitVec.ofNat 64 r.reset
    | none => 0

end Sys2Proof.Machine
end

