-- ==== Sys2Proof/Machine/SMap.lean ====
section
/-! DEFINITION. Sparse maps in one canonical form: keys strictly rising, and no entry equal to what an unlisted key
reads as. Every addressed store of the machine (memory, tags, poison, registers, tables) is one of these. -/

namespace Sys2Proof.Machine

/-- The value at key `k`; an unlisted key reads as `d k`. -/
def sget {α : Type} (d : Nat → α) : SMap α → Nat → α
  | [], k => d k
  | e :: m, k => if e.1 = k then e.2 else sget d m k

/-- Remove key `k`. -/
def serase {α : Type} (m : SMap α) (k : Nat) : SMap α := m.filter (fun e => e.1 != k)

/-- Insert before the first larger key. -/
def sins {α : Type} (k : Nat) (v : α) : SMap α → SMap α
  | [] => [(k, v)]
  | e :: m => if k < e.1 then (k, v) :: e :: m else e :: sins k v m

/-- Set key `k` to `v`; a value equal to what the unlisted key reads as removes the entry. -/
def sset {α : Type} [DecidableEq α] (d : Nat → α) (m : SMap α) (k : Nat) (v : α) : SMap α :=
  if v = d k then serase m k else sins k v (serase m k)

/-- Return keys lo, lo + 1, …, lo + len - 1 to what an unlisted key reads as. -/
def sclear {α : Type} (m : SMap α) (lo len : Nat) : SMap α :=
  m.filter (fun e => decide (e.1 < lo) || decide (lo + len ≤ e.1))

/-- Is any key of [lo, lo + len) listed? -/
def sanyIn {α : Type} (m : SMap α) (lo len : Nat) : Bool :=
  m.any (fun e => decide (lo ≤ e.1) && decide (e.1 < lo + len))

/-- Keys strictly rising. -/
def Memory.sorted {α : Type} : SMap α → Bool
  | [] => true
  | e :: m => m.all (fun e' => decide (e.1 < e'.1)) && Memory.sorted m

/-- The canonical form: keys strictly rising, no entry equal to what an unlisted key reads as. -/
def Memory.wf {α : Type} [DecidableEq α] (d : Nat → α) (m : SMap α) : Bool :=
  Memory.sorted m && m.all (fun e => decide (e.2 ≠ d e.1))

end Sys2Proof.Machine
end

