-- ==== Sys2Proof/Machine/State.lean ====
section
/-! DEFINITION. The machine's state as plain data, and the state right after power-on reset. One Vesol device with its
tray's management controllers, the rack manager, and host memory as last known. -/

namespace Sys2Proof.Machine

/-- The block never stops with a fault: every refusal the spec describes (a trap, an error status, a discarded write)
is a next state. -/
inductive Fault where
  deriving DecidableEq, Repr

/-- Why a command has no meaning. -/
inductive Refusal where
  /-- Raised by `exec` for a command whose meaning is not written yet; safe (the run stops). -/
  | notModelled (mnemonic : String)
  deriving DecidableEq, Repr

/-- A line of a headland cache (05 R132, R134): the tenant of the access that filled it, and dirty. -/
structure CacheLine where
  tenant : Byte
  dirty : Bool
  deriving DecidableEq, Repr

/-- A trap bank (06 R169). `mvec` is MVEC in bank M and TSCR4 in bank O. -/
structure TrapBank where
  tcause : W64
  tval : W64
  tinsn : W64
  tst : W64
  ttbc : W64
  tdetail : W64
  tscrd0 : W64
  tscrd1 : W64
  tepc : Cap
  tauth : Cap
  tstk : Cap
  tscr0 : Cap
  tscr1 : Cap
  tscr2 : Cap
  tscr3 : Cap
  last : Cap
  deriving DecidableEq, Repr

/-- What a running headland core waits for. -/
inductive HlWait where
  | none
  | wfi
  | counter (n : Nat) (target : W32) (rd : Nat)
  deriving DecidableEq, Repr

/-- A headland core (05 R118, R140; 06 R169). -/
structure HlCore where
  g : SMap Cap
  f : SMap W64
  exc : Cap
  st : W32
  ctx : W32
  perfSel : SMap W32
  perf : SMap W64
  perfOvf : W32
  vtb : Cap
  /-- key 2k: ENTk code, 2k + 1: ENTk stack -/
  ent : SMap Cap
  bankO : TrapBank
  bankM : TrapBank
  running : Bool
  wait : HlWait
  /-- RID of the remote access the core waits for (15 R407) -/
  remote : Option (BitVec 16)
  dcache : SMap CacheLine
  icache : SMap CacheLine
  /-- replacement state of each set: the line last used in it (R132); an unlisted set is as reset -/
  drecent : SMap Nat
  irecent : SMap Nat
  /-- its oldest instruction is one that 05 R128 lists, has begun and could not complete yet (06 R168) -/
  begun : Bool
  /-- cache class under which that instruction, or one that waits for a counter or a response, was fetched: its line stands in the
  speculation buffer till then (R130) -/
  fetched : Option (BitVec 2)
  /-- the watchdog's deadline has passed and its cause is still to be taken (06 R170) -/
  wdogDue : Bool
  /-- an interrupt or the watchdog was due when its last instruction retired or its last cause was entered: it goes before the
  next instruction, whichever that is (06 R156, R168) -/
  owed : Bool
  /-- interrupts that a vector table on another device placed above EXC.RING since EXC.RING last changed (06 R161) -/
  deferred : List Nat
  deriving DecidableEq, Repr

/-- A bank of registers at their reset values. -/
def bankReset (last : Cap) : TrapBank :=
  ⟨0, 0, 0, 0, 0, 0, 0, 0, capNull, capNull, capNull, capNull, capNull, capNull, capNull, last⟩

/-- A headland core at reset, halted (05 R146, 06 R172). -/
def coreReset : HlCore :=
  { g := [], f := [], exc := capNull, st := 2, ctx := 0, perfSel := [], perf := [], perfOvf := 0, vtb := capNull,
    ent := [], bankO := bankReset capNull, bankM := bankReset executeRoot, running := false, wait := .none,
    remote := none, dcache := [], icache := [], drecent := [], irecent := [], begun := false, fetched := none,
    wdogDue := false, owed := false, deferred := [] }

/-- Core 0 at reset: the roots of R64, and the reset entry's cursor (06 R172). -/
def core0Reset : HlCore :=
  { coreReset with
    g := [(1, memoryRoot), (2, sealingRoot)]
    exc := capMoveCursor executeRoot 0x0000006000000000#64
    running := true }

/-- What core `n` is at reset. -/
def coreDefault (n : Nat) : HlCore := if n = 0 then core0Reset else coreReset

/-- One region rule (04). -/
structure Rule where
  first : W64
  last : W64
  attr : W32
  deriving DecidableEq, Repr

/-- A disabled rule. -/
def ruleZero : Rule := ⟨0, 0, 0⟩

/-- The access control unit (04 R109 to R117). Banks list their non-zero rules by index. -/
structure Acu where
  bank0 : SMap Rule
  bank1 : SMap Rule
  /-- parity state of each rule: 0 good, 1 bad and not yet found, 2 bad and found (R117) -/
  bad0 : SMap Nat
  bad1 : SMap Nat
  active : Bool
  pending : Bool
  /-- the pending switch has been released (R109) and waits only for its deadline -/
  released : Bool
  deadline : W64
  draining : Bool
  epoch : BitVec 24
  /-- first and last byte of the ranges whose lines are still being written back (R111) -/
  writeback : List (Nat × Nat)
  deriving DecidableEq, Repr

/-- A completion as the engine computed it (07 R195, R197). -/
structure Compl where
  status : Byte
  reason : Byte
  result : W32
  detail : W64
  deriving DecidableEq, Repr

/-- Where an operation came from. -/
inductive OpSrc where
  /-- submission ring `sq` of function `fn`, entry count `pos` -/
  | host (fn : Nat) (sq : Nat) (pos : W32)
  /-- QPUT of a headland core: sequence number and the completion capability -/
  | core (n : Nat) (seq : W32) (cc : Cap)
  deriving DecidableEq, Repr

/-- An operand slot: its kind (0 unused, 1 capability, 2 inline data), its capability, its 32 bytes. -/
structure Slot where
  kind : BitVec 2
  cap : Cap
  data : List Byte
  deriving DecidableEq, Repr

/-- How far an operation has come. -/
inductive OpPhase where
  /-- accepted, not begun -/
  | waiting
  /-- begun -/
  | running
  /-- ended, its completion not yet written -/
  | done
  deriving DecidableEq, Repr

/-- An accepted operation from ingest or QPUT until its completion is written (07 R189 to R199). -/
structure Op where
  id : Nat
  src : OpSrc
  tenant : Byte
  queue : Byte
  opcode : Byte
  desc : List Byte
  slots : List Slot
  phase : OpPhase
  compl : Compl
  /-- TBC at ingest -/
  ingest : W64
  /-- TBC at the completion -/
  ended : W64
  /-- its place among the operations in order of ending, once done -/
  endSeq : Nat
  /-- deadline by TIMEOUT, once begun -/
  deadline : Option W64
  /-- ACU bank active when the operation began (04 R110) -/
  bank : Bool
  /-- bytes of the operation done so far, for TIMEOUT's DETAIL -/
  progress : Nat
  /-- remote blocks already answered: fabric address of the block, response status, bytes -/
  fetched : List (Nat × Nat × List Byte)
  /-- remote blocks asked for and not yet answered -/
  asked : List Nat
  /-- it stands in its target queue (05 R136); an ingested descriptor that cannot yet is held (07 R187) -/
  queued : Bool
  /-- a VCU descriptor that stands in its context's waiting list (09 R264) -/
  listed : Bool
  /-- completion ring that its submission ring was bound to when it was fetched (07 R210) -/
  cq : Nat
  /-- its place in the order in which queues accepted their entries (12 R327) -/
  accepted : Nat
  /-- its place in the order in which operations began (16 R440); 0 while it has not begun -/
  beganAt : Nat
  /-- place in the order in which operations became ready to begin, 0 before that (17 R449) -/
  readyAt : Nat
  deriving DecidableEq, Repr

/-- Host-side state of a function (07 R181 to R201). -/
structure HostFn where
  /-- present poll interval, µs; 0 until the first scan, which POLL.MIN times -/
  interval : Nat
  /-- TBC at which the last scan began -/
  lastScan : Option W64
  /-- last valid tails and heads by ring -/
  tails : SMap W32
  heads : SMap W32
  /-- a write of the wake page calls for a scan that has not begun (R186) -/
  woken : Bool
  /-- entries written to CQ c since its last vector, and the TBC of the first of them -/
  unsent : SMap Nat
  firstAt : SMap W64
  deriving DecidableEq, Repr

/-- A function at reset. -/
def hostFnReset : HostFn := ⟨0, none, [], [], false, [], []⟩

/-- One entry of a change set (07 R203). -/
structure CsEntry where
  kind : Byte
  index : Nat
  value : List Byte
  deriving DecidableEq, Repr

/-- A change set in progress (07 R204). -/
structure ChangeSet where
  op : Nat
  entries : List CsEntry
  /-- the TBC value before which it is not applied, the start of step 2, and the deadline, when it has one -/
  at_ : W64
  start : W64
  due : Option W64
  /-- step 3 has been done: shadows written, DRAINING set -/
  prepared : Bool
  /-- TBC at which step 5 ended -/
  drained : Option W64
  deriving DecidableEq, Repr

/-- What a headland memory instruction does (05 R126, R127). -/
inductive MemKind where
  | load (size : Nat) (signed : Bool)
  | store (size : Nat)
  | cld
  | cst
  | fld
  | fst
  /-- func[4:0] of R122: the function and its width -/
  | atomic (func : Nat) (wide : Bool)
  | msadd (fmt : Nat)
  deriving DecidableEq, Repr

/-- A headland memory instruction: its registers, displacement and word. -/
structure MemOp where
  kind : MemKind
  rd : Nat
  rs1 : Nat
  rs2 : Nat
  imm : Int
  word : W32
  deriving DecidableEq, Repr

/-- A cause with what the trap bank records about it (06 R158, R159, R165). -/
structure Cause where
  num : Nat
  tval : W64
  detail : Nat
  auth : Cap
  /-- TINSN, zero for fetch faults and interrupts -/
  insn : W32
  /-- TEPC's cursor -/
  pc : W64
  deriving DecidableEq, Repr

/-- Who waits for the response of a remote request. -/
inductive ReqOrigin where
  /-- headland core `n`, whose oldest instruction this is -/
  | core (n : Nat) (m : MemOp)
  /-- core `n`, for the vector table entry of a cause (06 R162) -/
  | vector (n : Nat) (k : Cause)
  /-- operation `id`, for the block at this fabric address -/
  | op (id : Nat) (block : Nat)
  /-- the copy of hot-row directory entry `entry`, for the block at this fabric address (11 R310) -/
  | copy (entry : Nat) (block : Nat)
  deriving DecidableEq, Repr

/-- An outstanding remote request (15 R407 to R409). -/
structure Req where
  origin : ReqOrigin
  msg : Msg
  port : Nat
  issued : W64
  deriving DecidableEq, Repr

/-- A flit that goes out (15 R392): its link header, and bytes 8 to 119; trailing zeros of the body may be left out. -/
structure Flit where
  kind : BitVec 4
  seq : BitVec 12
  ack : BitVec 12
  cvc : BitVec 3
  credits : Byte
  vc : BitVec 3
  body : List Byte
  deriving DecidableEq, Repr

/-- What the block has sent, in order. -/
inductive Out where
  /-- MSI-X vector of a function: the address and data of its table entry (07 R201) -/
  | msix (fn vector : Nat) (addr : W64) (data : W32)
  /-- a flit by a port -/
  | flit (port : Nat) (f : Flit)
  /-- the codeword headers of a port carry CTRL `ctrl` from here to the next of these, which after a 2 comes one codeword later (15 R391) -/
  | codeword (port ctrl : Nat)
  /-- bytes answered on the management bus or the rack management port -/
  | answer (bytes : List Byte)
  /-- bits shifted out of the test access port, the first in bit 0: their number and value (21 R553) -/
  | scan (bits value : Nat)
  deriving DecidableEq, Repr

/-- Time-base bookkeeping that no register shows (02 R41 to R44, R50). -/
structure TimeBase where
  /-- the first alignment after power-on has happened -/
  aligned1 : Bool
  /-- A of R43: TBC when the last time flit came from a neighbour with a path to the master -/
  lastFlit : W64
  /-- lowest master candidate known (R50) -/
  candidate : Option (BitVec 10)
  /-- hops to the device in its MASTER field that the last time flit of each port told; 31: the neighbour knows none, or has
  no path (log entry 24) -/
  paths : SMap Nat
  /-- MASTER field of the last time flit of each port; 1024: none yet -/
  told : SMap Nat
  /-- time flits sent since the lowest candidate known last changed, while the first alignment is awaited (log entry 24) -/
  settle : Nat
  /-- the time-base reference runs -/
  refclk : Bool
  deriving DecidableEq, Repr

/-- A strand DMA transfer in the queue (08 R233 to R235): direction (outward), local address and offset of each row,
words of a row, base of the local memory, first local word, step. -/
structure StrandXfer where
  outward : Bool
  rows : List (Nat × Int)
  rowWords : Nat
  base : Nat
  loc : Nat
  step : Nat
  deriving DecidableEq, Repr

/-- What a strand core stalls on (08 R233, R235). -/
inductive StrandWait where
  | none
  | waitd (k : Nat)
  | dma (dir : Bool) (ch pb pl : Nat)
  | halt (code : BitVec 16)
  deriving DecidableEq, Repr

/-- Where a strand core goes after its delay slots (08 R226). -/
inductive StrandJump where
  | on
  | target (a : Nat)
  | ret
  deriving DecidableEq, Repr

/-- A strand core (08 R218, R226, R228 to R233). -/
structure StrandCore where
  /-- tenant of R220 -/
  tenant : Byte
  /-- executes instructions -/
  running : Bool
  /-- the RUN it belongs to -/
  op : Option Nat
  pc : Nat
  /-- physical registers of the rotating file -/
  q : SMap (BitVec 16)
  /-- registers 0x20 to 0x3E, by number -/
  regs : SMap (BitVec 16)
  a0 : BitVec 40
  a1 : BitVec 40
  loopActive : Bool
  loopRot : Bool
  /-- pushed loops, innermost first: LC, LS, LE, ROT -/
  stack : List (BitVec 16 × BitVec 16 × BitVec 16 × Bool)
  /-- delay slots still to execute, and what follows them -/
  delay : Nat
  jump : StrandJump
  /-- executions of the repeated instruction still to come -/
  rep : Nat
  /-- old values of the Pn and On that the previous instruction wrote, by number -/
  agOld : SMap (Option (BitVec 16))
  dc : List Cap
  /-- outstanding transfers, oldest first -/
  dq : List StrandXfer
  wait : StrandWait
  /-- code of its HALT -/
  code : BitVec 16
  deriving DecidableEq, Repr

/-- A strand core at reset (08 R244). -/
def strandReset : StrandCore :=
  { tenant := 0, running := false, op := none, pc := 0, q := [], regs := [], a0 := 0, a1 := 0, loopActive := false,
    loopRot := false, stack := [], delay := 0, jump := .on, rep := 0, agOld := [], dc := List.replicate 8 capNull,
    dq := [], wait := .none, code := 0 }

/-- A stream context (09 R246, R255, R260, R263, R269): its set-up block and the capabilities that VCU_CONFIG gave it,
its pictures, its references (buffer, POC) newest first, buffers that have left the list and are still marked, the mean
row QP of the last picture, and what it has begun since it was configured. -/
structure Vctx where
  configured : Bool
  setup : List Byte
  refArea : Cap
  markArea : Cap
  picture : Nat
  lastPoc : Int
  qp : Int
  refs : List (Nat × Int)
  stale : List Nat
  keyPending : Bool
  /-- no references held since configuration or a discard: the next picture is key -/
  fresh : Bool
  meanQp : Int
  history : List VidStep
  /-- buffers whose picture ended without a result: their marks are set back before the next claim (log entry 32) -/
  freed : List Nat
  deriving DecidableEq, Repr

/-- An unconfigured context. -/
def vctxReset : Vctx :=
  { configured := false, setup := [], refArea := capNull, markArea := capNull, picture := 0, lastPoc := 0, qp := 0, refs := [],
    stale := [], keyPending := false, fresh := true, meanQp := 0, history := [], freed := [] }

/-- A picture in progress on a pipe (09 R254, R255, R261, R266). -/
structure VidPic where
  op : Nat
  ctx : Nat
  buffer : Nat
  /-- 0 IDR, 1 CRA, 2 P -/
  kind : Nat
  poc : Int
  /-- source samples or access unit, as read -/
  data : List Byte
  /-- positions of poisoned bytes of the access unit -/
  poison : List Nat
  /-- a source sample exceeded BIT_DEPTH -/
  isOver : Bool
  /-- what the context had begun when it began: so much of the history -/
  past : Nat
  /-- it took a KEY_REQUEST -/
  tookKey : Bool
  /-- QP and substream of each CTU row begun, and the CTUs coded of each -/
  rows : List (Int × List Byte)
  coded : List Nat
  watchdog : W64
  /-- CTUs decoded when the watchdog expired -/
  expired : Option Nat
  deriving DecidableEq, Repr

/-- A picture that a pipe has taken and whose source or mark record is not yet at hand: its operation and context, the TBC at
which it began, whether a KEY_REQUEST was pending then, and how much the context had begun (09 R265). -/
structure VidStart where
  op : Nat
  ctx : Nat
  since : W64
  key : Bool
  past : Nat
  /-- the watchdog of a DECODE has expired before its access unit was at hand (09 R266) -/
  expired : Bool
  deriving DecidableEq, Repr

/-- A pipe: 0 and 1 encode, 2 and 3 decode. `recent`: of the last 8 pictures, newest first, which were batch. -/
structure VidPipe where
  pic : Option VidPic
  starting : Option VidStart
  recent : List Bool
  deriving DecidableEq, Repr

/-- An idle pipe. -/
def pipeReset : VidPipe := ⟨none, none, []⟩

/-- A run-ahead read and its data (03 R88, 10 R288): the bytes from byte `off` of a slot, within one 64-byte block. -/
structure SpecRead where
  slot : Nat
  off : Nat
  bytes : List Byte
  deriving DecidableEq, Repr

/-- A walk in progress on a gather engine (10 R284 to R289, R293): the sampling key, hub threshold and participating coves
in force when it began, where it stands in the first hop, what has been kept, and the engine's speculation buffer. -/
structure WalkRun where
  op : Nat
  seed : W64
  hub : Nat
  coves : List Nat
  /-- the walk has begun and stands at an index check -/
  ready : Bool
  /-- seeds not yet reached -/
  left : Nat
  /-- the first-hop entry whose index check has not retired: its position in COLIDX and its vertex -/
  front : Option (Nat × Nat)
  /-- selected entries of the seed's vertex asked for and not yet taken up: position in COLIDX, and the cove that fetches it -/
  entries : List (Nat × Nat)
  /-- first-hop vertices kept so far -/
  kept : List Nat
  bad : Nat
  /-- hubs met -/
  hubs : Nat
  /-- entries of OUT_NEIGHBOURS before the seed in hand, and the seeds before it that kept none (10 R298) -/
  seedFrom : Nat
  bare : Nat
  /-- the speculation buffer: run-ahead reads rooted at `front` -/
  spec : List SpecRead
  /-- run-ahead reads that were promoted and whose data has not been used -/
  promoted : List SpecRead
  deriving DecidableEq, Repr

/-- No walk. -/
def walkNone : WalkRun := ⟨0, 0, 0, [], false, 0, none, [], [], 0, 0, 0, 0, [], []⟩

/-- A version record of a table (11 R301, R302, R320): its generation, rows, bytes per row, element format (0 fp32, 1
bf16, 2 fp16, 3 int8), flags, shard count, and its capabilities as TABLE_DEFINE gave them: presence, replica, shards. -/
structure TblRec where
  gen : Nat
  rows : Nat
  rowBytes : Nat
  elem : Nat
  writable : Bool
  migrate : Bool
  shards : Nat
  slots : List Slot
  deriving DecidableEq, Repr

/-- A table slot (11 R301, R316, R318). -/
structure Tbl where
  tenant : Byte
  owned : Bool
  active : Bool
  rec0 : Option TblRec
  rec1 : Option TblRec
  draining : Bool
  switchPending : Bool
  deriving DecidableEq, Repr

/-- A free table slot. -/
def tblFree : Tbl := ⟨0, false, false, none, none, false, false⟩

/-- A LOOKUP in progress and the record it is bound to (11 R316). -/
structure Bound where
  op : Nat
  table : Nat
  recNo : Bool
  record : TblRec
  /-- list positions complete -/
  next : Nat
  /-- rows delivered -/
  delivered : Nat
  /-- indices found invalid -/
  bad : Nat
  /-- indices found absent -/
  absent : Nat
  /-- the row of the position in hand, once it has been read -/
  row : Option (List Byte)
  deriving DecidableEq, Repr

/-- An UPDATE in progress (11 R313 to R315): its record, the rows still to update with the list positions that name each, rows
updated, and indices dropped. -/
structure UpdateRun where
  op : Nat
  recNo : Bool
  record : TblRec
  rows : List (Nat × List Nat)
  /-- list positions read and sorted -/
  next : Nat
  updated : Nat
  /-- list positions complete: dropped, or of a row that has been updated -/
  positions : Nat
  bad : Nat
  absent : Nat
  deriving DecidableEq, Repr

/-- Who holds a row while it is read, modified and written (11 R315): an operation of this device, or another device. -/
inductive Holder where
  | op (id : Nat)
  | device (d : Nat)
  deriving DecidableEq, Repr

/-- A range of fabric addresses that an UPDATE is modifying, and the TBC since which it has been held. -/
structure RowHold where
  holder : Holder
  addr : Nat
  len : Nat
  since : W64
  deriving DecidableEq, Repr

/-- A hot-row directory entry (11 R310, R311): COPYING until `valid`; rows read from the replica in this window; the
blocks of a remote home row already answered, and those asked for. -/
structure DirEntry where
  table : Nat
  recNo : Bool
  row : Nat
  slot : Nat
  valid : Bool
  reads : Nat
  got : List (Nat × Nat × List Byte)
  asked : List Nat
  /-- ACU bank active when its copy began (04 R110) -/
  bank : Bool
  deriving DecidableEq, Repr

/-- No directory entry. -/
def dirNone : DirEntry := ⟨256, false, 0, 0, false, 0, [], [], false⟩

/-- One lane of a DTA's accumulation buffer (12 R332, R335): the exact sum in units of 2^-48 with the classes among its
summands, or an fp32 word; and the flags raised on the way. -/
structure Lane where
  sum : Int
  pos : Bool
  neg : Bool
  nan : Bool
  word : Nat
  flags : BitVec 5
  deriving DecidableEq, Repr

/-- A lane of zero. -/
def laneZero : Lane := ⟨0, false, false, false, 0, 0⟩

/-- A dense transform array: its stationary weights, by 128 × PE row + 2 × PE column + half, as encoded, and its
accumulation buffer, by lane (12 R329, R330, R349). -/
structure Dta where
  weights : SMap Nat
  buffer : SMap Lane
  deriving DecidableEq, Repr

/-- A DTA at reset. -/
def dtaReset : Dta := ⟨[], []⟩
/-- Stacked memory, beside its registers (14 R374, R380, R384 to R386). -/
structure Hbm where
  /-- the stacks have been trained since the last reset that reached them -/
  trained : Bool
  /-- stacks that have tripped or failed to relock since power-on reset: they stay offline -/
  tripped : SMap Bool
  /-- TBC of the last temperature reading of each stack; none after the load of the first alignment -/
  readAt : SMap (Option W64)
  /-- stacks in self refresh while their PHY relocks, by stack; the TBC by which it must have relocked -/
  held : SMap Bool
  relockBy : SMap W64
  /-- the PHYs run on the time-base reference -/
  onRef : Bool
  deriving DecidableEq, Repr

/-- Stacked memory after power-on reset. -/
def hbmReset : Hbm := ⟨false, [], [], [], [], true⟩

/-- A fabric port's link state (15 R390, R393 to R395). -/
structure Port where
  /-- messages waiting to be sent, by virtual channel -/
  queue : SMap (List Msg)
  /-- replay buffer, oldest first: SEQ, channel, message -/
  replay : List (Nat × Nat × Msg)
  /-- SEQ of the next message flit -/
  txSeq : Nat
  /-- SEQ of the last message flit received in order -/
  rxSeq : Nat
  /-- a NAK has gone out since, and what comes out of order is discarded without another (15 R394) -/
  nakSent : Bool
  /-- SEQ of the message flits received in order that still stand in a receive buffer -/
  parked : List Nat
  /-- TBC at which the last time flit from the far end arrived -/
  rxTime : W64
  /-- a time flit came due during the retrain in progress (15 R421) -/
  timeDue : Bool
  /-- flit credits held, by virtual channel -/
  credits : SMap Nat
  /-- receive buffers freed since their credits last went back, by virtual channel (15 R393; 02 R36) -/
  owed : SMap Nat
  /-- how often each flit of the replay buffer has been replayed in succession, oldest first -/
  replays : List Nat
  /-- a lane move is prepared -/
  moving : Bool
  /-- TBC of the last lane move -/
  lastMove : W64
  /-- the TBC from which the present spare lane has been the spare -/
  spareSince : W64
  /-- the lane for which the spare has been substituted in this retrain -/
  subst : Option Nat
  /-- down because the fabric clock was lost -/
  clkLost : Bool
  deriving DecidableEq, Repr

/-- A port at reset (15 R422): the last SEQ received is the one before 0. -/
def portReset : Port := ⟨[], [], 0, 4095, false, [], 0, false, [], [], [], false, 0, 0, none, false⟩

/-- A collective message held until its generation begins (15 R411). -/
inductive CollMsg where
  | join (j : Join)
  | data (tenant : Byte) (index flags : Nat) (payload : List Byte) (poison : Bool)
  | abort (tenant : Byte) (device : Nat) (lost : Bool)
  deriving DecidableEq, Repr

/-- The data received from one neighbour of the box (15 R413, R414): the direction it comes from, its flits so far, how many of their
elements have been passed on, the others, which elements are poisoned, and the flags they tell. -/
structure CollIn where
  dir : Nat
  flits : Nat
  taken : Nat
  bytes : List Byte
  poison : List Nat
  flags : Nat
  deriving DecidableEq, Repr

/-- The member of a collective that runs on an object (15 R411 to R416). -/
structure CollRun where
  op : Nat
  gen : BitVec 16
  /-- offset of this member in the box, per dimension -/
  off : List Nat
  ext : List Nat
  /-- directions (2 × dimension + sign) of the neighbours whose matching join has come -/
  joined : List Nat
  /-- data received, by neighbour -/
  inbox : List CollIn
  /-- dimension of the chain in progress -/
  dim : Nat
  /-- elements of this dimension's partial passed on, or turned at the last offset, and whether that is all of it -/
  passed : Nat
  sent : Bool
  /-- elements of this dimension's result that have come back -/
  back : Nat
  /-- data flits sent, by direction -/
  outs : SMap Nat
  /-- the elements of this member's value that are poisoned, those for which STAGE has no room, and the flags raised so far -/
  poison : List Nat
  spill : SMap Nat
  flags : Nat
  /-- the result stands in STAGE; OUT bytes written back, and the stacks that met their units in Throttle or Critical -/
  staged : Bool
  written : Nat
  late : List Nat
  deriving DecidableEq, Repr

/-- A barrier object (15 R410). -/
structure CollObj where
  /-- messages of a generation not begun: direction they came from, generation mod 256, message -/
  latched : List (Nat × Nat × CollMsg)
  run : Option CollRun
  deriving DecidableEq, Repr

/-- A barrier object at reset. -/
def collObjReset : CollObj := ⟨[], none⟩
/-- A cabling plan (18 R491): racks, the master's device number, the serial of each device (`none` for `*`), links
between port ends (device, port), and unused port ends. -/
structure Plan where
  racks : Nat
  master : Option Nat
  devices : List (Nat × Option W64)
  links : List ((Nat × Nat) × (Nat × Nat))
  unused : List (Nat × Nat)
  deriving DecidableEq, Repr
/-- A supply dip in progress (17 R455 to R458): its start, the lowest voltage seen (mV), and whether the islands have
stopped (R456). -/
structure Dip where
  start : W64
  low : Nat
  stopped : Bool
  deriving DecidableEq, Repr

/-- Power, heat and wear beside their registers (17 R446 to R464). Powers are in mW; the governor's g is in units of
10^-5 mW, in which a ramp register is the change per step. -/
structure Power where
  /-- g of R448; none before the first measurement after power-on reset -/
  g : Option Nat
  /-- TBC of the last governor step, junction reading, VCORE step and canary sample -/
  govAt : Option W64
  tjAt : Option W64
  vcoreAt : Option W64
  canaryAt : Option W64
  /-- the measurements of the last 1 ms, newest first -/
  recent : List Nat
  /-- P_busy of R450 -/
  busy : Nat
  /-- the TBC at which waiting began (R450) -/
  waitSince : Option W64
  /-- HOLD_MS has passed since waiting began -/
  holdOver : Bool
  /-- applied VCORE code (21 R547) -/
  vcore : Nat
  /-- the highest code that the governor allows -/
  govCode : Nat
  /-- VCORE steps of late, newest first: the TBC of each and the code before it (R445) -/
  steps : List (W64 × Nat)
  /-- PWR_POLICY.RUN has been set since power-on reset -/
  levelSet : Bool
  /-- canary-measured RATE (R459) -/
  rate : Nat
  /-- dips in progress, by rail -/
  dips : SMap (Option Dip)
  /-- rails that have fallen below their fail level and hold the reset (R457) -/
  failed : List Nat
  /-- the PCIe link must be in L0 by this TBC (R456) -/
  pcieBy : Option W64
  /-- excluded canaries (R464) -/
  excluded : List Nat
  /-- power-on time, held in the wear area: ns up to the TBC `hoursAt` -/
  onTime : Nat
  hoursAt : W64
  /-- power-on time at which the last wear sample fell due -/
  sampledAt : Nat
  /-- wear samples written so far -/
  samples : Nat
  /-- corrected units since the last wear sample, by stack (R460) -/
  corrSince : SMap Nat
  deriving DecidableEq, Repr

/-- After power-on reset: VCORE at code 20, 0.65 V (R463; 21 R547). -/
def powerReset : Power :=
  { g := none, govAt := none, tjAt := none, vcoreAt := none, canaryAt := none, recent := [], busy := 0, waitSince := none, holdOver := false,
    vcore := 20, govCode := 70, steps := [], levelSet := false, rate := 0, dips := [], failed := [], pcieBy := none, excluded := [],
    onTime := 0, hoursAt := 0, sampledAt := 0, samples := 0, corrSince := [] }
/-- A Tameaz T4 tray with its TMC (18 R465 to R477). -/
structure Tray where
  /-- TRAY_STATE.STATE: 0 absent, 1 on cell, 2 standby, 3 running, 4 fenced -/
  state : Nat
  /-- the slot switch is closed (R465, R485) -/
  slotOn : Bool
  /-- the TMC runs on its backup cell -/
  onCell : Bool
  /-- the TMC runs (it stops at the cell's cut-off) -/
  up : Bool
  /-- no heartbeat for 3 s -/
  silent : Bool
  /-- powered devices by position -/
  devOn : BitVec 4
  alarms : BitVec 14
  /-- continuous time towards the clearing of an alarm, ms, by alarm bit -/
  timers : SMap Nat
  /-- the last complete sample -/
  last : Option TraySample
  /-- the RTC as the TMC last read it, ms since 1970-01-01 UTC -/
  rtc : Option W64
  /-- STATUS_WORD fault bits that the regulators hold, and the set points in mV of VPHY, VHBM and VAUX (R466) -/
  faults : BitVec 16
  setPoints : List Nat
  /-- SEQ of the newest log record, the TMC's event log, and the rack manager's copy of it, oldest first (R465, R495) -/
  logSeq : Nat
  log : List (List Byte)
  copy : List (List Byte)
  /-- the rack manager has acknowledged the presented alarms -/
  acked : Bool
  /-- step 1 of R476 has been taken and the regulators are still enabled -/
  fencing : Bool
  /-- the 130 W limit of R474 is in force -/
  limited : Bool
  deriving DecidableEq, Repr

/-- A tray from which nothing has been heard. -/
def trayReset : Tray :=
  { state := 0, slotOn := false, onCell := true, up := false, silent := false, devOn := 0, alarms := 0, timers := [], last := none,
    rtc := none, faults := 0, setPoints := [], logSeq := 0, log := [], copy := [], acked := false, fencing := false, limited := false }

/-- A lane as the rack manager judges it (18 R490, R496): its stored result (ERRORS, flags), the count and spare role at
the last hourly read, hours earned and new errors since the last evaluation, and whether it was UNTESTED then. -/
structure LaneRec where
  errors : Nat
  flags : Nat
  count : Nat
  wasSpare : Bool
  hours : Nat
  fresh : Nat
  untested : Bool
  deriving DecidableEq, Repr

/-- A lane never tested. -/
def laneRecReset : LaneRec := ⟨0, 0, 0, false, 0, 0, false⟩

/-- The rack manager of a P32 (18 R480 to R496). -/
structure RackMgr where
  /-- RM_STATUS.STATE: 0 running, 1 draining, 2 service, 3 verifying -/
  state : Nat
  config : W32
  facility : W32
  fill : W32
  drain : W32
  wiring : W32
  planLen : W32
  cmdStatus : W32
  planBuf : SMap Byte
  /-- text and contents of the committed plan -/
  plan : Option (List Byte × Plan)
  coolant : Bool
  isOver : Bool
  /-- successive measurements above RACK_LIMIT, and below 97 % of it -/
  overRun : Nat
  underRun : Nat
  watts : Nat
  inlet : Nat
  /-- OUTLET of RM_COOLANT, °C, as last measured -/
  outlet : Nat
  flow : Nat
  rackLimit : Nat
  deviceLimit : Nat
  /-- the limit now written to the devices, mW -/
  written : Nat
  fenced : BitVec 32
  laneFail : BitVec 32
  lanes : SMap LaneRec
  /-- measurements made so far, one each 10 ms: the rack manager's clock (log entry 27) -/
  ticks : Nat
  /-- the measurement after which a tray was last powered under the present grant, and that at which draining began -/
  poweredAt : Option Nat
  drainFrom : Nat
  /-- hourly reads since the last evaluation (R490) -/
  period : Nat
  /-- the lane test has passed, with the error counts, and the devices other than the modelled one at which an identity does not
  match (R488) -/
  laneDone : Option (List Nat × List Nat)
  deriving DecidableEq, Repr

/-- The rack manager at first installation (R494). -/
def rackReset : RackMgr :=
  { state := 2, config := 0, facility := 0x007301F4, fill := 0x0013883C, drain := 0x258, wiring := 7, planLen := 0, cmdStatus := 0,
    planBuf := [], plan := none, coolant := false, isOver := false, overRun := 0, underRun := 0, watts := 0, inlet := 0, outlet := 0,
    flow := 0, rackLimit := 0, deviceLimit := 0, written := 780000, fenced := 0, laneFail := 0, lanes := [], ticks := 0
    poweredAt := none, drainFrom := 0, period := 0, laneDone := none }

/-- What stands around the device: its tray and position, the trays of its rack, the rack manager. -/
structure System where
  homeTray : Nat
  homePos : Nat
  /-- the home place is known for good: it has been delivered, or its tray has been heard -/
  homeKnown : Bool
  /-- records of the device that its TMC keeps in non-volatile memory, oldest first: the last 8 (20 R537) -/
  records : List (List Byte)
  /-- how many of the oldest of them the TMC has returned, and how many it has to return since it last powered the device -/
  returned : Nat
  toReturn : Nat
  trays : SMap Tray
  rack : RackMgr
  deriving DecidableEq, Repr
/-- A firmware request in progress (19 R519): CMD, NOW, KEY. -/
structure FwReq where
  cmd : Nat
  now : Bool
  key : Nat
  /-- an INSTALL has checked its image and erased the slot -/
  erased : Bool
  deriving DecidableEq, Repr

/-- Reset pins and the start-up path (19 R500 to R522; 21 R555 to R561). -/
structure Boot where
  /-- VAUX is good -/
  powered : Bool
  /-- PWRGD is asserted -/
  pwrgd : Bool
  /-- the host asserts its PERST# (R562) -/
  perst : Bool
  /-- the TMC holds PERST_N: it has not yet powered the device and asserted PWRGD (R562) -/
  tmcHold : Bool
  /-- PWRGD was low while PERST_N was released, or a release was ignored: the reset holds until the next release (R557) -/
  held : Bool
  /-- kind of the reset that the next release begins (R500); of several causes the lower code (21 R563) -/
  kind : Nat
  /-- a reset that found VID at another code than 20 holds the blocks until VID has come there (R547) -/
  settling : Bool
  /-- step 1 is done: the on-chip memories are zeroed -/
  zeroed : Bool
  /-- the boot record has been read and a slot chosen -/
  chosen : Bool
  /-- TBC of the release that began the present start-up, and of core 0's release -/
  began : W64
  released : W64
  request : Option FwReq
  /-- the fault outputs, latched until VAUX falls (21 R561) -/
  fatalN : Bool
  thermtripN : Bool
  deriving DecidableEq, Repr

/-- Right after the release that begins a power-on reset. -/
def bootReset : Boot :=
  { powered := true, pwrgd := true, perst := false, tmcHold := false, held := false, kind := 3, settling := false, zeroed := false, chosen := false, began := 0, released := 0,
    request := none, fatalN := false, thermtripN := false }
/-- The boundary-scan port (21 R553, R554): the instruction loaded (its opcode), the boundary register (cell 0 in bit 0),
and whether the pins follow it. -/
structure Jtag where
  instruction : Byte
  boundary : BitVec 48
  deriving DecidableEq, Repr
/-- The machine. -/
structure State where
  /-- commands waiting, first in first out: the model's own -/
  pending : List Instr
  /-- numbers the free values: the model's own -/
  freeCtr : Nat
  /-- what the block has sent, oldest first: the model's own -/
  out : List Out
  tbc : W64
  time : TimeBase
  /-- set-up registers that have no field of their own, by function and offset -/
  regs : SMap W64
  /-- local memory by local address -/
  mem : Mem
  /-- tags, by the address of the granule -/
  tags : SMap Bool
  /-- poison, by the first address of the unit, granule or word -/
  poison : SMap Bool
  /-- HBM segments zeroed since the last reset that reached stacked memory -/
  zeroed : SMap Bool
  /-- segments moved to the front of the order, the last moved first -/
  zeroFront : List Nat
  hostMem : Mem
  flash : Mem
  minSvn : BitVec 7
  revoked : BitVec 4
  keyEra : Nat
  keyDraw : SMap Nat
  /-- tenants whose epoch advance is in progress -/
  advancing : SMap Bool
  cores : SMap HlCore
  /-- core 0 has been released (19 R502) -/
  coresReleased : Bool
  acu : Acu
  funcs : SMap HostFn
  /-- the function whose turn it is to be fetched from, and the chains taken in this turn, by SQ (07 R188) -/
  turnFn : Nat
  turnTaken : SMap Nat
  vfEnable : Bool
  numVfs : BitVec 16
  ops : List Op
  nextOp : Nat
  /-- numbers operations as they end -/
  nextEnd : Nat
  /-- next entry sequence of each internal queue -/
  queueSeq : SMap W32
  /-- owner of cove n: tenant -/
  coveOwner : SMap Byte
  /-- coves being cleared after a change of owner (07 R207) -/
  coveClearing : SMap Bool
  vctxOwner : SMap Byte
  changeSet : Option ChangeSet
  reqs : SMap Req
  nextRid : BitVec 16
  /-- TBC of the class 5 records of the last hour, newest first (20 R526) -/
  class5 : List W64
  /-- corrected errors of each source in the present window of R534 and the one before, by 256 × window + source -/
  corrections : SMap Nat
  /-- first addresses of the poisoned strand words whose record has been written (20 R535) -/
  wordsRecorded : SMap Bool
  /-- tenants whose TEN_STATE.STOP was written while the device was fenced: it applies after the reset (20 R543) -/
  stopsHeld : List Nat
  /-- ERR_IMPORT words received so far (20 R537) -/
  importBuf : List W64
  /-- queues whose engine is in reset (08 R238 and its like) -/
  resetting : SMap Bool
  strands : SMap StrandCore
  vctxs : SMap Vctx
  pipes : SMap VidPipe
  /-- walk of the gather engine of each cove -/
  walks : SMap WalkRun
  tables : SMap Tbl
  /-- lookups in progress -/
  bound : List Bound
  /-- UPDATEs in progress (11 R313) -/
  updates : List UpdateRun
  /-- rows held while an UPDATE modifies them (11 R315) -/
  rowHolds : List RowHold
  /-- hot-row directory, by entry number -/
  dir : SMap DirEntry
  /-- skew counters of this window, and those of the last complete window, by 32 × table + shard -/
  skewNow : SMap Nat
  skewLast : SMap Nat
  /-- candidate pairs (row, count) by 32 × table + shard: 16 each -/
  skewPairs : SMap (List (Nat × Nat))
  dtas : SMap Dta
  hbm : Hbm
  ports : SMap Port
  /-- barrier objects; owner, BUSY and generation stand in FAB_BARb -/
  objects : SMap CollObj
  /-- the fabric reference clock runs; else the TBC at which it was lost (21 R565) -/
  fabClk : Bool
  fabClkLostAt : W64
  /-- tray position, tray and rack that the TMC delivered (18 R467) -/
  place : Option (Nat × Nat × Nat)
  /-- plan text received since the last PLAN_END or reset (21 R550) -/
  planText : List Byte
  /-- the rows of the committed cabling plan that concern the device -/
  plan : Option Plan
  power : Power
  /-- operations that the governor has held and that have not begun (17 R449) -/
  heldOps : List Nat
  system : System
  boot : Boot
  /-- records held for the TMC, oldest first (21 R552) -/
  tmcHeld : List (List Byte)
  /-- register offset and width that REG_ADDR named (21 R550) -/
  regAddr : Nat × Nat
  jtag : Jtag
  deriving DecidableEq, Repr

/-- Right after power-on reset, before anything has happened. -/
def State.reset : State :=
  { pending := [], freeCtr := 0, out := [], tbc := 0
    time := ⟨false, 0, none, [], [], 0, true⟩
    regs := [(Reg.suStatus, 0x1040)], mem := [], tags := [], poison := [], zeroed := [], zeroFront := [], hostMem := [], flash := []
    minSvn := 0, revoked := 0, keyEra := 0, keyDraw := [], advancing := []
    cores := [], coresReleased := false
    acu := { bank0 := [(0, ⟨0, 0x001FFFFFFFFFFFC0, 0x011F0003⟩), (1, ⟨0x0020000000000000, 0x003FFFFFFFFFFFC0, 0x00130003⟩)],
             bank1 := [], bad0 := [], bad1 := [], active := false, pending := false, released := false, deadline := 0,
             draining := false, epoch := 0, writeback := [] }
    funcs := [], turnFn := 128, turnTaken := [], vfEnable := false, numVfs := 0, ops := [], nextOp := 0, nextEnd := 0, queueSeq := []
    coveOwner := [], coveClearing := [], vctxOwner := [], changeSet := none, reqs := [], nextRid := 0
    class5 := [], corrections := [], wordsRecorded := [], stopsHeld := [], importBuf := []
    resetting := []
    strands := []
    vctxs := [], pipes := []
    walks := []
    tables := [], bound := [], updates := [], rowHolds := [], dir := [], skewNow := [], skewLast := [], skewPairs := []
    dtas := []
    hbm := hbmReset
    ports := [], objects := []
    fabClk := true, fabClkLostAt := 0
    place := none, planText := [], plan := none
    power := powerReset, heldOps := []
    system := { homeTray := 0, homePos := 0, homeKnown := false, records := [], returned := 0, toReturn := 0, trays := [], rack := rackReset }
    boot := bootReset
    tmcHeld := []
    regAddr := (0, 4), jtag := ⟨1, 0⟩
  }

end Sys2Proof.Machine
end

