-- ==== Sys2Proof/Machine/Exa.lean ====
section
/-! DEFINITION. EXA144, exact sums and output conversion (spec 12 R332 to R337; 13 R352 to R361). -/

namespace Sys2Proof.Machine

/-- An EXA144 value: finite in units of 2^-48, or a class (12 R332). -/
inductive Exa where
  | fin (x : Int)
  | inf (neg : Bool)
  | nan
  deriving DecidableEq, Repr

/-- Range of a finite EXA144 value. -/
def exaInRange (x : Int) : Bool := decide (-(2 ^ 143 : Int) ≤ x) && decide (x < 2 ^ 143)

/-- Read a 192-bit word (12 R334): a malformed word is NaN and raises invalid. -/
def exaRead (w : Nat) : Exa × FFlags :=
  let low : Nat := w % 2 ^ 144
  let top : Nat := w / 2 ^ 144 % 2 ^ 48
  let neg : Bool := low.testBit 143
  if top = (if neg then 2 ^ 48 - 1 else 0) then
    (.fin (if neg then Int.ofNat low - ((2 ^ 144 : Nat) : Int) else Int.ofNat low), 0)
  else if low = 0 && top = 1 then (.inf false, 0)
  else if low = 0 && top = 2 then (.inf true, 0)
  else if low = 0 && top = 3 then (.nan, 0)
  else (.nan, flInvalid)

/-- The 192-bit word of a value. -/
def exaWord : Exa → Nat
  | .fin x => (BitVec.ofInt 192 x).toNat
  | .inf false => 2 ^ 144
  | .inf true => 2 * 2 ^ 144
  | .nan => 3 * 2 ^ 144

/-- The 32 bytes of a value in memory. -/
def exaBytes (v : Exa) : List Byte := toBytes 24 (exaWord v) ++ toBytes 8 0

/-- A finite result, or the class of its sign's infinity with overflow when it leaves the range. -/
def exaFit (x : Int) : Exa × FFlags :=
  if exaInRange x then (.fin x, 0) else (.inf (decide (x < 0)), flOverflow)

/-- Exact addition with the classes of 13 R356. -/
def exaAdd (a b : Exa) : Exa × FFlags :=
  match a, b with
  | .nan, _ => (.nan, 0)
  | _, .nan => (.nan, 0)
  | .inf x, .inf y => if x = y then (.inf x, 0) else (.nan, flInvalid)
  | .inf x, .fin _ => (.inf x, 0)
  | .fin _, .inf y => (.inf y, 0)
  | .fin x, .fin y => exaFit (x + y)

/-- An exact value as a float value, for conversion; an exact zero is +0. -/
def exaVal : Exa → FVal
  | .fin x => .fin (decide (x < 0)) x.natAbs (-48)
  | .inf n => .inf n
  | .nan => .nan false

/- Lanes: sums in any order -/

/-- Add one exact summand, a product or an element, to a lane (13 R356, R357). -/
def laneAddExact (l : Lane) (p : FVal × FFlags) : Lane :=
  match p.1 with
  | .fin n m e =>
    let x : Int := if 0 ≤ e + 48 then ((m * 2 ^ (e + 48).toNat : Nat) : Int) else ((m / 2 ^ (-(e + 48)).toNat : Nat) : Int)
    { l with sum := l.sum + (if n then -x else x), flags := l.flags ||| p.2 }
  | .inf false => { l with pos := true, flags := l.flags ||| p.2 }
  | .inf true => { l with neg := true, flags := l.flags ||| p.2 }
  | .nan _ => { l with nan := true, flags := l.flags ||| p.2 }

/-- A lane that starts from a C input. -/
def laneOfExa (v : Exa × FFlags) : Lane :=
  match v.1 with
  | .fin x => { laneZero with sum := x, flags := v.2 }
  | .inf false => { laneZero with pos := true, flags := v.2 }
  | .inf true => { laneZero with neg := true, flags := v.2 }
  | .nan => { laneZero with nan := true, flags := v.2 }

/-- The exact value of a lane with its flags: invalid when its summands include both infinities, overflow when the sum
leaves the range. -/
def laneExa (l : Lane) : Exa × FFlags :=
  if l.pos && l.neg then (.nan, l.flags ||| flInvalid)
  else if l.nan then (.nan, l.flags)
  else if l.pos then (.inf false, l.flags)
  else if l.neg then (.inf true, l.flags)
  else
    let (v, fl) := exaFit l.sum
    (v, l.flags ||| fl)

/- Partial sums on their way between devices (13 R356, R357) -/

/-- The word of a lane that holds a partial sum: as in memory, but a NaN keeps in its two lowest bits which infinities are among
its summands, so that the order of the sum does not matter. -/
def partialWord (l : Lane) : Nat :=
  if l.nan || (l.pos && l.neg) then 3 * 2 ^ 144 + (if l.pos then 1 else 0) + (if l.neg then 2 else 0) else exaWord (laneExa l).1
/-- The lane of a partial word. -/
def partialLane (w : Nat) : Lane :=
  if w / 2 ^ 144 = 3 then { laneZero with nan := true, pos := w.testBit 0, neg := w.testBit 1 } else laneOfExa ((exaRead w).1, 0)
/-- Two partial sums together: invalid when only together they include both infinities, overflow when their sum leaves the
range. -/
def partialAdd (a b : Nat) : Nat × FFlags :=
  let x := partialLane a
  let y := partialLane b
  let l : Lane := { laneZero with sum := x.sum + y.sum, pos := x.pos || y.pos, neg := x.neg || y.neg, nan := x.nan || y.nan }
  (partialWord l,
    if l.pos && l.neg then (if (x.pos && x.neg) || (y.pos && y.neg) then 0 else flInvalid) else (laneExa l).2)

/- Output conversion (12 R336; 13 R359) -/

/-- The output formats of 12 R343: floats by code. -/
def outFloat : Nat → Option FloatFmt
  | 0 => some fp32 | 1 => some fp16 | 2 => some bf16 | 3 => some e4m3 | 4 => some e5m2 | _ => none
/-- Bytes of one output. -/
def outBytes : Nat → Nat
  | 0 => 4 | 1 => 2 | 2 => 2 | 3 => 1 | 4 => 1 | 5 => 1 | 6 => 2 | 7 => 4 | _ => 32

/-- A value times 2^k. -/
def fScale (v : FVal) (k : Int) : FVal :=
  match v with
  | .fin n m e => .fin n m (e + k)
  | x => x

/-- Convert to a float format. -/
def convertFloat (f : FloatFmt) (ovf : Bool) (v : FVal) : Nat × FFlags :=
  match v with
  | .nan _ => (fmtNaN f, 0)
  | .inf n =>
    if ovf then (fmtMaxEnc f n, flOverflow ||| flInexact)
    else if f.ieee then (fmtInf f n, 0)
    else (fmtSign f n + fmtNaN f, flOverflow)
  | .fin n m e => fRound f 0 ovf n m e false

/-- Convert to a signed integer of `w` bits: it always saturates. -/
def convertInt (w : Nat) (v : FVal) : Nat × FFlags :=
  let (x, sat, fl) := fToInt w true 0 v
  ((BitVec.ofInt w x).toNat,
    match v with
    | .nan _ => flInvalid
    | _ => if sat then flOverflow ||| flInexact else fl)

/-- Convert to EXA144: exact, but for a mean, which rounds to the nearest multiple of 2^-48, ties to even. -/
def convertExa (v : FVal) : Exa × FFlags :=
  match v with
  | .nan _ => (.nan, 0)
  | .inf n => (.inf n, 0)
  | .fin n m e =>
    let (r, inexact) := roundAt 0 n m e false (-48)
    (.fin (if n then -(r : Int) else r), if inexact then flInexact else 0)

/-- One output: its bytes, its flags, and whether conversion raised overflow. -/
def convertOut (fmt : Nat) (ovf : Bool) (v : FVal) : List Byte × FFlags :=
  match outFloat fmt with
  | some f =>
    let (x, fl) := convertFloat f ovf v
    (toBytes (outBytes fmt) x, fl)
  | none =>
    if fmt < 8 then
      let (x, fl) := convertInt (8 * outBytes fmt) v
      (toBytes (outBytes fmt) x, fl)
    else
      let (x, fl) := convertExa v
      (exaBytes x, fl)

/-- Flags as completions report them (12 R346): inexact, underflow, overflow, invalid. -/
def flagBits (f : FFlags) : Nat := f.toNat % 8 + (if bitAt f 4 then 8 else 0)

/-- An exact value divided by a count, kept as an exact numerator with a sticky last bit, 200 bits below the lane's
unit. -/
def exaMean (v : Exa) (count : Nat) : FVal :=
  match v with
  | .fin x =>
    let n := x.natAbs * 2 ^ 200
    .fin (decide (x < 0)) (2 * (n / count) + (if n % count = 0 then 0 else 1)) (-249)
  | .inf n => .inf n
  | .nan => .nan false

/- Elements -/

/-- The input formats of 12 R343. -/
def inFloat : Nat → Option FloatFmt
  | 2 => some e4m3 | 3 => some e5m2 | 4 => some fp16 | 5 => some bf16 | 6 => some fp32 | _ => none
/-- Bytes of an input element. -/
def inBytes : Nat → Nat
  | 0 => 1 | 1 => 2 | 2 => 1 | 3 => 1 | 4 => 2 | 5 => 2 | _ => 4
/-- An integer as a float value. -/
def valOfInt (x : Int) : FVal := .fin (decide (x < 0)) x.natAbs 0
/-- The value of an encoded element; -0 enters an exact sum as 0. -/
def inValue (fmt : Nat) (unsigned : Bool) (x : Nat) : FVal :=
  match inFloat fmt with
  | some f => fDecode f x
  | none =>
    let w := 8 * inBytes fmt
    valOfInt (if unsigned then (x : Int) else (BitVec.ofNat w x).toInt)
/-- The encoded elements of a run of bytes. -/
def splitElems (size : Nat) : Nat → List Byte → List Nat
  | 0, _ => []
  | n + 1, bs => ofBytes (bs.take size) :: splitElems size n (bs.drop size)

/- Memory-side and collective adds (13 R360, R361), formats as MSADD codes them: int32, int64, fp32, bf16, EXA144 -/

/-- Bytes of one element. -/
def addBytes : Nat → Nat
  | 0 => 4 | 1 => 8 | 2 => 4 | 3 => 2 | _ => 32
/-- Combine two encoded elements. -/
def addElems (fmt : Nat) (a b : Nat) : Nat × FFlags :=
  match fmt with
  | 0 => ((a + b) % 2 ^ 32, 0)
  | 1 => ((a + b) % 2 ^ 64, 0)
  | 2 => fAdd fp32 0 a b
  | 3 => fAdd bf16 0 a b
  | _ =>
    let x := exaRead (a % 2 ^ 192)
    let y := exaRead (b % 2 ^ 192)
    let r := exaAdd x.1 y.1
    (exaWord r.1, r.2 ||| x.2 ||| y.2)

end Sys2Proof.Machine
end

