-- ==== Sys2Proof/Machine/Ops.lean ====
section
/-! DEFINITION. The named operations over registers, memory, tags, poison, error records and interrupts that every
meaning is written with. -/

namespace Sys2Proof.Machine

/- Registers -/

/-- A register of the PF window. -/
def regGet (s : State) (off : Nat) : W64 := sget regReset s.regs off
/-- A register of function `fn`'s window (0: PF). -/
def regGetFn (s : State) (fn off : Nat) : W64 := sget regReset s.regs (regKey fn off)
/-- Set a register of function `fn`'s window. -/
def regSetFn (s : State) (fn off : Nat) (v : W64) : State :=
  { s with regs := sset regReset s.regs (regKey fn off) v }
/-- Set a register of the PF window. -/
def regSet (s : State) (off : Nat) (v : W64) : State := regSetFn s 0 off v
/-- A field of a register of the PF window, as a number. -/
def regFld (s : State) (off lo w : Nat) : Nat := (fld (regGet s off) lo w).toNat
/-- A bit of a register of the PF window. -/
def regBit (s : State) (off i : Nat) : Bool := bitAt (regGet s off) i
/-- Replace a field of a register of function `fn`. -/
def regSetFldFn (s : State) (fn off lo w v : Nat) : State :=
  regSetFn s fn off (setFld (regGetFn s fn off) lo (BitVec.ofNat w v))
/-- Replace a field of a register of the PF window. -/
def regSetFld (s : State) (off lo w v : Nat) : State := regSetFldFn s 0 off lo w v
/-- Set bits of a register of the PF window. -/
def regOr (s : State) (off mask : Nat) : State := regSet s off (regGet s off ||| BitVec.ofNat 64 mask)
/-- Clear bits of a register of the PF window. -/
def regClr (s : State) (off mask : Nat) : State := regSet s off (regGet s off &&& ~~~BitVec.ofNat 64 mask)
/-- Add to a saturating counter register of `w` bits. -/
def regSatAdd (s : State) (off w n : Nat) : State :=
  regSet s off (BitVec.ofNat 64 (satAdd w (regGet s off).toNat n))
/-- Add to a saturating counter register of function `fn`. -/
def regSatAddFn (s : State) (fn off w n : Nat) : State :=
  regSetFn s fn off (BitVec.ofNat 64 (satAdd w (regGetFn s fn off).toNat n))
/-- Add to a wrapping counter register of 64 bits. -/
def regWrapAdd (s : State) (off n : Nat) : State := regSet s off (regGet s off + BitVec.ofNat 64 n)

/-- What a write of `v` leaves in a register (00 R8 to R10): a field whose written encoding is reserved keeps its value,
bits written as 1 clear W1C bits, and every other bit that is not RW stays. -/
def regStored (r : RegRow) (old v : W64) : W64 :=
  let kept : Nat := r.ranges.foldl (fun m f =>
    let x := v.toNat / 2 ^ f.1 % 2 ^ f.2.1
    if f.2.2.1 ≤ x && x ≤ f.2.2.2 then m else m ||| ((2 ^ f.2.1 - 1) * 2 ^ f.1)) 0
  let take := BitVec.ofNat 64 r.rw &&& ~~~BitVec.ofNat 64 kept
  (((old &&& ~~~take) ||| (v &&& take)) &&& ~~~(v &&& BitVec.ofNat 64 r.w1c))
/-- Store a value into a register by its access types; other offsets take nothing. -/
def regWriteFn (s : State) (fn off : Nat) (v : W64) : State :=
  match regRowAt fn off with
  | some r => regSetFn s fn off (regStored r (regGetFn s fn off) v)
  | none => s

/-- ID_PLACE.VALID (01 R25). -/
def placeValid (s : State) : Bool := regBit s Reg.idPlace 31
/-- ID_PLACE.DEVICE, which reads 0 until VALID (01 R25). -/
def deviceNo (s : State) : Nat := regFld s Reg.idPlace 0 10
/-- ERR_STATUS.FENCED (20 R540). -/
def fenced (s : State) : Bool := regBit s Reg.errStatus 0
/-- TB_STATUS.ALIGNED. -/
def alignedNow (s : State) : Bool := regBit s Reg.tbStatus 1

/-- Signed nanoseconds from the instant `t` to now. The load of the first alignment can lower the TBC below the length of a
time already measured (02 R42), so instants that Vesol itself measures from wrap, and are compared by the sign of their distance
(log entry 24). -/
def sinceTbc (s : State) (t : W64) : Int := (s.tbc - t).toInt
/-- Nanoseconds that have passed since the instant `t`. -/
def elapsed (s : State) (t : W64) : Nat := (sinceTbc s t).toNat
/-- The TBC has reached the instant `t`. -/
def reached (s : State) (t : W64) : Bool := decide (0 ≤ sinceTbc s t)
/-- The TBC has passed the instant `t`. -/
def passed (s : State) (t : W64) : Bool := decide (0 < sinceTbc s t)

/-- A TBC stamp counts as aligned (02 R43): ALIGNED holds, and a device in holdover is not past its 20 ms. -/
def stampAligned (s : State) : Bool :=
  alignedNow s && !(regBit s Reg.tbStatus 3 && decide (20000000 ≤ elapsed s s.time.lastFlit))

/-- A fresh free value: the opaque stream at the counter, which the step advances (log entry 4). -/
def freeNext (s : State) : BitVec 64 × State := (Config.freeValue s.freeCtr, { s with freeCtr := s.freeCtr + 1 })

/-- Append to what the block has sent. -/
def emit (s : State) (o : Out) : State := { s with out := s.out ++ [o] }

/- Fabric ports and flits -/

/-- Port `p`'s link state. -/
def portOf (s : State) (p : Nat) : Port := sget (fun _ => portReset) s.ports p
/-- Replace port `p`. -/
def setPort (s : State) (p : Nat) (x : Port) : State := { s with ports := sset (fun _ => portReset) s.ports p x }
/-- No credit is owed. -/
def owedDflt (_ : Nat) : Nat := 0
/-- The lowest virtual channel whose receive buffers a port has freed, and how many. -/
def owedNext (x : Port) : Option (Nat × Nat) :=
  ((List.range 5).map (fun c => (c, sget owedDflt x.owed c))).find? (fun e => e.2 != 0)
/-- The port owes those credits no more: a flit has returned them. -/
def creditsGone (x : Port) : Port :=
  match owedNext x with
  | some e => { x with owed := sset owedDflt x.owed e.1 0 }
  | none => x
/-- The next flit of a port (15 R392, R393): it acknowledges what came in order, and returns the credits of one channel
(log entry 18). SEQ and VC are those of a message flit. -/
def flitOf (x : Port) (kind seq vc : Nat) (body : List Byte) : Flit :=
  let e := (owedNext x).getD (0, 0)
  { kind := BitVec.ofNat 4 kind, seq := BitVec.ofNat 12 seq, ack := BitVec.ofNat 12 x.rxSeq, cvc := BitVec.ofNat 3 e.1,
    credits := BitVec.ofNat 8 e.2, vc := BitVec.ofNat 3 vc, body := body }
/-- Send a flit by a port. -/
def sendFlit (s : State) (p kind seq vc : Nat) (body : List Byte) : State :=
  emit (setPort s p (creditsGone (portOf s p))) (.flit p (flitOf (portOf s p) kind seq vc body))

/- Local address map -/

/-- The ranges of the local address map (03 R81). -/
inductive Region where
  | hbm
  | cove (n : Nat)
  | strandX (n : Nat)
  | strandY (n : Nat)
  | strandP (n : Nat)
  | vcu
  | vectors
  | setup
  | host
  | none
  deriving DecidableEq, Repr

/-- Where a local address (54 bits) lies (03 R81, R82). -/
def regionOf (a : Nat) : Region :=
  if a ≥ 0x20000000000000 then .host
  else if a < 0x3000000000 then .hbm
  else if 0x4000000000 ≤ a ∧ a < 0x4040000000 then
    if (a - 0x4000000000) % 0x2000000 < 0x1800000 then .cove ((a - 0x4000000000) / 0x2000000) else .none
  else if 0x4800000000 ≤ a ∧ a < 0x4801000000 then
    let o := (a - 0x4800000000) % 0x40000
    let n := (a - 0x4800000000) / 0x40000
    if o < 0x10000 then .strandX n else if o < 0x20000 then .strandY n else if o < 0x28000 then .strandP n else .none
  else if 0x5000000000 ≤ a ∧ a < 0x5010000000 then .vcu
  else if 0x6000000000 ≤ a ∧ a < 0x6000000400 then .vectors
  else if 0x6000010000 ≤ a ∧ a < 0x6010000000 then .setup
  else .none

/-- First local address of cove `n`'s memory. -/
def coveBase (n : Nat) : Nat := 0x4000000000 + n * 0x2000000
/-- First local address of strand core `n`'s X memory; Y follows at 0x1_0000, program at 0x2_0000. -/
def strandBase (n : Nat) : Nat := 0x4800000000 + n * 0x40000
/-- Bit 53: host bus space. -/
def hostBit : Nat := 0x20000000000000

/-- The region stores a tag per granule (03 R65). -/
def hasTags : Region → Bool
  | .hbm => true
  | .cove _ => true
  | _ => false

/-- First address and size of the poison unit that holds a local address: HBM unit, cove granule, strand word
(14 R371, 20 R529, 08 R245). -/
def unitOf (a : Nat) : Nat × Nat :=
  match regionOf a with
  | .hbm => (alignDown a 32, 32)
  | .cove _ => (alignDown a 16, 16)
  | .strandX _ => (alignDown a 2, 2)
  | .strandY _ => (alignDown a 2, 2)
  | .strandP _ => (alignDown a 4, 4)
  | _ => (a, 1)

/- HBM stacks and segments -/

/-- The stack that a local HBM address maps to (14 R367). -/
def stackOf (s : State) (a : Nat) : Nat :=
  let l := regFld s Reg.hbmConfig 8 5
  let i := 8 * (24 - l) * 2 ^ 30
  if a < i then ((a >>> 8) % 8) ^^^ ((a >>> 19) % 8) ^^^ ((a >>> 30) % 8)
  else (a - i) / (l * 2 ^ 30)

/-- The address within its stack (14 R367). -/
def stackAddr (s : State) (a : Nat) : Nat :=
  let l := regFld s Reg.hbmConfig 8 5
  let i := 8 * (24 - l) * 2 ^ 30
  if a < i then ((a >>> 11) <<< 8) ||| (a % 256)
  else (24 - l) * 2 ^ 30 + (a - i) % (l * 2 ^ 30)

/-- Pseudo-channel of an address (14 R367). -/
def pseudoChannel (s : State) (a : Nat) : Nat :=
  let sa := stackAddr s a
  ((sa >>> 8) % 32) ^^^ ((sa >>> 21) % 32)

/-- HBM_TEMPs.STATE of a stack: 0 Normal, 1 Throttle, 2 Critical, 3 Offline. -/
def stackState (s : State) (n : Nat) : Nat := regFld s (Reg.hbmTemp n) 12 2

/-- The stack is offline (14 R380); before its training every stack reads Offline and no access reaches it. -/
def stackOffline (s : State) (n : Nat) : Bool := s.hbm.trained && stackState s n == 3

/-- The segment of an HBM address (14 R374). -/
def segmentOf (a : Nat) : Nat := a / 0x4000000

/-- A line of [a, a + n) is still being written back after a switch of the access control unit: an access to it waits
(04 R111). -/
def acuHoldsLine (s : State) (a n : Nat) : Bool :=
  s.acu.writeback.any (fun p => decide (alignDown p.1 64 < a + n) && decide (a ≤ p.2))

/-- The islands that a rail feeds have stopped in its dip (17 R456). -/
def railStopped (s : State) (rail : Nat) : Bool := (sget (fun _ => none) s.power.dips rail).any (fun d => d.stopped)
/-- VPHY's islands have stopped: neither the host link nor a port carries anything. -/
def phyStopped (s : State) : Bool := railStopped s 1
/-- The host link stands still: its island has stopped, or the link has not returned to L0 since (17 R456). -/
def linkPaused (s : State) : Bool := phyStopped s || s.power.pcieBy.isSome
/-- The host port carries memory transactions: the link is up, not in configuration only (07 R175), and does not stand still. -/
def hostLinkUp (s : State) : Bool := regBit s Reg.hpLink 8 && !regBit s Reg.hpLink 10 && !linkPaused s

/-- Can an access to this local address proceed now? An access to a line still being written back waits (04 R111), one to an
HBM segment not yet zeroed waits (14 R374), one to a stack in Critical or in self refresh waits (14 R382, R386), one to a cove
being cleared waits (07 R207), and one in host bus space waits while the host port carries no memory transactions (07 R175;
DESIGN CHOICE, log entry 8). An offline stack answers poison. -/
def accessReady (s : State) (a : Nat) : Bool :=
  !acuHoldsLine s a 1 &&
  match regionOf a with
  | .hbm =>
    stackOffline s (stackOf s a) ||
    (sget (fun _ => false) s.zeroed (segmentOf a) && stackState s (stackOf s a) != 2 &&
      !sget (fun _ => false) s.hbm.held (stackOf s a))
  | .cove n => !sget (fun _ => false) s.coveClearing n
  | .host => hostLinkUp s
  | _ => true

/-- An access that waits moves its segment to the front of the zeroing order (14 R374). -/
def askSegment (s : State) (a : Nat) : State :=
  if regionOf a = .hbm && !sget (fun _ => false) s.zeroed (segmentOf a) && !s.zeroFront.contains (segmentOf a) then
    { s with zeroFront := segmentOf a :: s.zeroFront }
  else s

/- Bytes, tags, poison -/

/-- What an unlisted byte of local or host memory reads as (19 R507; log entry 6 for host memory). -/
def memDflt (_ : Nat) : Byte := 0
/-- An unlisted tag or mark is clear. -/
def markDflt (_ : Nat) : Bool := false

/-- One byte of local memory. -/
def memByte (s : State) (a : Nat) : Byte := sget memDflt s.mem a
/-- One byte of host memory as last known, by host bus address. -/
def hostByte (s : State) (a : Nat) : Byte := sget memDflt s.hostMem a
/-- `n` bytes of local memory. -/
def memBytes (s : State) (a n : Nat) : List Byte := (List.range n).map (fun i => memByte s (a + i))
/-- `n` bytes of host memory. -/
def hostBytes (s : State) (a n : Nat) : List Byte := (List.range n).map (fun i => hostByte s (a + i))
/-- The tag of the granule that holds an address. -/
def tagAt (s : State) (a : Nat) : Bool := sget markDflt s.tags (alignDown a 16)
/-- The poison mark of the unit that holds an address; every unit of an offline stack is poisoned (14 R380). -/
def poisonAt (s : State) (a : Nat) : Bool :=
  sget markDflt s.poison (unitOf a).1 || (regionOf a == .hbm && stackOffline s (stackOf s a))
/-- Some unit of [a, a + n) is poisoned. -/
def poisonIn (s : State) (a n : Nat) : Bool := (List.range n).any (fun i => poisonAt s (a + i))
/-- Offset of the first poisoned byte of [a, a + n). -/
def firstPoison (s : State) (a n : Nat) : Option Nat := (List.range n).find? (fun i => poisonAt s (a + i))

/-- Set one byte of a memory. -/
def setByte (m : Mem) (a : Nat) (b : Byte) : Mem := sset memDflt m a b
/-- Store bytes from an address up. -/
def putBytes (m : Mem) (a : Nat) : List Byte → Mem
  | [] => m
  | b :: bs => putBytes (setByte m a b) (a + 1) bs

/-- Units touched by [a, a + n), as first address and size, ascending. -/
def unitsOf (a n : Nat) : List (Nat × Nat) := ((List.range n).map (fun i => unitOf (a + i))).eraseDups

/-- Clear the tags of the granules that [a, a + n) touches. -/
def clearTags (t : SMap Bool) (a n : Nat) : SMap Bool := if n = 0 then t else sclear t (alignDown a 16) (a + n - alignDown a 16)

/-- Write a plain run of bytes into local memory as R66, 14 R371 and 20 R530 say: a poisoned unit covered whole loses
its poison, a poisoned unit covered in part stays as it is, every other byte is written; tags clear. An offline stack
keeps nothing. -/
def storeUnits (s : State) (a : Nat) (bs : List Byte) : List (Nat × Nat) → State
  | [] => s
  | (u, w) :: us =>
    let n := bs.length
    let lo := max a u
    let hi := min (a + n) (u + w)
    let whole := decide (a ≤ u) && decide (u + w ≤ a + n)
    let s' :=
      if regionOf u = .hbm && stackOffline s (stackOf s u) then s
      else if sget markDflt s.poison u && !whole then s
      else { s with mem := putBytes s.mem lo ((bs.drop (lo - a)).take (hi - lo))
                    tags := clearTags s.tags lo (hi - lo)
                    poison := sset markDflt s.poison u false }
    storeUnits s' a bs us

/-- Every headland cache line of [a, a + n) is invalidated in every core but `keep` (05 R133). -/
def dropLines (s : State) (keep : Option Nat) (a n : Nat) : State :=
  let lo := alignDown a 64
  let len := a + n - lo
  let step (st : State) (k : Nat) : State :=
    let c := sget coreDefault st.cores k
    if sanyIn c.dcache lo len || sanyIn c.icache lo len then
      let c' : HlCore := { c with dcache := if keep = some k then c.dcache else sclear c.dcache lo len
                                  icache := sclear c.icache lo len }
      { st with cores := sset coreDefault st.cores k c' }
    else st
  (List.range 16).foldl step s

/-- A data write of `bs` at local address `a` by an agent other than a headland core. -/
def storeLocal (s : State) (a : Nat) (bs : List Byte) : State :=
  if bs = [] then s else dropLines (storeUnits s a bs (unitsOf a bs.length)) none a bs.length

/-- A capability store of 16 bytes and a tag at a granule with tag storage (03 R67). A CST into a poisoned HBM unit
covers half of it, so the unit stays poisoned (14 R371); a cove granule is covered whole. -/
def storeCap (s : State) (a : Nat) (c : Cap) : State :=
  let s1 := storeUnits s a (toBytes 16 c.bits.toNat) (unitsOf a 16)
  if poisonAt s1 a then s1 else { s1 with tags := sset markDflt s1.tags (alignDown a 16) c.tag }

/-- The 16 bytes at an address with the granule's tag. -/
def loadCap (s : State) (a : Nat) : Cap := ⟨hasTags (regionOf a) && tagAt s a, BitVec.ofNat 128 (ofBytes (memBytes s a 16))⟩

/-- Mark a unit poisoned; its tags read clear (03 R93). -/
def poisonUnit (s : State) (a : Nat) : State :=
  let u := unitOf a
  { s with poison := sset markDflt s.poison u.1 true, tags := clearTags s.tags u.1 u.2 }

/-- Host memory with bytes stored. -/
def putHost (s : State) (a : Nat) (bs : List Byte) : State := { s with hostMem := putBytes s.hostMem a bs }
/-- Host memory write by an agent other than a headland core: cached copies of its lines leave every core (05 R133). -/
def storeHost (s : State) (a : Nat) (bs : List Byte) : State := dropLines (putHost s a bs) none (hostBit + a) bs.length

/- Interrupts and MSI-X -/

/-- Set a bit of INT_PENDn, whatever the masks (06 R167). -/
def setPend (s : State) (core bit : Nat) : State := regOr s (Reg.intPend core) (2 ^ bit)

/-- Send MSI-X vector `v` of function `fn`, or set its pending bit while it is masked (07 R201), or while the host port carries
no memory writes (07 R175; DESIGN CHOICE, log entry 8). -/
def sendMsix (s : State) (fn v : Nat) : State :=
  if bitAt (regGetFn s fn (Reg.msixCtrl v)) 0 || !hostLinkUp s then
    regSetFn s fn Reg.msixPba (regGetFn s fn Reg.msixPba ||| BitVec.ofNat 64 (2 ^ v))
  else
    emit s (.msix fn v ((regGetFn s fn (Reg.msixAddrHi v) <<< 32) ||| regGetFn s fn (Reg.msixAddrLo v))
      ((regGetFn s fn (Reg.msixData v)).setWidth 32))

/-- Set bits of SQ_STATUS, CQ_STATUS or HP_ERR: vector 16 goes out once for each bit that rises (07 R201). -/
def raiseStatus (s : State) (fn off mask : Nat) : State :=
  let old := (regGetFn s fn off).toNat
  let rising := (List.range 32).filter (fun i => mask.testBit i && !old.testBit i)
  let s1 := regSetFn s fn off (BitVec.ofNat 64 (old ||| mask))
  rising.foldl (fun st _ => sendMsix st fn 16) s1

/- Error records -/

/-- The CRC-32 of 15 R392 over one more byte. -/
def crcByte (crc : BitVec 32) (b : Byte) : BitVec 32 :=
  let go (c : BitVec 32) (_ : Nat) : BitVec 32 :=
    if bitAt c 0 then (c >>> 1) ^^^ 0xEDB88320#32 else c >>> 1
  (List.range 8).foldl go (crc ^^^ b.setWidth 32)

/-- CRC-32 as 15 R392 defines it. -/
def crc32 (bs : List Byte) : BitVec 32 := ~~~(bs.foldl crcByte 0xFFFFFFFF#32)

/-- The 128 bytes of a flit (15 R392). -/
def flitBytes (f : Flit) : List Byte :=
  let link := f.kind.toNat + f.seq.toNat * 2 ^ 4 + f.ack.toNat * 2 ^ 16 + f.cvc.toNat * 2 ^ 28 + f.credits.toNat * 2 ^ 32 +
    f.vc.toNat * 2 ^ 40
  let b := toBytes 8 link ++ bytesAt f.body 0 112 ++ toBytes 4 0
  b ++ toBytes 4 (crc32 b).toNat
/-- Bytes 8 to 119 of a message flit: the header of 15 R406 and the payload. -/
def msgBytes (m : Msg) : List Byte :=
  let bit (b : Bool) : Nat := if b then 1 else 0
  toBytes 16 (m.dest.toNat + m.src.toNat * 2 ^ 10 + m.tenant.toNat * 2 ^ 20 + m.type.toNat * 2 ^ 28 + m.dirs.toNat * 2 ^ 34 +
    m.addr.toNat * 2 ^ 40 + m.len.toNat * 2 ^ 94 + bit m.tag * 2 ^ 101 + bit m.poison * 2 ^ 102 + m.rid.toNat * 2 ^ 103 +
    m.status.toNat * 2 ^ 119 + m.op.toNat * 2 ^ 123) ++ m.payload

/-- What an error record says (20 R531), before SEQ, FLAGS, TBC and DEVICE are stamped. -/
structure ErrEvent where
  cls : Nat
  source : Nat
  unit : Nat
  code : Nat
  tenant : Nat
  action : Nat
  addr : Nat
  payload : List Byte
  deriving DecidableEq, Repr

/-- Bytes 0 to 123 of a record, then its CRC (20 R531). -/
def recordBytes (seq cls source unit flags tbc code tenant action device count addr : Nat) (payload : List Byte) :
    List Byte :=
  let b := toBytes 4 seq ++ toBytes 1 cls ++ toBytes 1 source ++ toBytes 1 unit ++ toBytes 1 flags ++ toBytes 8 tbc ++
    toBytes 2 code ++ toBytes 1 tenant ++ toBytes 1 action ++ toBytes 2 device ++ toBytes 2 count ++ toBytes 8 addr ++
    bytesAt payload 0 92
  b ++ toBytes 4 (crc32 b).toNat

/-- Write 128 bytes as sixteen 64-bit registers from offset `off` of function `fn`. -/
def putRecord (s : State) (fn off : Nat) (bs : List Byte) : State :=
  (List.range 16).foldl (fun st i => regSetFn st fn (off + 8 * i) (BitVec.ofNat 64 (numAt bs (8 * i) 8))) s

/-- The 128 bytes of sixteen registers. -/
def getRecord (s : State) (fn off : Nat) : List Byte :=
  ((List.range 16).map (fun i => toBytes 8 (regGetFn s fn (off + 8 * i)).toNat)).flatten

/-- SEQ after `n` (20 R531). -/
def nextSeqNo (n : Nat) : Nat := if n = 0xFFFFFFFF then 1 else n + 1

/-- The window offset of the log slot of record `seq` (20 R536). -/
def logSlot (seq : Nat) : Nat := 0xE8000 + 0x80 * (seq % 256)

/-- Copy a record to the view of tenant `t` (20 R536); payloads of source 1 are zero there. -/
def copyToView (s : State) (t : Nat) (bs : List Byte) : State :=
  let n := ((regGetFn s t Reg.terrCount).toNat + 1) % 2 ^ 32
  let slot := 0x3100 + 0x80 * ((n + 15) % 16)
  let ack := (regGetFn s t Reg.terrAck).toNat
  let s1 := if (n + 2 ^ 32 - ack) % 2 ^ 32 > 16 then regSatAddFn s t Reg.terrOverrun 32 1 else s
  let body := if numAt bs 5 1 = 1 then
      let b := bs.take 32 ++ List.replicate 92 0
      b ++ toBytes 4 (crc32 b).toNat
    else bs
  regSetFn (putRecord s1 t slot body) t Reg.terrCount (BitVec.ofNat 64 n)

/-- The CRC of a record passes (20 R531, R545). -/
def recordGood (r : List Byte) : Bool := numAt r 124 4 == (crc32 (r.take 124)).toNat
/-- Does the event merge with the newest record (20 R533)? Within 1,000,000 TBC units of that record's TBC, on either side of it: the
load of the first alignment may have moved the TBC back (02 R42). A record that has been lost counts as missing (20 R545). -/
def mergesWithNewest (s : State) (e : ErrEvent) : Bool :=
  let seq := (regGet s Reg.errSeq).toNat
  let r := getRecord s 0 (logSlot seq)
  seq != 0 && e.cls < 5 && numAt r 5 1 == e.source && numAt r 6 1 == e.unit && numAt r 16 2 == e.code &&
    numAt r 18 1 == e.tenant && numAt r 24 8 == e.addr &&
    decide ((sinceTbc s (BitVec.ofNat 64 (numAt r 8 8))).natAbs ≤ 1000000) && numAt r 4 1 < 5 && numAt r 4 1 == e.cls && recordGood r

/-- A record with its COUNT raised and MERGED set (20 R533). -/
def mergedBytes (r : List Byte) : List Byte :=
  let b := r.take 7 ++ [(r.getD 7 0) ||| 4] ++ (r.drop 8).take 14 ++
    toBytes 2 (min (numAt r 22 2 + 1) 0xFFFF) ++ (r.drop 24).take 100
  b ++ toBytes 4 (crc32 b).toNat

/-- The record goes to a tenant view (20 R536). -/
def goesToView (s : State) (e : ErrEvent) : Bool :=
  regBit s Reg.errCfg 15 && decide (1 ≤ e.tenant) && decide (e.tenant ≤ 128) &&
    (e.cls == 3 || (e.cls == 2 && (e.source == 1 || e.source == 0x0B)))

/-- Put record `seq` of class `cls` into its slot, and tell its readers (20 R536). -/
def storeRecord (s : State) (seq cls : Nat) (bs : List Byte) : State :=
  let old := getRecord s 0 (logSlot seq)
  let ack := (regGet s Reg.errAck).toNat
  let s1 := if numAt old 0 4 != 0 && decide (ack < numAt old 0 4) then regSatAdd s Reg.errOverrun 32 1 else s
  let s2 := regSet (putRecord s1 0 (logSlot seq) bs) Reg.errSeq (BitVec.ofNat 64 seq)
  if decide (regFld s2 Reg.errCfg 12 3 ≤ cls) then setPend s2 (regFld s2 Reg.errCfg 8 4) 3 else s2

/-- Write a new record of `count` events into the log, and count them (20 R531, R536, R542). -/
def writeRecord (s : State) (e : ErrEvent) (count : Nat) : State :=
  let seq := nextSeqNo (regGet s Reg.errSeq).toNat
  let view := goesToView s e
  let flags := (if stampAligned s then 1 else 0) + (if view then 8 else 0)
  let bs := recordBytes seq e.cls e.source e.unit flags s.tbc.toNat e.code e.tenant e.action (deviceNo s) count e.addr
    e.payload
  let s1 := storeRecord s seq e.cls bs
  let s2 := if view then copyToView s1 e.tenant bs else s1
  let s3 := regSatAdd s2 (Reg.errClass (e.cls - 1)) 32 count
  if e.cls = 4 then regOr s3 Reg.errStatus 2 else s3

/-- Write a record that the TMC returned (20 R537): a new SEQ and CARRIED; it is in no tenant view. -/
def writeCarried (s : State) (r : List Byte) : State :=
  let seq := nextSeqNo (regGet s Reg.errSeq).toNat
  let b := toBytes 4 seq ++ (r.drop 4).take 3 ++ [((r.getD 7 0) &&& 0xF7#8) ||| 2#8] ++ (r.drop 8).take 116
  storeRecord s seq (numAt r 4 1) (b ++ toBytes 4 (crc32 b).toNat)

/-- Rewrite the newest record for one more event, and its view copy if that still stands (20 R533). -/
def mergeRecord (s : State) (e : ErrEvent) : State :=
  let seq := (regGet s Reg.errSeq).toNat
  let r := mergedBytes (getRecord s 0 (logSlot seq))
  let s1 := regSatAdd (putRecord s 0 (logSlot seq) r) (Reg.errClass (e.cls - 1)) 32 1
  if natBit (numAt r 7 1) 3 then
    let n := (regGetFn s1 e.tenant Reg.terrCount).toNat
    let slots := (List.range 16).filter (fun j => numAt (getRecord s1 e.tenant (0x3100 + 0x80 * j)) 0 4 == seq && n != 0)
    slots.foldl (fun st j => putRecord st e.tenant (0x3100 + 0x80 * j) (mergedBytes (getRecord st e.tenant (0x3100 + 0x80 * j)))) s1
  else s1

/-- Record an event of class 1 to 4, merging where 20 R533 says so. -/
def recordEvent (s : State) (e : ErrEvent) : State :=
  if mergesWithNewest s e then mergeRecord s e else writeRecord s e 1

/-- An access-size error of a tenant's access (00 R12, 20 R525, R531, R532). -/
def accessSizeError (s : State) (tenant off size : Nat) (write : Bool) : State :=
  recordEvent s { cls := 3, source := 3, unit := 0, code := 1, tenant := tenant, action := 3, addr := off,
                  payload := toBytes 1 size ++ [if write then 1 else 0] }

end Sys2Proof.Machine
end

