-- ==== Sys2Proof/Machine/Acu.lean ====
section
/-! DEFINITION. The access control unit (spec 04) and who may reach which range (03 R82, R566): the rule check, deny
recording, and the double-buffered table. -/

namespace Sys2Proof.Machine

/-- The agent that makes an access, as ACU_DENY_INFO.AGENT codes it (04 R114). -/
inductive Who where
  | headland
  | ge
  | dta
  | strandDma
  | vcu
  | adder
  | hostPort
  | tideway
  | collective
  | embedding
  /-- the host port, reading the body of a change set (03 R566 names it apart) -/
  | changeSet
  deriving DecidableEq, Repr

/-- AGENT code. -/
def whoCode : Who → Nat
  | .headland => 0 | .ge => 1 | .dta => 2 | .strandDma => 3 | .vcu => 4 | .adder => 5
  | .hostPort => 6 | .tideway => 7 | .collective => 8 | .embedding => 9 | .changeSet => 6

/-- Kinds (04 R101), coded as RULE_ATTR.KINDS: read 1, write 2, execute 4, atomic 8, engine 16. -/
def kRead : BitVec 5 := 1
def kWrite : BitVec 5 := 2
def kExec : BitVec 5 := 4
def kAtomic : BitVec 5 := 8
def kEngine : BitVec 5 := 16

/-- The answer of a rule check: permitted, cache class, order class, deciding rule (0x1FF: none). -/
structure Verdict where
  ok : Bool
  cache : BitVec 2
  order : BitVec 2
  rule : Nat
  deriving DecidableEq, Repr

/-- A deny that no rule decided (R99, R100). -/
def verdictNone : Verdict := ⟨false, 0, 0, 0x1FF⟩

/-- An unlisted rule is disabled. -/
def ruleDflt (_ : Nat) : Rule := ruleZero

/-- Rule `i` of bank 1 (`true`) or bank 0. -/
def acuRule (a : Acu) (bank : Bool) (i : Nat) : Rule := sget ruleDflt (if bank then a.bank1 else a.bank0) i
/-- Parity state of a rule (R117). -/
def acuBad (a : Acu) (bank : Bool) (i : Nat) : Nat := sget (fun _ => 0) (if bank then a.bad1 else a.bad0) i

/-- The rule's selector admits the tenant (tenant selectors table). SEL 0b10 admits the tenants 129 to 255 too, which only a message
that no conforming device sends can name (DESIGN CHOICE, log entry 28). -/
def ruleAdmits (r : Rule) (tenant : Nat) : Bool :=
  match (fld r.attr 0 2).toNat with
  | 0 => false
  | 1 => (fld r.attr 8 8).toNat == tenant
  | 2 => true
  | _ => tenant == 0

/-- The block at `addr` lies within START to END + 63 (R98). -/
def ruleCovers (r : Rule) (addr : Nat) : Bool :=
  decide (r.first.toNat ≤ addr) && decide (addr ≤ r.last.toNat + 63)

/-- Does rule `i` of the bank decide this block? A rule of bad parity matches every tenant in its range (R117). -/
def ruleMatches (a : Acu) (bank : Bool) (tenant addr i : Nat) : Bool :=
  let r := acuRule a bank i
  ruleCovers r addr && (acuBad a bank i != 0 || ruleAdmits r tenant)

/-- The lowest-numbered matching rule (R99). -/
def acuDeciding (a : Acu) (bank : Bool) (tenant addr : Nat) : Option Nat :=
  let listed := (if bank then a.bank1 else a.bank0).map (fun e => e.1)
  let bad := (if bank then a.bad1 else a.bad0).map (fun e => e.1)
  ((listed ++ bad).filter (ruleMatches a bank tenant addr)).min?

/-- The rule check of one block (R97 to R99, R103). -/
def acuVerdict (a : Acu) (bank : Bool) (tenant : Nat) (kinds : BitVec 5) (addr : Nat) : Verdict :=
  match acuDeciding a bank tenant addr with
  | none => verdictNone
  | some i =>
    let r := acuRule a bank i
    let grants : BitVec 5 := if acuBad a bank i != 0 then 0 else fld r.attr 16 5
    let order := fld r.attr 26 2
    ⟨grants &&& kinds == kinds, if order = 2 then 0 else fld r.attr 24 2, order, i⟩

/-- Rules of bad parity that a check consulted and had not found before (R117). -/
def acuConsulted (a : Acu) (bank : Bool) (tenant addr : Nat) : List Nat :=
  let last := (acuDeciding a bank tenant addr).getD 255
  ((if bank then a.bad1 else a.bad0).filter (fun e => e.2 == 1 && decide (e.1 ≤ last))).map (fun e => e.1)

/-- Report the parity error of rule `i` once (R117). The record's TENANT is 0xFF and its ADDR 0, since the error is the
rule's and not the access's that found it (DESIGN CHOICE, log entry 39). -/
def acuFoundBad (s : State) (bank : Bool) (i : Nat) : State :=
  let a := s.acu
  let a' := if bank then { a with bad1 := sset (fun _ => 0) a.bad1 i 2 } else { a with bad0 := sset (fun _ => 0) a.bad0 i 2 }
  recordEvent (regOr { s with acu := a' } Reg.acuErr 2)
    { cls := 4, source := 2, unit := i, code := 1, tenant := 0xFF, action := 4, addr := 0, payload := [] }

/-- Record a deny: address, information and count (R108, R114). -/
def acuDeny (s : State) (who : Who) (tenant : Nat) (kinds : BitVec 5) (rule addr : Nat) : State :=
  let info := tenant + kinds.toNat * 2 ^ 8 + rule * 2 ^ 14 + whoCode who * 2 ^ 23
  regSatAdd (regSet (regSet s Reg.acuDenyAddr (BitVec.ofNat 64 (alignDown addr 64))) Reg.acuDenyInfo (BitVec.ofNat 64 info))
    Reg.acuDenyCount 32 1

/-- The tenant may reach strand core `n`'s memory, and a running core's program memory is not written (08 R220). -/
def strandPermits (s : State) (n tenant : Nat) (program write : Bool) : Bool :=
  let c := sget (fun _ => strandReset) s.strands n
  (tenant == 0 || c.tenant.toNat == tenant) && !(program && write && c.running)

/-- May this kind of agent reach the region at all (03 R82, R566)? `sys`: the authority holds SYS; `write`: the access
writes. An instruction fetch asks execute; a Tideway arrival made by an engine asks engine. -/
def mayReach (s : State) (who : Who) (tenant : Nat) (kinds : BitVec 5) (addr : Nat) (sys write : Bool) : Bool :=
  let fetch := who == .headland && kinds == kExec
  let mover := who == .headland || who == .hostPort || (who == .tideway && kinds &&& kEngine == 0)
  match regionOf addr with
  | .hbm => true
  | .cove _ => true
  | .strandX n => mover && strandPermits s n tenant false write
  | .strandY n => mover && strandPermits s n tenant false write
  | .strandP n => mover && strandPermits s n tenant true write
  | .vcu => who == .headland && !fetch && !write && decide (addr - 0x5000000000 < 0x2000) &&
      (tenant == 0 || (sget (fun _ => (0 : Byte)) s.vctxOwner ((addr - 0x5000000000) / 0x100)).toNat == tenant)
  | .vectors => who == .headland && !write
  | .setup => who == .headland && sys
  | .host => who == .headland || who == .hostPort
  | .none => false

/-- The full check of one block of an access: reach, then rules under the bank; the state records a deny and any
parity error found. An access to set-up registers or fixed vectors is UC and DV (R103). -/
def acuCheckIn (s : State) (bank : Bool) (who : Who) (tenant : Nat) (kinds : BitVec 5) (sys write : Bool) (addr : Nat) :
    Verdict × State :=
  if !mayReach s who tenant kinds addr sys write then (verdictNone, acuDeny s who tenant kinds 0x1FF addr)
  else
    let v := acuVerdict s.acu bank tenant kinds (alignDown addr 64)
    let s1 := (acuConsulted s.acu bank tenant (alignDown addr 64)).foldl (fun st i => acuFoundBad st bank i) s
    let v' := if regionOf addr = .setup || regionOf addr = .vectors then { v with cache := 0, order := 2 } else v
    if v'.ok then (v', s1) else (v', acuDeny s1 who tenant kinds v'.rule addr)

/-- The check against the active bank. -/
def acuCheck (s : State) (who : Who) (tenant : Nat) (kinds : BitVec 5) (sys write : Bool) (addr : Nat) : Verdict × State :=
  acuCheckIn s s.acu.active who tenant kinds sys write addr

/-- Device fields that make an address local (03 R80, 19 R505): this device's own, and 0 while the alias holds for a
headland core at ring 0 or 1 (or before VALID for everyone). -/
def localFabric (s : State) (platformCode : Bool) (addr : Nat) : Bool :=
  let d := addr / 2 ^ 54
  let asZero := regBit s Reg.suStatus 6
  if !placeValid s then d == 0
  else d == deviceNo s && (d != 0 || !asZero || platformCode || deviceNo s == 0) || (d == 0 && asZero && platformCode)

/-- Device fields that can never be reached: another device before VALID (03 R80), device 0 while the alias holds
(19 R505), another device's host bus space (03 R83). -/
def fabricDenied (s : State) (platformCode : Bool) (addr : Nat) : Bool :=
  let d := addr / 2 ^ 54
  !localFabric s platformCode addr &&
    (!placeValid s || natBit addr 53 || (d == 0 && regBit s Reg.suStatus 6))

/-- Are the shadow's writes and commands discarded now (R112)? -/
def acuShadowBusy (s : State) : Bool := s.acu.pending || s.acu.draining

/-- A change set with an ACU entry is between its step 2 and step 6 (R112, 07 R208). -/
def acuHeldByChangeSet (s : State) : Bool :=
  match s.changeSet with
  | some c => c.entries.any (fun e => e.kind == 1)
  | none => false

/-- The bank that set-up registers reach. -/
def acuShadow (s : State) : SMap Rule := if s.acu.active then s.acu.bank0 else s.acu.bank1

/-- Replace the shadow bank; its parity is good again. -/
def acuSetShadow (s : State) (m : SMap Rule) : State :=
  { s with acu := if s.acu.active then { s.acu with bank0 := m, bad0 := [] } else { s.acu with bank1 := m, bad1 := [] } }

/-- Write one shadow rule. A write of one of its registers makes the parity of the whole rule good again (DESIGN CHOICE, log entry 28:
R117 does not say what a partial write does). -/
def acuSetRule (s : State) (i : Nat) (r : Rule) : State :=
  { s with acu :=
      if s.acu.active then
        { s.acu with bank0 := sset ruleDflt s.acu.bank0 i r, bad0 := sset (fun _ => 0) s.acu.bad0 i 0 }
      else
        { s.acu with bank1 := sset ruleDflt s.acu.bank1 i r, bad1 := sset (fun _ => 0) s.acu.bad1 i 0 } }

/-- COPY (R114, R117): the active bank into the shadow; a rule of bad parity is copied as a deny for all. -/
def acuCopyBank (s : State) : State :=
  let a := s.acu
  let bad := if a.active then a.bad1 else a.bad0
  let act := if a.active then a.bank1 else a.bank0
  let s1 := (bad.filter (fun e => e.2 == 1)).foldl (fun st e => acuFoundBad st a.active e.1) s
  let m := (bad.filter (fun e => e.2 != 0)).foldl
    (fun m e => sset ruleDflt m e.1 { (sget ruleDflt m e.1) with attr := 2 }) act
  acuSetShadow s1 m

/-- Byte ranges of every rule that differs between the banks (R111). -/
def acuChangedRanges (a : Acu) : List (Nat × Nat) :=
  let keys := ((a.bank0.map (fun e => e.1)) ++ (a.bank1.map (fun e => e.1))).eraseDups
  (keys.filter (fun i => acuRule a false i != acuRule a true i)).flatMap (fun i =>
    [((acuRule a false i).first.toNat, (acuRule a false i).last.toNat + 63),
     ((acuRule a true i).first.toNat, (acuRule a true i).last.toNat + 63)].filter (fun p => decide (p.1 ≤ p.2)))

/-- Invalidate, on every core, the lines within ranges (R111). -/
def acuDropRanges (s : State) (rs : List (Nat × Nat)) : State :=
  rs.foldl (fun st p => dropLines st none p.1 (p.2 + 1 - p.1)) s

/-- An operation that runs, one whose completion record is still to be written through a capability under that bank's check (07
R195), and a copy of a hot row (11 R310) hold the bank they began under (R110). -/
def opsHoldBank (s : State) (bank : Bool) : Bool :=
  s.ops.any (fun o => o.bank == bank && (o.phase == .running ||
    (o.phase == .done && o.beganAt != 0 && match o.src with | .core _ _ cc => cc != capNull | .host _ _ _ => false))) ||
  s.dir.any (fun e => !e.2.valid && e.2.bank == bank)

/-- The switch instant (R109 to R111): record the TBC, advance the epoch, exchange the banks; the lines of changed
rules are written back; DRAINING rises while an operation begun under the old bank is in flight. -/
def acuSwitchNow (s : State) : State :=
  let a := s.acu
  let ranges := acuChangedRanges a
  let a' : Acu := { a with active := !a.active, pending := false, released := false, epoch := a.epoch + 1,
                           draining := opsHoldBank s a.active, writeback := a.writeback ++ ranges }
  acuDropRanges (regSet { s with acu := a' } Reg.acuLastSwitch s.tbc) ranges

/-- A SWITCH command (R109, R112): held while DRAINING; released at once otherwise; late when AT is past. -/
def acuRequestSwitch (s : State) : State :=
  if s.acu.pending then s
  else
    let at_ := regGet s Reg.acuSwitchAt
    let a' : Acu := { s.acu with pending := true, released := !s.acu.draining, deadline := at_ }
    let s1 := { s with acu := a' }
    if s.acu.draining then s1
    else if at_ ≠ 0 && decide (at_.toNat < s.tbc.toNat) then acuSwitchNow (regOr s1 Reg.acuErr 4)
    else s1

/-- DRAINING clears once no operation begun under the former bank remains; a held switch is then released (R109,
R110). -/
def acuDrainCheck (s : State) : State :=
  if s.acu.draining && !opsHoldBank s (!s.acu.active) then
    let s1 := { s with acu := { s.acu with draining := false } }
    if s1.acu.pending then
      let s2 := { s1 with acu := { s1.acu with released := true } }
      if s1.acu.deadline ≠ 0 && decide (s1.acu.deadline.toNat < s.tbc.toNat) then acuSwitchNow (regOr s2 Reg.acuErr 4)
      else s2
    else s1
  else s


/-- ACU_STATUS as it reads (R114). -/
def acuStatusWord (a : Acu) : W64 :=
  BitVec.ofNat 64 ((if a.active then 1 else 0) + (if a.pending then 2 else 0) + (if a.draining then 4 else 0) +
    a.epoch.toNat * 2 ^ 8)

end Sys2Proof.Machine
end

