-- ==== Sys2Proof/Machine/Err.lean ====
section
/-! DEFINITION. Errors beyond one operation (spec 20 R524 to R545): the self fence, device and tray-fatal events,
records for the TMC, carried records, rate records. -/

namespace Sys2Proof.Machine

/-- PERST_N is asserted: by the host's PERST#, or by the TMC (21 R562). -/
def perstPin (s : State) : Bool := s.boot.perst || s.boot.tmcHold
/-- The pins, or the lack of VAUX, hold the device in reset (21 R557, R558). -/
def pinsHold (s : State) : Bool := perstPin s || s.boot.held || !s.boot.pwrgd || !s.boot.powered
/-- The device is held in reset or unpowered (21 R557, R558; 17 R457), or by a reset whose VID is still moving to code 20 (21
R547). -/
def inReset (s : State) : Bool := pinsHold s || s.power.failed != [] || s.boot.settling

/-- The HBM PHYs have stopped. -/
def hbmStopped (s : State) : Bool := railStopped s 1 || railStopped s 2

/-- The newest record of the log. -/
def newestRecord (s : State) : List Byte := getRecord s 0 (logSlot (regGet s Reg.errSeq).toNat)

/-- The TMC's records: at most 8 are held, and the oldest is dropped (21 R552). -/
def handTmc (s : State) (bs : List Byte) : State :=
  let l := s.tmcHeld ++ [bs]
  { s with tmcHeld := l.drop (l.length - 8) }

/-- Send a withdraw flit (KIND 6) on every port that is up (15 R398, 20 R540). -/
def withdrawAll (s : State) : State :=
  (List.range 12).foldl (fun st p => if regFld st (Reg.portStatus p) 0 3 = 3 then sendFlit st p 6 0 0 [] else st) s

/-- Every headland core stands still. -/
def stopCores (m : SMap HlCore) : SMap HlCore :=
  (List.range 16).foldl (fun m k =>
    sset coreDefault m k { sget coreDefault m k with running := false, wait := .none, remote := none }) m

/-- Step 2 of R540: fetching, cores and engines stop, and the operations in flight end without completions. -/
def haltAll (s : State) : State :=
  let s1 := { s with
    cores := stopCores s.cores
    ops := [], heldOps := [], changeSet := none, reqs := [], walks := [], bound := [], updates := [], rowHolds := []
    strands := s.strands.map (fun e => (e.1, { e.2 with op := none, running := false, dq := [], wait := .none }))
    pipes := s.pipes.map (fun e => (e.1, { e.2 with pic := none, starting := none }))
    objects := s.objects.map (fun e => (e.1, { e.2 with run := none }))
    power := { s.power with waitSince := none, holdOver := false } }
  (List.range 64).foldl (fun st b => if regBit st (Reg.fabBar b) 8 then regSetFld st (Reg.fabBar b) 8 1 0 else st) s1

/-- No path to the master remains: an aligned device that is not the master enters holdover (02 R43). -/
def enterHoldover (s : State) : State :=
  if s.time.aligned1 && !regBit s Reg.tbStatus 2 && !regBit s Reg.tbStatus 3 then
    regOr (regOr s Reg.tbStatus 8) Reg.tbErr 2
  else s

/-- Every link is lost: no neighbour leads to the master any more (02 R43). -/
def loseLinks (s : State) : State := enterHoldover { s with time := { s.time with paths := [], told := [] } }

/-- The device fences itself (R540); the links that it withdraws led to the master (02 R43). -/
def selfFence (s : State) : State :=
  if fenced s then s else regOr (loseLinks (haltAll (withdrawAll s))) Reg.errStatus 1

/-- Record a class 6 event and hand it to the TMC (R527, R535, R537). -/
def recordFatal (s : State) (e : ErrEvent) : State :=
  let s1 := writeRecord s e 1
  handTmc s1 (newestRecord s1)

/-- A tray-fatal event (R527): the record, the fence, the fatal output. -/
def fatalEvent (s : State) (e : ErrEvent) : State :=
  let s1 := regOr (selfFence (recordFatal s e)) Reg.errStatus 4
  { s1 with boot := { s1.boot with fatalN := true } }

/-- The window in which class 5 records escalate and DEVICE_EVENTS counts: 3,600 s (R526, R542). -/
def hourTbc : Nat := 3600000000000

/-- DEVICE_EVENTS: class 5 records of the last 3,600 s, at most 3. -/
def deviceEvents (s : State) : Nat :=
  min 3 (s.class5.filter (fun t => decide (elapsed s t ≤ hourTbc))).length

/-- Write a class 5 record; the third within 3,600 s of the first of three is treated as tray-fatal (R526). The first
component says so. A supply reset's record (code 4 of source 0x0C) also goes to the TMC (R537). -/
def recordDevice (s : State) (e : ErrEvent) : Bool × State :=
  let s1 := writeRecord s e 1
  let s2 := if e.source = 0x0C then handTmc s1 (newestRecord s1) else s1
  let recent := s2.class5.filter (fun t => decide (elapsed s t ≤ hourTbc))
  let s3 := { s2 with class5 := s.tbc :: recent }
  if 2 ≤ recent.length then
    (true, fatalEvent s3 { cls := 6, source := 0x10, unit := 0, code := 2, tenant := 0xFF, action := 7, addr := 0,
                           payload := [] })
  else (false, s3)

/-- A host driver's memory requests reach the device: not while the link is configuration only (07 R175) or stands still (17 R456:
they are replayed when it has returned), and a virtual
function's not while it does not exist (07 R176). -/
def hostReaches (s : State) (agent : Agent) : Bool :=
  match agent with
  | .pf => !regBit s Reg.hpLink 10 && !linkPaused s
  | .vf n => !regBit s Reg.hpLink 10 && !linkPaused s && s.vfEnable && decide (1 ≤ n.toNat) && decide (n.toNat ≤ s.numVfs.toNat) &&
      decide (n.toNat ≤ 128)
  | _ => true

/-- The host driver of the PF, or software at ring 0 or 1, writes while the device is not held in reset; the TMC acts as the
PF's host driver (21 R550). -/
def platformAgent (s : State) (agent : Agent) : Bool :=
  !inReset s && hostReaches s agent &&
  match agent with
  | .pf => true
  | .tmc => true
  | .vf _ => false
  | .ring r => decide (r.toNat ≤ 1)

/-- The host driver of the physical function, or the TMC acting as it (21 R550). -/
def pfAgent (s : State) (agent : Agent) : Bool :=
  !inReset s && hostReaches s agent &&
  match agent with
  | .pf => true
  | .tmc => true
  | _ => false

/-- A write of ERR_CTRL with FENCE_DEVICE (R540, R542). -/
def fenceDeviceSet (s : State) (confirm : Nat) : State :=
  if confirm != 0x4410 || inReset s || fenced s then s
  else
    selfFence (recordDevice s { cls := 5, source := 0x10, unit := 0, code := 1, tenant := 0xFF, action := 6, addr := 0,
                                payload := [] }).2

/-- FENCE_DEVICE (R540): ERR_CTRL with FENCE_DEVICE and CONFIRM; the device stays fenced until a device reset. -/
def execFenceDevice (agent : Agent) (confirm : BitVec 16) (s : State) : Host.Outcome State Fault Refusal :=
  .next (if platformAgent s agent then fenceDeviceSet s confirm.toNat else s)

/-- The record that the TMC returns next: of those that it kept when it powered the device, the oldest not yet returned (R537). -/
def recordDue (s : State) : Option (List Byte) :=
  if s.system.toReturn = 0 then none else s.system.records[s.system.returned]?
/-- One word of a returned record; the sixteenth delivers it (R537, R542). The TMC returns the records that it has kept after the
position is next powered, each once, and before READY; a word comes as the TMC's memory gives it. A record whose CRC fails is
discarded, and so is one that is not what the TMC kept (log entry 26). -/
def errImportSet (s : State) (v : W64) : State :=
  match recordDue s with
  | none => s
  | some r =>
    if inReset s || regBit s Reg.suStatus 4 then s
    else
      let l := s.importBuf ++ [v]
      if l.length < 16 then { s with importBuf := l }
      else
        let bs := l.flatMap (fun w => toBytes 8 w.toNat)
        let s1 := { s with importBuf := []
                           system := { s.system with returned := s.system.returned + 1, toReturn := s.system.toReturn - 1 } }
        if numAt bs 124 4 = (crc32 (bs.take 124)).toNat && bs == r then writeCarried s1 bs else s1

/-- ERR_IMPORT (R537): only the TMC writes it. -/
def execErrImport (agent : Agent) (value : W64) (s : State) : Host.Outcome State Fault Refusal :=
  .next (if agent = .tmc then errImportSet s value else s)

/-- The windows of R534: 10^9 TBC units, aligned. -/
def rateWindow : Nat := 1000000000
/-- Key of a source's corrections in a window. -/
def corrKey (window source : Nat) : Nat := 256 * window + source
/-- A corrected error of a memory check code (R534): its chapter's saturating counter, and the source's count of this window. -/
def corrected (s : State) (source reg : Nat) : State :=
  let w := s.tbc.toNat / rateWindow
  let kept := s.corrections.filter (fun e => decide (w ≤ e.1 / 256 + 1))
  let key := corrKey w source
  regSatAdd { s with corrections := sset (fun _ => 0) kept key (sget (fun _ => 0) kept key + 1) } reg 32 1

/-- A corrected error of a unit of stack `n`, counted for its wear sample too (14 R370, 17 R460). -/
def correctedStack (s : State) (n : Nat) : State :=
  corrected { s with power := { s.power with
    corrSince := sset (fun _ => 0) s.power.corrSince n (sget (fun _ => 0) s.power.corrSince n + 1) } } 9 (Reg.hbmCorr n)

/-- CORRECTED_RATE_WINDOW (R534): at the end of a window, one rate record for a source whose corrections in it exceed CORR_RATE;
they are then accounted for. -/
def execCorrectedRateWindow (source : Byte) (s : State) : Host.Outcome State Fault Refusal :=
  let key := corrKey (s.tbc.toNat / rateWindow - 1) source.toNat
  let n := sget (fun _ => 0) s.corrections key
  if inReset s || s.tbc.toNat == 0 || s.tbc.toNat % rateWindow != 0 || decide (n ≤ regFld s Reg.errCfg 0 8) then .next s
  else
    let e : ErrEvent := { cls := 1, source := source.toNat, unit := 0, code := 0xFF, tenant := 0xFF, action := 1, addr := 0, payload := [] }
    .next (writeRecord { s with corrections := serase s.corrections key } e (min n 0xFFFF))

end Sys2Proof.Machine
end

