-- ==== Sys2Proof/Machine/Reset.lean ====
section
/-! DEFINITION. Resets (spec 19 R500, R522 and the "At reset" rules of every chapter; 20 R544; 21 R557, R564): what each kind
reaches and keeps. -/

namespace Sys2Proof.Machine

/-- PF registers that a supply or device reset keeps whole (R500): the time-base block and OP_POINT, which stand in the
time-base island; ERR_SEQ, ERR_ACK, ERR_CLASSc and the log (20 R544); DIP_COUNT, the dip log and the wear registers
(17 R463). -/
def keptWhole (off : Nat) : Bool :=
  (decide (0x100 ≤ off) && decide (off < 0x128)) || off == Reg.errSeq || off == Reg.errAck ||
  (decide (Reg.errClass 0 ≤ off) && decide (off < Reg.errClass 6)) || (decide (0xE8000 ≤ off) && decide (off < 0xF0000)) ||
  off == Reg.dipCount || (decide (Reg.dipLog 0 ≤ off) && decide (off < Reg.dipLog 0x20)) ||
  (decide (Reg.wearRate ≤ off) && decide (off ≤ Reg.wearAt))

/-- Bits of a register that every reset but power-on reset keeps: RWS fields (00 R8), and ERR_STATUS.DEGRADED, which
tells of the time since power-on reset (20 R542). -/
def keptMask (key : Nat) : W64 :=
  let off := key % 0x100000
  if key / 0x100000 != 0 then 0
  else if keptWhole off then BitVec.allOnes 64
  else if off = Reg.errStatus then 2
  else match regRowAt 0 off with
    | some r => BitVec.ofNat 64 r.keep
    | none => 0

/-- The registers after a supply or device reset. -/
def keptRegs (m : SMap W64) : SMap W64 :=
  m.foldl (fun acc e =>
    let k := keptMask e.1
    sset regReset acc e.1 ((e.2 &&& k) ||| (regReset e.1 &&& ~~~k))) []

/-- The TMC keeps the records handed to it, the last 8 of them (20 R537); of those that it drops, the returned ones go first. -/
def keepRecords (y : System) (more : List (List Byte)) : System :=
  let l := y.records ++ more
  let gone := l.length - 8
  { y with records := l.drop gone, returned := y.returned - gone, toReturn := y.toReturn - (gone - y.returned) }

/-- Everything that a reset reaches takes its reset value: with `po`, a power-on reset; else a supply or device reset,
which do not reach the time-base island, though every link to the master is lost (02 R43). What stands outside the device is untouched: the flash, the fuses, host memory,
the pins' drivers, the reference clocks, the tray and the rack. The records held for the TMC go to it before a power-on reset
takes them (17 R458, 20 R537; DESIGN CHOICE, log entry 26). -/
def wipe (s : State) (po : Bool) : State :=
  let regs := if po then [] else keptRegs s.regs
  let power := if po then { powerReset with dips := s.power.dips, failed := s.power.failed,
                                            onTime := s.power.onTime + elapsed s s.power.hoursAt, sampledAt := s.power.sampledAt
                                            samples := s.power.samples, corrSince := s.power.corrSince }
    else { s.power with waitSince := none, holdOver := false, busy := 0, govCode := 70, pcieBy := none, excluded := [] }
  let s1 := { State.reset with
    pending := s.pending, freeCtr := s.freeCtr, out := s.out
    tbc := if po then 0 else s.tbc
    time := if po then { State.reset.time with refclk := s.time.refclk } else { s.time with paths := [], told := [] }
    regs := regs, hostMem := s.hostMem, flash := s.flash, minSvn := s.minSvn, revoked := s.revoked
    keyEra := s.keyEra + 1, nextOp := s.nextOp, nextEnd := s.nextEnd
    class5 := if po then [] else s.class5
    stopsHeld := if po then [] else s.stopsHeld
    tmcHeld := if po then [] else s.tmcHeld
    hbm := { hbmReset with tripped := (if po then [] else s.hbm.tripped), onRef := s.time.refclk }
    fabClk := s.fabClk, fabClkLostAt := s.fabClkLostAt
    power := power
    boot := { s.boot with zeroed := false, chosen := false, request := none }
    system := if po then keepRecords s.system s.tmcHeld else s.system, jtag := s.jtag }
  enterHoldover (regSetFld s1 Reg.hbmConfig 8 5 (regFld s1 Reg.hbmConfig 0 5))


/-- Release of a reset of a kind (R500: 1 power-on, 2 supply, 3 device): the start-up path begins (R502, R522). A TEN_STATE.STOP stored
while the device was fenced applies now, with nothing in flight (20 R543). -/
def releaseReset (s : State) (kind : Nat) : State :=
  let s1 := wipe s (kind == 1)
  let s2 := regSet { s1 with boot := { s1.boot with began := s1.tbc }, stopsHeld := [] } Reg.suResetAt s1.tbc
  let s3 := regSet s2 Reg.suStatus (BitVec.ofNat 64 (0x40 + kind * 0x1000))
  (s1.stopsHeld.filter (fun t => decide (t ≤ 128))).foldl (fun st t => regSet st (Reg.tenState t) 1) s3

/-- Release of a reset that was held: what the junction thermal states have come to since it was asserted stands, since they apply
at all times (17 R463). -/
def releaseHeld (s : State) (kind : Nat) : State :=
  let s1 := releaseReset s kind
  regSetFld (regSetFld { s1 with power := { s1.power with tjAt := s.power.tjAt } } Reg.pwrStatus 0 4 (regFld s Reg.pwrStatus 0 4))
    Reg.pwrStatus 8 2 (regFld s Reg.pwrStatus 8 2)

/-- Reset asserted: every block is held in reset. -/
def holdReset (s : State) : State := wipe s false

/-- Nothing asserts the reset any more: it is released, once VID has come to code 20 at the rate of R446, while the blocks are held in
reset (21 R547). -/
def tryRelease (s : State) : State :=
  if pinsHold s || s.power.failed != [] then s
  else if s.power.vcore = 20 then releaseHeld { s with boot := { s.boot with settling := false } } s.boot.kind
  else { s with boot := { s.boot with settling := true } }

/-- A device reset (R500) performed by Vesol itself or by SU_CTRL: asserted, and released when VID stands at code 20 (21 R547). -/
def deviceReset (s : State) : State :=
  if s.power.vcore = 20 then releaseReset s 3
  else
    let s1 := holdReset s
    { s1 with boot := { s1.boot with settling := true, kind := 3 } }

/-- A boot attempt has failed (R514): a class 5 record, and at once the device reset; an escalation (20 R526) wins over the
reset. -/
def bootFailed (s : State) : State :=
  let (escalated, s1) := recordDevice s { cls := 5, source := 0x0E, unit := 0, code := 1, tenant := 0xFF, action := 9, addr := 0,
                                          payload := [] }
  if escalated then s1 else deviceReset (selfFence s1)

/- The flash (19 R508) -/

/-- `n` bytes of the flash partition. -/
def flashBytes (s : State) (a n : Nat) : List Byte := (List.range n).map (fun i => sget Config.flash0 s.flash (a + i))
/-- A flash with bytes programmed from an offset. -/
def flashPut (m : Mem) (a : Nat) : List Byte → Mem
  | [] => m
  | b :: bs => flashPut (sset Config.flash0 m a b) (a + 1) bs
/-- Program bytes. -/
def storeFlash (s : State) (a : Nat) (bs : List Byte) : State := { s with flash := flashPut s.flash a bs }
/-- Erase bytes to 0xFF. -/
def eraseFlash (s : State) (a n : Nat) : State := storeFlash s a (List.replicate n 0xFF)

/-- SU_STATUS.STEP. -/
def suStep (s : State) : Nat := regFld s Reg.suStatus 0 4
/-- Set SU_STATUS.STEP. -/
def setStep (s : State) (n : Nat) : State := regSetFld s Reg.suStatus 0 4 n
/-- SU_STATUS.BOOT_OK. -/
def bootOkSet (s : State) : Bool := regBit s Reg.suStatus 5
/-- READY (R503): BOOT_OK with its settings and token (log entry 25), background zeroing done, and PWR_POLICY.RUN. -/
def readyCheck (s : State) : State :=
  if bootOkSet s && regBit s Reg.hbmZero 31 && regBit s Reg.pwrPolicy 8 && !inReset s then setStep (regOr s Reg.suStatus 16) 6 else s
/-- SU_STATUS.ALIAS (R505). -/
def aliasOn (s : State) : Bool := regBit s Reg.suStatus 6

end Sys2Proof.Machine
end

