-- ==== Sys2Proof/Machine/Route.lean ====
section
/-! DEFINITION. The torus, the routing table and the sending of Tideway messages (spec 15 R399 to R402, R405 to
R409). -/

namespace Sys2Proof.Machine

/- Topology (01 R19, 15 R399) -/

/-- FAB_STATUS.PLAN: the cabling plan is loaded. -/
def planLoaded (s : State) : Bool := regBit s Reg.fabStatus 24
/-- Racks of the system. -/
def racksOf (s : State) : Nat := 2 ^ regFld s Reg.fabStatus 25 2
/-- Size of the torus for a number of racks, per dimension (R19). -/
def shapeOf (racks : Nat) : List Nat :=
  [if 8 ≤ racks then 8 else 4, if 4 ≤ racks then 8 else 4, if 2 ≤ racks then 16 else 8]
/-- Coordinates of a device (R399). -/
def coordsOf (d : Nat) : List Nat :=
  let rack := d / 128
  let tray := d / 4 % 32
  [d % 4 + 4 * (rack / 4), tray % 4 + 4 * (rack / 2 % 2), tray / 4 + 8 * (rack % 2)]
/-- The device at coordinates: the inverse of R399. -/
def deviceAt (c : List Nat) : Nat :=
  let x := c.getD 0 0
  let y := c.getD 1 0
  let z := c.getD 2 0
  128 * (4 * (x / 4) + 2 * (y / 4) + z / 8) + 4 * (4 * (z % 8) + y % 4) + x % 4
/-- The neighbour of a device in direction `dir` = 2 × dimension + sign (0: +, 1: −). -/
def neighbourOf (s : State) (d dir : Nat) : Nat :=
  let c := coordsOf d
  let n := (shapeOf (racksOf s)).getD (dir / 2) 1
  let x := c.getD (dir / 2) 0
  deviceAt (c.set (dir / 2) (if dir % 2 = 0 then (x + 1) % n else (x + n - 1) % n))
/-- The direction a port leads to: ports 4d and 4d + 1 are the + pair of dimension d (R399). -/
def portDir (p : Nat) : Nat := p / 2
/-- The far device of a port. -/
def farDevice (s : State) (p : Nat) : Nat := neighbourOf s (deviceNo s) (portDir p)

/-- The entry that the plan gives for a destination (R400): the shorter way round in the first dimension that differs,
+ when both are equally long. -/
def planRoute (racks me dest : Nat) : Nat :=
  if dest = me ∨ 128 * racks ≤ dest then 0
  else
    let a := coordsOf me
    let b := coordsOf dest
    match (List.range 3).find? (fun i => a.getD i 0 != b.getD i 0) with
    | none => 0
    | some i =>
      let n := (shapeOf racks).getD i 1
      let plus := (b.getD i 0 + n - a.getD i 0) % n
      1 + (if n - plus < plus then 2 else 0) + 12

/- Ports -/

/-- PORT_STATUS.STATE. -/
def portState (s : State) (p : Nat) : Nat := regFld s (Reg.portStatus p) 0 3
/-- The port is fenced, or unused in the plan. -/
def portFenced (s : State) (p : Nat) : Bool :=
  portState s p == 4 || (portState s p == 0 && regFld s (Reg.portStatus p) 8 4 == 4)
/-- The port is UP. -/
def portUp (s : State) (p : Nat) : Bool := portState s p == 3
/-- PORT_STATUS.RETRAINING. -/
def retraining (s : State) (p : Nat) : Bool := regBit s (Reg.portStatus p) 7
/-- Credits of a channel before any is spent (R393). -/
def creditDflt (vc : Nat) : Nat := if vc = 4 then 128 else 64

/-- A message can arrive by the port now: it is up, not retraining, and the device has its place (R397). -/
def portCarries (s : State) (p : Nat) : Bool :=
  decide (p < 12) && portUp s p && !retraining s p && placeValid s && !phyStopped s && !fenced s
/-- The port receives flits: it trains with its far end or is up, and has its clock. -/
def portLinked (s : State) (p : Nat) : Bool :=
  decide (p < 12) && (portState s p == 2 || portUp s p) && s.fabClk && !phyStopped s && !fenced s

/-- The replay buffer after an ACK of SEQ `a`; unchanged when no flit in it bears that number. -/
def ackReplay (r : List (Nat × Nat × Msg)) (a : Nat) : List (Nat × Nat × Msg) :=
  if r.any (fun e => e.1 == a) then (r.dropWhile (fun e => e.1 != a)).drop 1 else r
/-- A port takes an ACK (R394). -/
def takeAck (x : Port) (a : Nat) : Port :=
  let r := ackReplay x.replay a
  { x with replay := r, replays := x.replays.drop (x.replay.length - r.length) }
/-- A port takes returned credits of a channel, never more than its receiver has buffers (R393). -/
def takeCredits (x : Port) (c n : Nat) : Port :=
  if c ≤ 4 then { x with credits := sset creditDflt x.credits c (min (creditDflt c) (sget creditDflt x.credits c + n)) } else x
/-- What the link header of a received flit of any kind brings: its ACK and its CREDITS (R392, R393). -/
def takeLink (s : State) (l : Link) : State :=
  setPort s l.port.toNat (takeCredits (takeAck (portOf s l.port.toNat) l.ack.toNat) l.cvc.toNat l.credits.toNat)

/-- A port discards what comes until the flit after the last good one, and tells so by a NAK, whose ACK names that (R394). -/
def sendNak (s : State) (p : Nat) : State :=
  let s1 := sendFlit s p 4 0 0 []
  setPort s1 p { portOf s1 p with nakSent := true }
/-- The message flit `l` has been received in order; with `freed` it has left its receive buffer, whose credit the port now owes
(R393), and without it it stands there still. -/
def acceptFlit (s : State) (l : Link) (freed : Bool) : State :=
  let p := l.port.toNat
  let x := portOf s p
  let q := l.seq.toNat
  let vc := l.vc.toNat
  setPort s p { x with
    rxSeq := if x.parked.contains q then x.rxSeq else q
    nakSent := false
    parked := if freed then x.parked.filter (fun y => y != q) else if x.parked.contains q then x.parked else x.parked ++ [q]
    owed := if freed then sset owedDflt x.owed vc (sget owedDflt x.owed vc + 1) else x.owed }
/-- A message flit arrives (R394): the flit after the last good one, or one that still stands in its receive buffer, is given to
`take`, which tells whether it could be performed; one further on shows a gap; one received before is discarded. -/
def recvMsg (s : State) (l : Link) (take : State → Bool × State) : State :=
  let p := l.port.toNat
  if !portCarries s p then s
  else
    let s1 := takeLink s l
    let x := portOf s1 p
    let ahead := (l.seq.toNat + 4095 - x.rxSeq) % 4096
    if x.parked.contains l.seq.toNat || ahead == 0 then
      let (done, s2) := take s1
      acceptFlit s2 l done
    else if x.nakSent || decide (2048 ≤ ahead) then s1
    else sendNak s1 p

/-- Put a message at the end of a port's queue for a channel. -/
def enqueueMsg (s : State) (p vc : Nat) (m : Msg) : State :=
  let x := portOf s p
  setPort s p { x with queue := sset (fun _ => []) x.queue vc (sget (fun _ => []) x.queue vc ++ [m]) }

/- Routing (R401, R402) -/

/-- Where R401 sends a message. -/
inductive RouteTo where
  | deliver
  /-- out by a port, on a channel, with new DIRS -/
  | port (p vc : Nat) (dirs : BitVec 6)
  /-- answered lost; `misroute` sets FAB_ERR.MISROUTE -/
  | lost (misroute : Bool)
  deriving DecidableEq, Repr

/-- The message is a response. -/
def isResponse (type : BitVec 6) : Bool := decide (0x11 ≤ type.toNat) && decide (type.toNat ≤ 0x16)

/-- The forwarding decision of R401 and R402. `past`: the message has crossed a wrap link in its present dimension. -/
def routeMsg (s : State) (dest src : Nat) (dirs : BitVec 6) (type : BitVec 6) (past : Bool) : RouteTo :=
  let me := deviceNo s
  if dest = me then .deliver
  else
    let a := coordsOf me
    let b := coordsOf dest
    match (List.range 3).find? (fun i => a.getD i 0 != b.getD i 0) with
    | none => .lost true
    | some d =>
      let open_ (sign : Nat) : List Nat := [4 * d + 2 * sign, 4 * d + 2 * sign + 1].filter (fun p => !portFenced s p)
      let moved := (fld dirs (2 * d) 2).toNat
      let e := regGet s (Reg.route dest)
      if moved = 0 && !bitAt e 0 then .lost false
      else
        let sign0 := if moved = 0 then (fld e 1 1).toNat else moved - 1
        let p0 := if moved = 0 then (open_ sign0).filter (fun p => bitAt e (2 + p % 2)) else open_ sign0
        let turn := moved == 0 && p0 == []
        let sign := if turn then 1 - sign0 else sign0
        let p := if turn then open_ sign else p0
        match p with
        | [] => .lost true
        | q :: rest =>
          let low := q % 2 == 0 && ((src + dest) % 2 == 0 || rest == [])
          let port := if low then q else (if rest == [] then q else rest.headD q)
          let n := (shapeOf (racksOf s)).getD d 1
          let x := a.getD d 0
          let wraps := (sign == 0 && x + 1 == n) || (sign == 1 && x == 0)
          let beyond := wraps || (moved != 0 && past)
          .port port ((if isResponse type then 2 else 0) + (if beyond then 1 else 0))
            (setFld dirs (2 * d) (BitVec.ofNat 2 (sign + 1)))

/-- Send a response; one that cannot be routed is discarded (R401). -/
def sendResponse (s : State) (m : Msg) : State :=
  match routeMsg s m.dest.toNat m.src.toNat 0 m.type false with
  | .port p vc dirs => enqueueMsg s p vc { m with dirs := dirs }
  | _ => regOr s Reg.fabErr 1

/-- The response to a request, with a status and its data (R406). -/
def replyTo (s : State) (src : BitVec 10) (tenant : Byte) (type : BitVec 6) (addr : BitVec 54) (rid : BitVec 16)
    (status : Nat) (tag : Bool) (payload : List Byte) : State :=
  sendResponse s { dest := src, src := BitVec.ofNat 10 (deviceNo s), tenant := tenant, type := type + 0x10, dirs := 0,
                   addr := addr, tag := tag, poison := status == 2, rid := rid, status := BitVec.ofNat 4 status, op := 0,
                   len := BitVec.ofNat 7 payload.length, payload := payload }

/- Requests (R407 to R409) -/

/-- No request. -/
def reqDflt (_ : Nat) : Req := ⟨.op 0 0, ⟨0, 0, 0, 0, 0, 0, false, false, 0, 0, 0, 0, []⟩, 0, 0⟩
/-- A request identifier not in use, from `r` on. -/
def freeRid (s : State) : Nat → Nat → Nat
  | 0, r => r % 65536
  | n + 1, r => if s.reqs.any (fun e => e.1 == r % 65536) then freeRid s n (r + 1) else r % 65536
/-- R409: no more requests may be issued now. -/
def reqsFull (s : State) : Bool := decide (65536 ≤ s.reqs.length)

/-- What issuing a request comes to. -/
inductive Issue where
  | sent (s : State)
  /-- no way leads to the destination: the request is answered lost at once (R401) -/
  | lost (s : State)
  | stalls

/-- Issue a request to another device. -/
def issueRequest (s : State) (origin : ReqOrigin) (dest : Nat) (tenant : Nat) (type : BitVec 6) (addr : Nat)
    (tag : Bool) (op len : Nat) (payload : List Byte) : Issue :=
  if reqsFull s then .stalls
  else
    let me := deviceNo s
    match routeMsg s dest me 0 type false with
    | .port p vc dirs =>
      let rid := freeRid s (s.reqs.length + 1) s.nextRid.toNat
      let m : Msg := { dest := BitVec.ofNat 10 dest, src := BitVec.ofNat 10 me, tenant := BitVec.ofNat 8 tenant,
                       type := type, dirs := dirs, addr := BitVec.ofNat 54 addr, tag := tag, poison := false,
                       rid := BitVec.ofNat 16 rid, status := 0, op := BitVec.ofNat 5 op, len := BitVec.ofNat 7 len,
                       payload := payload }
      let s1 := enqueueMsg s p vc m
      .sent { s1 with reqs := sins rid ⟨origin, m, p, s.tbc⟩ s1.reqs, nextRid := BitVec.ofNat 16 (rid + 1) }
    | .lost misroute => .lost (regWrapAdd (if misroute then regOr s Reg.fabErr 1 else s) Reg.fabLost 1)
    | .deliver => .lost s

end Sys2Proof.Machine
end

