-- ==== Sys2Proof/Machine/HlBase.lean ====
section
/-! DEFINITION. Headland cores: registers, promotion and counters, caches, instruction fetch, taking a trap and
returning from one (spec 05 R118 to R142, 06). -/

namespace Sys2Proof.Machine

/-- Core `n`. -/
def coreOf (s : State) (n : Nat) : HlCore := sget coreDefault s.cores n
/-- Replace core `n`. -/
def setCore (s : State) (n : Nat) (c : HlCore) : State := { s with cores := sset coreDefault s.cores n c }

/-- An unlisted G register is null. -/
def gDflt (_ : Nat) : Cap := capNull
/-- An unlisted 64-bit register is zero. -/
def zDflt64 (_ : Nat) : W64 := 0
/-- An unlisted 32-bit register is zero. -/
def zDflt32 (_ : Nat) : W32 := 0

/-- G register `i`: G0 reads as the null capability (R118). -/
def gGet (c : HlCore) (i : Nat) : Cap := if i = 0 then capNull else sget gDflt c.g i
/-- Write G register `i`: writes to G0 are discarded (R118). -/
def gSet (c : HlCore) (i : Nat) (v : Cap) : HlCore := if i = 0 then c else { c with g := sset gDflt c.g i v }
/-- Bits [63:0] of a G register. -/
def gInt (c : HlCore) (i : Nat) : W64 := capCursor (gGet c i)
/-- Write an integer: bits [127:64] zero, tag clear (R119). -/
def gSetInt (c : HlCore) (i : Nat) (v : W64) : HlCore := gSet c i (capOfInt v)
/-- F register `i`. -/
def fGet (c : HlCore) (i : Nat) : W64 := sget zDflt64 c.f i
/-- Write F register `i`. -/
def fSet (c : HlCore) (i : Nat) (v : W64) : HlCore := { c with f := sset zDflt64 c.f i v }

/-- EXC.RING. -/
def excRing (c : HlCore) : BitVec 2 := capRing c.exc
/-- CTX.TENANT. -/
def ctxTenant (c : HlCore) : Nat := (fld c.ctx 0 8).toNat
/-- CTX.ACT_TENANT. -/
def actTenant (c : HlCore) : Nat := (fld c.ctx 8 8).toNat
/-- The tenant of the core's accesses (04 R96). -/
def coreTenant (c : HlCore) : Nat := if (excRing c).toNat ≤ 1 then 0 else ctxTenant c
/-- The running core is the monitor or the executive. -/
def platformCode (c : HlCore) : Bool := decide ((excRing c).toNat ≤ 1)

/-- A bank's BUSY bit (06 TCAUSE[8]). -/
def bankBusy (b : TrapBank) : Bool := bitAt b.tcause 8

/-- The core executes instructions now: running, not waiting, its remote access answered, released after reset
(19 R502), the device not fenced (20 R540). -/
def executing (s : State) (n : Nat) : Bool :=
  let c := coreOf s n
  s.coresReleased && c.running && c.wait == .none && c.remote == none && !fenced s

/- Performance counters (R139, R142) -/

/-- Count `k` events of one kind for the core as it was when they occurred: `before` supplies ring and tenant. -/
def perfCount (before : HlCore) (k event : Nat) (acc : HlCore × Bool) : HlCore × Bool :=
  let step (a : HlCore × Bool) (i : Nat) : HlCore × Bool :=
    let c := a.1
    let sel := sget zDflt32 c.perfSel i
    if (fld sel 0 5).toNat == event && event != 0 && bitAt sel (8 + (excRing before).toNat) &&
        (bitAt sel 24 || (fld sel 16 8).toNat == ctxTenant before) then
      let v := (sget zDflt64 c.perf i).toNat + k
      let c1 := { c with perf := sset zDflt64 c.perf i (BitVec.ofNat 64 v) }
      if v ≥ 2 ^ 64 then ({ c1 with perfOvf := c1.perfOvf ||| BitVec.ofNat 32 (2 ^ i) }, a.2 || bitAt sel 12) else (c1, a.2)
    else a
  (List.range 8).foldl step acc

/-- Count a list of events and raise the counter-overflow interrupt where OVF_INT asks for it. An instruction's events are
counted after its effect: a CSRW of PERF_SELn or PERFn counts its own promotion by what it has written (DESIGN CHOICE, log entry
12). -/
def perfEvents (s : State) (n : Nat) (before : HlCore) (events : List Nat) : State :=
  let (c, irq) := events.foldl (fun a e => perfCount before 1 e a) (coreOf s n, false)
  let s1 := setCore s n c
  if irq then setPend s1 n 2 else s1

/- Caches (R132 to R135) -/

/-- No line. -/
def lineDflt (_ : Nat) : CacheLine := ⟨0xFF, false⟩
/-- A set not used since the reset of its replacement state: a number that is no line's address. -/
def noRecent (_ : Nat) : Nat := 1

/-- Look up and fill a line in a cache of `sets` sets and `ways` ways: was it a miss, was it filled, the cache and its
replacement state after. The replacement state of a set names the line last used in it; on a miss that allocates in a full
set the victim is a free choice (`pick`) among the others: R132 names pseudo-LRU and no more (log entry 12). Another
tenant's copy in this cache is removed before a fill (R134), and by a write (R133). -/
def cacheTouch (m : SMap CacheLine) (recent : SMap Nat) (sets ways : Nat) (line tenant : Nat) (alloc dirty write : Bool)
    (pick : Nat) : Bool × Bool × SMap CacheLine × SMap Nat :=
  let index := line / 64 % sets
  let cur := sget lineDflt m line
  if m.any (fun e => e.1 == line) && cur.tenant.toNat == tenant then
    (false, false, if dirty then sset lineDflt m line { cur with dirty := true } else m, sset noRecent recent index line)
  else
    let m1 := serase m line
    if !alloc then (true, false, if write then m1 else m, recent)
    else
      let set := m1.filter (fun e => e.1 / 64 % sets == index)
      let old := set.filter (fun e => e.1 != sget noRecent recent index)
      let m2 := if ways ≤ set.length then
          match old[pick % old.length]? with
          | some v => serase m1 v.1
          | none => m1
        else m1
      (true, true, sset lineDflt m2 line ⟨BitVec.ofNat 8 tenant, dirty⟩, sset noRecent recent index line)

/-- A cache without a line that another tenant filled. -/
def dropOther (m : SMap CacheLine) (line tenant : Nat) : SMap CacheLine :=
  m.filter (fun e => !(e.1 == line && e.2.tenant.toNat != tenant))

/-- Before a line is filled for a tenant, every copy of it that another tenant holds is written back and invalidated, in
both caches of every core (R134). -/
def dropOthers (s : State) (line tenant : Nat) : State :=
  let step (st : State) (k : Nat) : State :=
    let c := coreOf st k
    setCore st k { c with dcache := dropOther c.dcache line tenant, icache := dropOther c.icache line tenant }
  (List.range 16).foldl step s

/-- A data access of core `n` meets its data cache; answers whether it missed. UC never allocates, ST does not
allocate on a miss, WT allocates on a read, WB on both (04 R103). A UC write invalidates the core's own copy (R133). -/
def dcacheAccess (s : State) (n line tenant : Nat) (cls : BitVec 2) (write : Bool) : Bool × State :=
  if cls = 0 then
    (false, if write then setCore s n { coreOf s n with dcache := serase (coreOf s n).dcache line } else s)
  else
    let (v, s1) := freeNext s
    let c := coreOf s1 n
    let alloc := cls == 1 || (cls == 2 && !write)
    let (miss, filled, m, r) := cacheTouch c.dcache c.drecent 128 8 line tenant alloc (write && cls == 1) write v.toNat
    let s2 := setCore s1 n { c with dcache := m, drecent := r }
    (miss, if filled then dropOthers s2 line tenant else s2)

/-- An instruction fetch of core `n` meets its instruction cache. -/
def icacheAccess (s : State) (n line tenant : Nat) (cls : BitVec 2) : Bool × State :=
  if cls = 0 then (false, s)
  else
    let (v, s1) := freeNext s
    let c := coreOf s1 n
    let (miss, filled, m, r) := cacheTouch c.icache c.irecent 256 4 line tenant (cls == 1 || cls == 2) false false v.toNat
    let s2 := setCore s1 n { c with icache := m, irecent := r }
    (miss, if filled then dropOthers s2 line tenant else s2)

/- Causes -/


/-- What an instruction comes to. -/
inductive HlRes where
  /-- it retires: the state, and the kinds of events it counts beside promotion -/
  | retire (s : State) (events : List Nat)
  /-- it raises a cause; the state holds only deny records -/
  | trap (s : State) (num : Nat) (tval : W64) (detail : Nat) (auth : Cap)
  /-- it cannot proceed yet and is not retired -/
  | wait (s : State)

/- Fetch (R120) -/

/-- The local part of a fabric address. -/
def localPart (addr : Nat) : Nat := addr % 2 ^ 54

/-- The fetch checks at a capability: cause number and TDETAIL of the first that fails, with the cache class of the
block when all pass. -/
def fetchCheck (s : State) (exc : Cap) (tenant : Nat) : Option (Nat × Nat) × BitVec 2 × State :=
  let addr := (capCursor exc).toNat
  match capCheck exc (capRing exc) 0 true addr 4 4 with
  | some n =>
    if n = 3 ∨ n = 4 ∨ n = 5 then (some (n, 1), 0, s)
    else if !capHas exc rEX then (some (2, 1), 0, s)
    else (some (n, 1), 0, s)
  | none =>
    if !capHas exc rEX then (some (2, 1), 0, s)
    else if !localFabric s (decide ((capRing exc).toNat ≤ 1)) addr then
      (some (2, 1 + 8 + 0x1FF * 16), 0, acuDeny s .headland tenant kExec 0x1FF (localPart addr))
    else
      let (v, s1) := acuCheck s .headland tenant kExec (capHas exc rSYS) false (localPart addr)
      if v.ok then (none, v.cache, s1) else (some (2, 1 + 8 + v.rule * 16), 0, s1)

/- Taking a trap (06 R161 to R166) -/

/-- The core's bank for a machine-class cause. -/
def machineCause (n : Nat) : Bool := decide (32 ≤ n)
/-- Interrupt causes. -/
def interruptCause (n : Nat) : Bool := decide (16 ≤ n) && decide (n < 32)

/-- Write a trap bank (R165 step 1) and exchange TSTK with G30 (step 2): the bank and the new G30. -/
def fillBank (s : State) (c : HlCore) (b : TrapBank) (k : Cause) (fixed : Bool) : TrapBank × Cap :=
  let tc := k.num + (excRing c).toNat * 2 ^ 6 + 2 ^ 8 + (if interruptCause k.num then 2 ^ 9 else 0) +
    (if fixed then 2 ^ 10 else 0)
  ({ b with tepc := ⟨c.exc.tag && capInWindow c.exc k.pc.toNat, setFld c.exc.bits 0 k.pc⟩
            tauth := k.auth
            tcause := BitVec.ofNat 64 tc
            tval := k.tval
            tinsn := k.insn.setWidth 64
            tst := c.st.setWidth 64
            ttbc := s.tbc
            tdetail := BitVec.ofNat 64 k.detail
            tstk := gGet c 30 }, b.tstk)

/-- Payload of a headland record, source 0x01 codes 2 and 3 (20 R532). -/
def corePayload (c : HlCore) (cause : Nat) : List Byte :=
  let m := c.bankM
  let o := c.bankO
  toBytes 1 cause ++ toBytes 1 ((if bankBusy o then 1 else 0) + (if bankBusy m then 2 else 0)) ++ [0, 0] ++
  toBytes 4 m.tinsn.toNat ++ toBytes 4 m.tdetail.toNat ++ toBytes 4 m.tcause.toNat ++ toBytes 8 m.tval.toNat ++
  toBytes 16 m.tepc.bits.toNat ++ toBytes 16 m.tauth.bits.toNat ++ toBytes 4 o.tcause.toNat ++ toBytes 8 o.tval.toNat ++
  toBytes 16 o.tepc.bits.toNat

/-- The error record of a core's machine check (code 2) or stop (code 3). -/
def coreRecord (s : State) (n code cause : Nat) : State :=
  recordEvent s { cls := 4, source := 1, unit := n, code := code, tenant := 0xFF, action := 5, addr := 0,
                  payload := corePayload (coreOf s n) cause }

/-- A core with nothing of an unretired instruction left (06 R165). -/
def clearBegun (c : HlCore) : HlCore := { c with wait := .none, remote := none, begun := false, fetched := none }

/-- Stop a core (R166). -/
def stopCore (s : State) (n cause : Nat) : State :=
  let c := coreOf s n
  let s1 := regOr (setCore s n { clearBegun c with running := false, wdogDue := false }) Reg.trapStopped (2 ^ n)
  let s2 := coreRecord s1 n 3 cause
  if n = 0 && s.coresReleased && !bootOkSet s2 then bootFailed s2 else s2

/-- The fixed-vector address of a cause (R163). -/
def fixedVector (s : State) (cause : Nat) : W64 :=
  BitVec.ofNat 64 (deviceNo s * 2 ^ 54 + 0x6000000000 + 16 * cause)

/-- Enter a cause through its fixed vector into bank M or O (R163, R165), or stop the core. -/
def enterFixed (s : State) (n : Nat) (useM : Bool) (k : Cause) : State :=
  let c := coreOf s n
  let exc0 := capMoveCursor c.bankM.last (fixedVector s k.num)
  let (bad, _, s1) := fetchCheck s exc0 0
  if bad.isSome || capSealed exc0 || capRing exc0 != 0 then stopCore s1 n k.num
  else
    let (b, g30) := fillBank s1 c (if useM then c.bankM else c.bankO) k true
    let c1 := gSet (if useM then { c with bankM := b } else { c with bankO := b }) 30 g30
    perfEvents (setCore s1 n { clearBegun c1 with exc := exc0 }) n c [13]

/-- Take a machine-class cause: bank M, or the core stops (R164). -/
def enterMachine (s : State) (n : Nat) (k : Cause) : State :=
  if bankBusy (coreOf s n).bankM then stopCore s n k.num else enterFixed s n true k

/-- What a loaded vector table entry is: a handler, or REASON (R162). -/
def vectorHandler (e : Cap) : Cap ⊕ Nat :=
  if !e.tag then .inr 1
  else if (capOtype e == 240 && capRing e == 0) || (capOtype e == 241 && capRing e == 1) then .inl e
  else .inr 2

/-- What the load of a vector table entry comes to (R162). -/
inductive VectorRes where
  /-- the entry, or REASON, and the state after the load -/
  | gives (r : Cap ⊕ Nat) (s : State)
  /-- it must wait for its memory, or has been asked for at another device: the core holds the cause till then -/
  | waits (s : State)

/-- The window and offset of a set-up address (07 R179); none where no window stands. -/
def setupAt (la : Nat) : Option (Nat × Nat) :=
  if 0x6000100000 ≤ la ∧ la < 0x6000200000 then some (0, la - 0x6000100000)
  else if 0x6001010000 ≤ la ∧ la < 0x6001810000 then some ((la - 0x6001000000) / 0x10000, (la - 0x6001000000) % 0x10000)
  else none

/-- A vector table in set-up space gives no tag, and no register there has 16 bytes: the load is an access-size error where it
touches one (00 R11, R12). -/
def vectorSetup (s : State) (la : Nat) : State :=
  match setupAt la with
  | some (fn, off) => if regTouched fn off 16 then accessSizeError s 0 off 16 false else s
  | none => s

/-- The load of the vector table entry of a cause (R162): a CLD through VTB, made as the handler will run, at ring 0 with
tenant 0 (R165; log entry 15); on another device as 15 R405 has it. -/
def vectorEntry (s : State) (n : Nat) (k : Cause) : VectorRes :=
  let c := coreOf s n
  let addr := (capCursor c.vtb).toNat + 16 * k.num
  let mine := localFabric s true addr
  let far := !mine && !fabricDenied s true addr
  match capCheck c.vtb 0 (rLD ||| rLDC) ((mine || capHas c.vtb (rGLOB ||| rDMA)) &&
      (!(mine && regionOf (localPart addr) == .setup) || capHas c.vtb rSYS)) addr 16 16 with
  | some _ => .gives (.inr 0) s
  | none =>
    let la := localPart addr
    if far then
      match issueRequest s (.vector n k) (addr / 2 ^ 54) 0 3 la false 0 16 [] with
      | .sent s1 => .waits (setCore s1 n { coreOf s1 n with wait := .none, begun := false, remote := some (s1.nextRid - 1) })
      | .lost s1 => .gives (.inr 0) s1
      | .stalls => .waits s
    else if !mine then .gives (.inr 0) (acuDeny s .headland 0 kRead 0x1FF la)
    else
      let (v, s1) := acuCheck s .headland 0 kRead (capHas c.vtb rSYS) false la
      if !v.ok then .gives (.inr 0) s1
      else if !accessReady s1 la then .waits (askSegment s1 la)
      else if poisonIn s1 la 16 then .gives (.inr 3) s1
      else if regionOf la == .setup then .gives (vectorHandler capNull) (vectorSetup s1 la)
      else .gives (vectorHandler (loadCap s1 la)) (dcacheAccess s1 n (alignDown la 64) 0 v.cache false).2

/-- Whether a cause was entered. -/
inductive Taken where
  | entered
  /-- an interrupt for a ring above EXC.RING stays pending (R161) -/
  | stays
  /-- the vector table has not answered yet -/
  | waits
  deriving DecidableEq, Repr

/-- Enter a cause by what the vector table gave (R161, R162, R165). -/
def enterVector (s : State) (n : Nat) (k : Cause) (r : Cap ⊕ Nat) : Taken × State :=
  let c := coreOf s n
  match r with
  | .inr reason => (.entered, enterMachine s n { k with num := 35, detail := k.num + reason * 64 })
  | .inl h =>
    if (excRing c).toNat < (capRing h).toNat then
      if interruptCause k.num then (.stays, s) else (.entered, enterFixed s n false k)
    else
      let (b, g30) := fillBank s c c.bankO k false
      let c1 := gSet { c with bankO := b } 30 g30
      (.entered, perfEvents (setCore s n { clearBegun c1 with exc := capWithOtype h 0 h.tag }) n c [13])

/-- Take a cause on core `n` (R161 to R165): the one operation every trap, interrupt and machine check goes through. A
fault whose table entry must be waited for is not entered yet, and its instruction has not retired. -/
def takeTrap (s : State) (n : Nat) (k : Cause) : Taken × State :=
  let c := coreOf s n
  if machineCause k.num then (.entered, enterMachine s n k)
  else if !interruptCause k.num && bankBusy c.bankO then
    (.entered, enterMachine s n { k with num := 34, detail := k.num })
  else if bitAt c.st 1 then (.entered, enterFixed s n false k)
  else
    match vectorEntry s n k with
    | .gives r s1 => enterVector s1 n k r
    | .waits s1 => (.waits, s1)

/- Interrupts that keep the next instruction from running (06 R156, R161, R167, R168) -/

/-- Enabled pending interrupts of a core, as cause numbers, lowest first (06 R167). -/
def pendingCauses (s : State) (n : Nat) : List Nat :=
  let p := (regGet s (Reg.intPend n)).toNat
  let e := (regGet s (Reg.intEn n)).toNat
  ((List.range 4).filter (fun b => p.testBit b && e.testBit b)).map (fun b => b + 16)

/-- An interrupt as a cause. -/
def interruptAs (c : HlCore) (k : Nat) : Cause :=
  ⟨k, 0, if k = 18 then c.perfOvf.toNat % 256 else 0, capNull, 0, capCursor c.exc⟩

/-- Interrupts are not masked as a whole: ST.IE is set and neither bank is busy (R167). -/
def interruptsOpen (c : HlCore) : Bool := bitAt c.st 0 && !bankBusy c.bankO && !bankBusy c.bankM

/-- Is an unmasked interrupt, or the watchdog, due at the core's instruction boundary? An interrupt that stays pending for
its handler's ring is not (R161). -/
def boundaryDue (s : State) (n : Nat) : Bool :=
  let c := coreOf s n
  let w := regGet s (Reg.trapWdog n)
  c.wdogDue || (w ≠ 0 && decide (w.toNat ≤ s.tbc.toNat)) ||
  (interruptsOpen c && (pendingCauses s n).any (fun k =>
    !c.deferred.contains k && (takeTrap s n (interruptAs c k)).1 != .stays))

/-- The instruction word is one that 05 R128 lists by name, other than SCWAIT and WFI, or a CST (03 R87): it retires before an
interrupt that comes due while it is the oldest is taken (R168). -/
def retiresFirst (word : W32) : Bool :=
  match Sys2Proof.decodeHl 0 word with
  | .atomicSwap .. | .atomicAdd .. | .atomicAnd .. | .atomicOr .. | .atomicXor .. | .atomicMin .. | .atomicMax .. => true
  | .atomicMinu .. | .atomicMaxu .. | .cas .. | .msadd .. | .csrr .. | .csrw .. | .gate .. | .cjalg .. => true
  | .retgRs1 .. | .retgRs1St .. | .retgBankO .. | .retgBankM .. | .qput .. | .cstart .. | .halt .. | .rdtb .. => true
  | .scinc .. | .screset .. | .fenceFull .. | .fenceLoad .. | .fenceStore .. | .csealh .. | .cunsealh .. | .cst .. => true
  | _ => false

/- Promotion -/

/-- The pc after the present instruction. -/
def nextPc (c : HlCore) : W64 := capCursor c.exc + 4
/-- Advance EXC to the next instruction; the tag is kept under 03 R61. -/
def advance (c : HlCore) : HlCore := { c with exc := capMoveCursor c.exc (nextPc c) }

/-- An interrupt or the watchdog stood at the last boundary and is due still: no instruction runs before it (06 R156, R168). One
that comes due once the next instruction is the oldest waits for it where the rules say so (06 R160, R168, R171). -/
def heldBack (s : State) (n : Nat) : Bool := (coreOf s n).owed && boundaryDue s n

/-- Core `n` stands at a new instruction boundary: what is due there goes before the next instruction (06 R156, R168). -/
def atEdge (s : State) (n : Nat) : State := setCore s n { coreOf s n with owed := boundaryDue s n }

/-- The oldest instruction has begun and cannot complete yet: unless it waits for a counter or a response, the core keeps
whether R128 lists it; and the cache class of its fetch. -/
def noteBegun (s : State) (n : Nat) (first : Bool) (cls : BitVec 2) : State :=
  let c := coreOf s n
  setCore s n { c with begun := first && c.wait == .none && c.remote == none, fetched := some cls }

/-- What an instruction has fetched and does not promote yet leaves no trace in the caches (R130): they are those of `before`, which
differs in nothing else but this core. -/
def unfetched (before s : State) (n : Nat) : State :=
  let b := coreOf before n
  let c : HlCore := { coreOf s n with icache := b.icache, irecent := b.irecent, dcache := b.dcache, drecent := b.drecent }
  { s with cores := sset coreDefault before.cores n c }

/-- The fetch of an instruction that waited is promoted now: its line goes into the instruction cache (R130). Whether it missed. -/
def promoteFetch (s : State) (n : Nat) : Bool × State :=
  let c := coreOf s n
  match c.fetched with
  | none => (false, s)
  | some cls => icacheAccess (setCore s n { c with fetched := none }) n (alignDown (localPart (capCursor c.exc).toNat) 64) (coreTenant c) cls
/-- The fetch of an instruction that traps is counted where it missed (R139). -/
def countFetch (s : State) (n : Nat) : State :=
  let (miss, s1) := promoteFetch s n
  if miss then perfEvents s1 n (coreOf s n) [7] else s1

/-- Enter the fault of an instruction; `before` is the state without the records of its checks. Until its vector table entry
can be loaded nothing of it is recorded or counted: the instruction is presented again. -/
def takeFault (before s : State) (n : Nat) (k : Cause) : State :=
  match takeTrap (countFetch s n) n k with
  | (.waits, s1) => if (coreOf s1 n).remote == none then (takeTrap before n k).2 else (takeTrap s n k).2
  | (_, s1) => atEdge s1 n

/-- Run one instruction of core `n`: fetch checks first (R160), then its body; a cause is entered by `takeTrap`. `first` tells
of the state and the core that R128 lists the instruction. While an interrupt or the watchdog is due that came after the last
boundary, a fault is entered before it (R160), one that R128 lists retires before it (R168), and any other waits for it. A fetch
under UC or DV is no access that event 11 counts (DEDUCED, log entry 12). -/
def hlRunWith (s : State) (n : Nat) (word : W32) (first : State → HlCore → Bool) (body : State → HlCore → HlRes) :
    Host.Outcome State Fault Refusal :=
  if !executing s n || heldBack s n then .next s
  else
    let c := coreOf s n
    let pc := capCursor c.exc
    let waits := boundaryDue s n && !first s c
    match fetchCheck s c.exc (coreTenant c) with
    | (some (num, detail), _, s1) => .next (takeFault s s1 n ⟨num, pc, detail, c.exc, 0, pc⟩)
    | (none, cls, s1) =>
      let la := localPart pc.toNat
      if !accessReady s1 la then .next (if waits then s else askSegment s1 la)
      else if poisonIn s1 la 4 then .next (takeFault s s1 n ⟨32, pc, 1, c.exc, 0, pc⟩)
      else
        let (miss, s2) := icacheAccess s1 n (alignDown la 64) (coreTenant c) cls
        let s3 := setCore s2 n { coreOf s2 n with begun := false, fetched := none }
        match body s3 (coreOf s3 n) with
        | .retire s4 ev =>
          .next (if waits then s else atEdge (perfEvents s4 n c ((if miss then [7] else []) ++ [1] ++ ev)) n)
        | .trap s4 num tval detail auth =>
          let back (st : State) : State := noteBegun (unfetched s1 st n) n false cls
          .next (takeFault (back s3) (back s4) n ⟨num, tval, detail, auth, word, pc⟩)
        | .wait s4 => .next (if waits then s else noteBegun (unfetched s1 s4 n) n (first s c) cls)

/-- Run one instruction that R128 lists, or does not, by its word alone. -/
def hlRun (s : State) (n : Nat) (word : W32) (body : State → HlCore → HlRes) : Host.Outcome State Fault Refusal :=
  hlRunWith s n word (fun _ _ => retiresFirst word) body

/-- An instruction that only computes: the core after, its EXC advanced. -/
def retireCore (s : State) (n : Nat) (c : HlCore) (events : List Nat) : HlRes := .retire (setCore s n (advance c)) events

end Sys2Proof.Machine
end

