-- ==== Sys2Proof/Machine/HlInt.lean ====
section
/-! DEFINITION. Headland integer instructions (spec 05 R119, R122). -/

namespace Sys2Proof.Machine

/-- 1 or 0. -/
def ofFlag (b : Bool) : W64 := if b then 1 else 0

/-- A register shift (func 5 left, 6 logical right, 7 arithmetic right). The spec states no result for an amount of 64
or more: a free value of the operands (log entry 10). -/
def shiftBy (op : Nat) (a b : W64) : W64 :=
  if b.toNat ≥ 64 then Config.shiftCorner op a b
  else if op = 5 then a <<< b.toNat else if op = 6 then a >>> b.toNat else a.sshiftRight b.toNat

/-- High 64 bits of a product. -/
def mulHigh (signed : Bool) (a b : W64) : W64 :=
  if signed then ((a.signExtend 128 * b.signExtend 128) >>> 64).setWidth 64
  else ((a.setWidth 128 * b.setWidth 128) >>> 64).setWidth 64

/-- DIV, DIVU, REM, REMU by func value. A divisor of 0, and the most negative number by -1, are free values of the
operands: the spec states no result (log entry 9). -/
def divide (op : Nat) (a b : W64) : W64 :=
  if b = 0 then Config.divCorner op a b
  else if op = 0x19 then a / b
  else if op = 0x1B then a % b
  else if a = BitVec.intMin 64 && b = BitVec.allOnes 64 then Config.divCorner op a b
  else if op = 0x18 then a.sdiv b else a.srem b

/-- One integer instruction of form A: rd := f rs1 rs2 (R119). -/
def hlAlu (core : BitVec 4) (rd rs1 rs2 : BitVec 5) (word : W32) (f : W64 → W64 → W64) (s : State) :
    Host.Outcome State Fault Refusal :=
  hlRun s core.toNat word (fun s c =>
    retireCore s core.toNat (gSetInt c rd.toNat (f (gInt c rs1.toNat) (gInt c rs2.toNat))) [])

/-- One integer instruction of form I: rd := f rs1. -/
def hlAluImm (core : BitVec 4) (rd rs1 : BitVec 5) (word : W32) (f : W64 → W64) (s : State) :
    Host.Outcome State Fault Refusal :=
  hlRun s core.toNat word (fun s c => retireCore s core.toNat (gSetInt c rd.toNat (f (gInt c rs1.toNat))) [])

/-- ADD (R122): rd := rs1 + rs2 modulo 2^64. -/
def execAdd (core : BitVec 4) (rd rs1 rs2 : BitVec 5) (s : State) : Host.Outcome State Fault Refusal :=
  hlAlu core rd rs1 rs2 (encodeHl (.add core rd rs1 rs2)) (fun a b => a + b) s

/-- SUB (R122): rd := rs1 - rs2 modulo 2^64. -/
def execSub (core : BitVec 4) (rd rs1 rs2 : BitVec 5) (s : State) : Host.Outcome State Fault Refusal :=
  hlAlu core rd rs1 rs2 (encodeHl (.sub core rd rs1 rs2)) (fun a b => a - b) s

/-- AND (R122): AND. -/
def execAnd (core : BitVec 4) (rd rs1 rs2 : BitVec 5) (s : State) : Host.Outcome State Fault Refusal :=
  hlAlu core rd rs1 rs2 (encodeHl (.and core rd rs1 rs2)) (fun a b => a &&& b) s

/-- OR (R122): OR. -/
def execOr (core : BitVec 4) (rd rs1 rs2 : BitVec 5) (s : State) : Host.Outcome State Fault Refusal :=
  hlAlu core rd rs1 rs2 (encodeHl (.or core rd rs1 rs2)) (fun a b => a ||| b) s

/-- XOR (R122): XOR. -/
def execXor (core : BitVec 4) (rd rs1 rs2 : BitVec 5) (s : State) : Host.Outcome State Fault Refusal :=
  hlAlu core rd rs1 rs2 (encodeHl (.xor core rd rs1 rs2)) (fun a b => a ^^^ b) s

/-- SHL (R122): left shift by rs2. -/
def execShl (core : BitVec 4) (rd rs1 rs2 : BitVec 5) (s : State) : Host.Outcome State Fault Refusal :=
  hlAlu core rd rs1 rs2 (encodeHl (.shl core rd rs1 rs2)) (fun a b => shiftBy 5 a b) s

/-- SHR (R122): logical right shift by rs2. -/
def execShr (core : BitVec 4) (rd rs1 rs2 : BitVec 5) (s : State) : Host.Outcome State Fault Refusal :=
  hlAlu core rd rs1 rs2 (encodeHl (.shr core rd rs1 rs2)) (fun a b => shiftBy 6 a b) s

/-- SAR (R122): arithmetic right shift by rs2. -/
def execSar (core : BitVec 4) (rd rs1 rs2 : BitVec 5) (s : State) : Host.Outcome State Fault Refusal :=
  hlAlu core rd rs1 rs2 (encodeHl (.sar core rd rs1 rs2)) (fun a b => shiftBy 7 a b) s

/-- SLT (R122): signed less-than. -/
def execSlt (core : BitVec 4) (rd rs1 rs2 : BitVec 5) (s : State) : Host.Outcome State Fault Refusal :=
  hlAlu core rd rs1 rs2 (encodeHl (.slt core rd rs1 rs2)) (fun a b => ofFlag (a.slt b)) s

/-- SLTU (R122): unsigned less-than. -/
def execSltu (core : BitVec 4) (rd rs1 rs2 : BitVec 5) (s : State) : Host.Outcome State Fault Refusal :=
  hlAlu core rd rs1 rs2 (encodeHl (.sltu core rd rs1 rs2)) (fun a b => ofFlag (a.ult b)) s

/-- MIN (R122): signed minimum. -/
def execMin (core : BitVec 4) (rd rs1 rs2 : BitVec 5) (s : State) : Host.Outcome State Fault Refusal :=
  hlAlu core rd rs1 rs2 (encodeHl (.min core rd rs1 rs2)) (fun a b => if a.slt b then a else b) s

/-- MAX (R122): signed maximum. -/
def execMax (core : BitVec 4) (rd rs1 rs2 : BitVec 5) (s : State) : Host.Outcome State Fault Refusal :=
  hlAlu core rd rs1 rs2 (encodeHl (.max core rd rs1 rs2)) (fun a b => if a.slt b then b else a) s

/-- MUL (R122): low 64 bits of the product. -/
def execMul (core : BitVec 4) (rd rs1 rs2 : BitVec 5) (s : State) : Host.Outcome State Fault Refusal :=
  hlAlu core rd rs1 rs2 (encodeHl (.mul core rd rs1 rs2)) (fun a b => a * b) s

/-- MULH (R122): high 64 bits of the signed product. -/
def execMulh (core : BitVec 4) (rd rs1 rs2 : BitVec 5) (s : State) : Host.Outcome State Fault Refusal :=
  hlAlu core rd rs1 rs2 (encodeHl (.mulh core rd rs1 rs2)) (fun a b => mulHigh true a b) s

/-- MULHU (R122): high 64 bits of the unsigned product. -/
def execMulhu (core : BitVec 4) (rd rs1 rs2 : BitVec 5) (s : State) : Host.Outcome State Fault Refusal :=
  hlAlu core rd rs1 rs2 (encodeHl (.mulhu core rd rs1 rs2)) (fun a b => mulHigh false a b) s

/-- DIV (R122): signed quotient, toward zero. -/
def execDiv (core : BitVec 4) (rd rs1 rs2 : BitVec 5) (s : State) : Host.Outcome State Fault Refusal :=
  hlAlu core rd rs1 rs2 (encodeHl (.div core rd rs1 rs2)) (fun a b => divide 0x18 a b) s

/-- DIVU (R122): unsigned quotient. -/
def execDivu (core : BitVec 4) (rd rs1 rs2 : BitVec 5) (s : State) : Host.Outcome State Fault Refusal :=
  hlAlu core rd rs1 rs2 (encodeHl (.divu core rd rs1 rs2)) (fun a b => divide 0x19 a b) s

/-- REM (R122): signed remainder, with the sign of the dividend. -/
def execRem (core : BitVec 4) (rd rs1 rs2 : BitVec 5) (s : State) : Host.Outcome State Fault Refusal :=
  hlAlu core rd rs1 rs2 (encodeHl (.rem core rd rs1 rs2)) (fun a b => divide 0x1A a b) s

/-- REMU (R122): unsigned remainder. -/
def execRemu (core : BitVec 4) (rd rs1 rs2 : BitVec 5) (s : State) : Host.Outcome State Fault Refusal :=
  hlAlu core rd rs1 rs2 (encodeHl (.remu core rd rs1 rs2)) (fun a b => divide 0x1B a b) s

/-- ADDI (R122). -/
def execAddi (core : BitVec 4) (rd rs1 : BitVec 5) (i : BitVec 16) (s : State) : Host.Outcome State Fault Refusal :=
  hlAluImm core rd rs1 (encodeHl (.addi core rd rs1 i)) (fun a => a + i.signExtend 64) s

/-- ANDI (R122). -/
def execAndi (core : BitVec 4) (rd rs1 : BitVec 5) (i : BitVec 16) (s : State) : Host.Outcome State Fault Refusal :=
  hlAluImm core rd rs1 (encodeHl (.andi core rd rs1 i)) (fun a => a &&& i.signExtend 64) s

/-- ORI (R122). -/
def execOri (core : BitVec 4) (rd rs1 : BitVec 5) (i : BitVec 16) (s : State) : Host.Outcome State Fault Refusal :=
  hlAluImm core rd rs1 (encodeHl (.ori core rd rs1 i)) (fun a => a ||| i.signExtend 64) s

/-- XORI (R122). -/
def execXori (core : BitVec 4) (rd rs1 : BitVec 5) (i : BitVec 16) (s : State) : Host.Outcome State Fault Refusal :=
  hlAluImm core rd rs1 (encodeHl (.xori core rd rs1 i)) (fun a => a ^^^ i.signExtend 64) s

/-- LUI (R122). -/
def execLui (core : BitVec 4) (rd rs1 : BitVec 5) (i : BitVec 16) (s : State) : Host.Outcome State Fault Refusal :=
  hlAluImm core rd rs1 (encodeHl (.lui core rd rs1 i)) (fun _ => (i ++ (0#16)).signExtend 64) s

/-- LSHI (R122). -/
def execLshi (core : BitVec 4) (rd rs1 : BitVec 5) (i : BitVec 16) (s : State) : Host.Outcome State Fault Refusal :=
  hlAluImm core rd rs1 (encodeHl (.lshi core rd rs1 i)) (fun a => (a <<< 16) ||| i.setWidth 64) s

/-- SLTI (R122). -/
def execSlti (core : BitVec 4) (rd rs1 : BitVec 5) (i : BitVec 16) (s : State) : Host.Outcome State Fault Refusal :=
  hlAluImm core rd rs1 (encodeHl (.slti core rd rs1 i)) (fun a => ofFlag (a.slt (i.signExtend 64))) s

/-- shiShl (R122). -/
def execShiShl (core : BitVec 4) (rd rs1 : BitVec 5) (n : BitVec 6) (s : State) : Host.Outcome State Fault Refusal :=
  hlAluImm core rd rs1 (encodeHl (.shiShl core rd rs1 n)) (fun a => a <<< n.toNat) s

/-- shiShr (R122). -/
def execShiShr (core : BitVec 4) (rd rs1 : BitVec 5) (n : BitVec 6) (s : State) : Host.Outcome State Fault Refusal :=
  hlAluImm core rd rs1 (encodeHl (.shiShr core rd rs1 n)) (fun a => a >>> n.toNat) s

/-- shiSar (R122). -/
def execShiSar (core : BitVec 4) (rd rs1 : BitVec 5) (n : BitVec 6) (s : State) : Host.Outcome State Fault Refusal :=
  hlAluImm core rd rs1 (encodeHl (.shiSar core rd rs1 n)) (fun a => a.sshiftRight n.toNat) s

/-- ILLEGAL_INSTRUCTION (R122): a word that the instruction tables do not list raises the illegal-instruction cause. A word
that they list is no such event, and the command does nothing (log entry 11). -/
def execIllegalInstruction (core : BitVec 4) (word : W32) (s : State) : Host.Outcome State Fault Refusal :=
  if decodeHl core word = .illegalInstruction core word then hlRun s core.toNat word (fun s _ => .trap s 1 0 0 capNull)
  else .next s

end Sys2Proof.Machine
end

