-- ==== Sys2Proof/Machine/HlCap.lean ====
section
/-! DEFINITION. Headland capability instructions that touch no memory (spec 05 R123, 03 R69 to R72). -/

namespace Sys2Proof.Machine

/-- A derivation: cd := f; event 8 counts a result whose tag is clear (R139). -/
def hlDerive (core : BitVec 4) (rd : BitVec 5) (word : W32) (counts : Bool) (f : HlCore → Cap) (s : State) :
    Host.Outcome State Fault Refusal :=
  hlRun s core.toNat word (fun s c =>
    let r := f c
    retireCore s core.toNat (gSet c rd.toNat r) (if counts && !r.tag then [8] else []))

/-- A query: rd := an integer read from cs. -/
def hlQuery (core : BitVec 4) (rd rs1 : BitVec 5) (word : W32) (f : Cap → W64) (s : State) :
    Host.Outcome State Fault Refusal :=
  hlRun s core.toNat word (fun s c => retireCore s core.toNat (gSetInt c rd.toNat (f (gGet c rs1.toNat))) [])

/-- CMOV (R123): a copy is no derivation, and event 8 does not count one of an untagged value (DEDUCED, log entry 12). -/
def execCmov (core : BitVec 4) (rd rs1 rs2 : BitVec 5) (s : State) : Host.Outcome State Fault Refusal :=
  hlDerive core rd (encodeHl (.cmov core rd rs1 rs2)) false (fun c => gGet c rs1.toNat) s

/-- CSETCUR (R123). -/
def execCsetcur (core : BitVec 4) (rd rs1 rs2 : BitVec 5) (s : State) : Host.Outcome State Fault Refusal :=
  hlDerive core rd (encodeHl (.csetcur core rd rs1 rs2)) true (fun c => capSetCursor (gGet c rs1.toNat) (gInt c rs2.toNat)) s

/-- CINCCUR (R123). -/
def execCinccur (core : BitVec 4) (rd rs1 rs2 : BitVec 5) (s : State) : Host.Outcome State Fault Refusal :=
  hlDerive core rd (encodeHl (.cinccur core rd rs1 rs2)) true (fun c => capIncCursor (gGet c rs1.toNat) (gInt c rs2.toNat).toInt) s

/-- CSETB (R123). -/
def execCsetb (core : BitVec 4) (rd rs1 rs2 : BitVec 5) (s : State) : Host.Outcome State Fault Refusal :=
  hlDerive core rd (encodeHl (.csetb core rd rs1 rs2)) true (fun c => capSetBounds (gGet c rs1.toNat) (gInt c rs2.toNat).toNat false) s

/-- CSETBX (R123). -/
def execCsetbx (core : BitVec 4) (rd rs1 rs2 : BitVec 5) (s : State) : Host.Outcome State Fault Refusal :=
  hlDerive core rd (encodeHl (.csetbx core rd rs1 rs2)) true (fun c => capSetBounds (gGet c rs1.toNat) (gInt c rs2.toNat).toNat true) s

/-- CANDR (R123). -/
def execCandr (core : BitVec 4) (rd rs1 rs2 : BitVec 5) (s : State) : Host.Outcome State Fault Refusal :=
  hlDerive core rd (encodeHl (.candr core rd rs1 rs2)) true (fun c => capAndRights (gGet c rs1.toNat) ((gInt c rs2.toNat).setWidth 12)) s

/-- CSETRING (R123). -/
def execCsetring (core : BitVec 4) (rd rs1 rs2 : BitVec 5) (s : State) : Host.Outcome State Fault Refusal :=
  hlDerive core rd (encodeHl (.csetring core rd rs1 rs2)) true (fun c => capSetRing (gGet c rs1.toNat) ((gInt c rs2.toNat).setWidth 2) (excRing c)) s

/-- CSEAL (R123). -/
def execCseal (core : BitVec 4) (rd rs1 rs2 : BitVec 5) (s : State) : Host.Outcome State Fault Refusal :=
  hlDerive core rd (encodeHl (.cseal core rd rs1 rs2)) true (fun c => capSeal (gGet c rs1.toNat) (gGet c rs2.toNat) (excRing c)) s

/-- CUNSEAL (R123). -/
def execCunseal (core : BitVec 4) (rd rs1 rs2 : BitVec 5) (s : State) : Host.Outcome State Fault Refusal :=
  hlDerive core rd (encodeHl (.cunseal core rd rs1 rs2)) true (fun c => capUnseal (gGet c rs1.toNat) (gGet c rs2.toNat) (excRing c)) s

/-- CCLRTAG (R123). -/
def execCclrtag (core : BitVec 4) (rd rs1 rs2 : BitVec 5) (s : State) : Host.Outcome State Fault Refusal :=
  hlDerive core rd (encodeHl (.cclrtag core rd rs1 rs2)) true (fun c => ⟨false, (gGet c rs1.toNat).bits⟩) s

/-- CINCCURI (R122): cursor plus sext(imm16), as CINCCUR. -/
def execCinccuri (core : BitVec 4) (rd rs1 : BitVec 5) (imm : BitVec 16) (s : State) : Host.Outcome State Fault Refusal :=
  hlDerive core rd (encodeHl (.cinccuri core rd rs1 imm)) true (fun c => capIncCursor (gGet c rs1.toNat) imm.toInt) s

/-- CQBASE (R123). -/
def execCqbase (core : BitVec 4) (rd rs1 rs2 : BitVec 5) (s : State) : Host.Outcome State Fault Refusal :=
  hlQuery core rd rs1 (encodeHl (.cqbase core rd rs1 rs2)) (fun k => capBase64 k) s

/-- CQLEN (R123). -/
def execCqlen (core : BitVec 4) (rd rs1 rs2 : BitVec 5) (s : State) : Host.Outcome State Fault Refusal :=
  hlQuery core rd rs1 (encodeHl (.cqlen core rd rs1 rs2)) (fun k => capLen64 k) s

/-- CQRIGHTS (R123). -/
def execCqrights (core : BitVec 4) (rd rs1 rs2 : BitVec 5) (s : State) : Host.Outcome State Fault Refusal :=
  hlQuery core rd rs1 (encodeHl (.cqrights core rd rs1 rs2)) (fun k => (capRights k).setWidth 64) s

/-- CQTYPE (R123). -/
def execCqtype (core : BitVec 4) (rd rs1 rs2 : BitVec 5) (s : State) : Host.Outcome State Fault Refusal :=
  hlQuery core rd rs1 (encodeHl (.cqtype core rd rs1 rs2)) (fun k => (capOtype k).setWidth 64) s

/-- CQTAG (R123). -/
def execCqtag (core : BitVec 4) (rd rs1 rs2 : BitVec 5) (s : State) : Host.Outcome State Fault Refusal :=
  hlQuery core rd rs1 (encodeHl (.cqtag core rd rs1 rs2)) (fun k => ofFlag k.tag) s

/-- CQRING (R123). -/
def execCqring (core : BitVec 4) (rd rs1 rs2 : BitVec 5) (s : State) : Host.Outcome State Fault Refusal :=
  hlQuery core rd rs1 (encodeHl (.cqring core rd rs1 rs2)) (fun k => (capRing k).setWidth 64) s

/-- CQCUR (R123). -/
def execCqcur (core : BitVec 4) (rd rs1 rs2 : BitVec 5) (s : State) : Host.Outcome State Fault Refusal :=
  hlQuery core rd rs1 (encodeHl (.cqcur core rd rs1 rs2)) (fun k => capCursor k) s

end Sys2Proof.Machine
end

