-- ==== Sys2Proof/Machine/HlFlow.lean ====
section
/-! DEFINITION. Headland branches, jumps, gates and gate returns (spec 05 R120, R124; 06 R148 to R157). -/

namespace Sys2Proof.Machine

/-- A branch outcome: the target is counted in instructions from the branch itself (DESIGN CHOICE, log entry 12: R120 and R121 name no
base). Event 4 is a branch or jump
promoted; event 5, a misprediction, is a free choice, since the predictor is not specified. -/
def hlJumpTo (s : State) (n : Nat) (c : HlCore) (taken : Bool) (off : Int) (conditional : Bool) : HlRes :=
  let (v, s1) := if conditional then freeNext s else (0, s)
  let target := capCursor c.exc + BitVec.ofInt 64 (4 * off)
  let c' := if taken then { c with exc := capMoveCursor c.exc target } else advance c
  .retire (setCore s1 n c') (if conditional && bitAt v 0 then [4, 5] else [4])

/-- A branch of form B. -/
def hlBranch (core : BitVec 4) (rs1 rs2 : BitVec 5) (imm : BitVec 16) (word : W32) (p : W64 → W64 → Bool) (s : State) :
    Host.Outcome State Fault Refusal :=
  hlRun s core.toNat word (fun s c =>
    hlJumpTo s core.toNat c (p (gInt c rs1.toNat) (gInt c rs2.toNat)) imm.toInt true)

/-- BEQ (R122). -/
def execBeq (core : BitVec 4) (rs1 rs2 : BitVec 5) (imm : BitVec 16) (s : State) : Host.Outcome State Fault Refusal :=
  hlBranch core rs1 rs2 imm (encodeHl (.beq core rs1 rs2 imm)) (fun a b => a == b) s
/-- BNE (R122). -/
def execBne (core : BitVec 4) (rs1 rs2 : BitVec 5) (imm : BitVec 16) (s : State) : Host.Outcome State Fault Refusal :=
  hlBranch core rs1 rs2 imm (encodeHl (.bne core rs1 rs2 imm)) (fun a b => a != b) s
/-- BLT (R122), signed. -/
def execBlt (core : BitVec 4) (rs1 rs2 : BitVec 5) (imm : BitVec 16) (s : State) : Host.Outcome State Fault Refusal :=
  hlBranch core rs1 rs2 imm (encodeHl (.blt core rs1 rs2 imm)) (fun a b => a.slt b) s
/-- BGE (R122), signed. -/
def execBge (core : BitVec 4) (rs1 rs2 : BitVec 5) (imm : BitVec 16) (s : State) : Host.Outcome State Fault Refusal :=
  hlBranch core rs1 rs2 imm (encodeHl (.bge core rs1 rs2 imm)) (fun a b => !a.slt b) s
/-- BLTU (R122). -/
def execBltu (core : BitVec 4) (rs1 rs2 : BitVec 5) (imm : BitVec 16) (s : State) : Host.Outcome State Fault Refusal :=
  hlBranch core rs1 rs2 imm (encodeHl (.bltu core rs1 rs2 imm)) (fun a b => a.ult b) s
/-- BGEU (R122). -/
def execBgeu (core : BitVec 4) (rs1 rs2 : BitVec 5) (imm : BitVec 16) (s : State) : Host.Outcome State Fault Refusal :=
  hlBranch core rs1 rs2 imm (encodeHl (.bgeu core rs1 rs2 imm)) (fun a b => !a.ult b) s

/-- JMP (R120, R122). -/
def execJmp (core : BitVec 4) (imm : BitVec 26) (s : State) : Host.Outcome State Fault Refusal :=
  hlRun s core.toNat (encodeHl (.jmp core imm)) (fun s c => hlJumpTo s core.toNat c true imm.toInt false)

/-- JAL (R124): G31 is EXC with the next instruction's address, its tag kept. -/
def execJal (core : BitVec 4) (imm : BitVec 26) (s : State) : Host.Outcome State Fault Refusal :=
  hlRun s core.toNat (encodeHl (.jal core imm)) (fun s c =>
    hlJumpTo s core.toNat (gSet c 31 (capMoveCursor c.exc (nextPc c))) true imm.toInt false)

/-- CJALR (R124, R58): the link in cd, then EXC := cs. A sealed cs, and one whose RING differs, fault here, tagged or not;
an untagged one that passes faults at the fetch it causes (R120). -/
def execCjalr (core : BitVec 4) (rd rs1 rs2 : BitVec 5) (s : State) : Host.Outcome State Fault Refusal :=
  hlRun s core.toNat (encodeHl (.cjalr core rd rs1 rs2)) (fun s c =>
    let cs := gGet c rs1.toNat
    if capSealed cs then .trap s 4 (capCursor cs) 0 cs
    else if capRing cs != excRing c then .trap s 5 (capCursor cs) 0 cs
    else
      let link := capMoveCursor c.exc (nextPc c)
      .retire (setCore s core.toNat { gSet c rd.toNat link with exc := cs }) [4])

/-- The return gate of R150. -/
def returnGate (c : HlCore) : Cap :=
  let r := capMoveCursor c.exc (nextPc c)
  capWithOtype r (BitVec.ofNat 8 (240 + (excRing c).toNat)) r.tag

/-- The first-fetch checks at the ring and tenant the core would then run with. -/
def firstFetchFor (s : State) (c : HlCore) (k : Cap) : Option (Nat × Nat) × State :=
  let e := capWithOtype k 0 k.tag
  let (r, _, s1) := fetchCheck s e (if (capRing e).toNat ≤ 1 then 0 else ctxTenant c)
  (r, s1)

/-- CJALG (R151): the checks in order, then the return gate in cd and EXC := cs unsealed, in one step. R165 names the
authority of a failing access: where there is no access, TAUTH is the checked cs (DESIGN CHOICE, log entry 12). -/
def execCjalg (core : BitVec 4) (rd rs1 rs2 : BitVec 5) (s : State) : Host.Outcome State Fault Refusal :=
  hlRun s core.toNat (encodeHl (.cjalg core rd rs1 rs2)) (fun s c =>
    let cs := gGet c rs1.toNat
    let o := (capOtype cs).toNat
    let tv := capCursor cs
    if !cs.tag then .trap s 3 tv 0 cs
    else if o < 240 || 243 < o then .trap s 4 tv 0 cs
    else if (capRing cs).toNat != o - 240 || (excRing c).toNat < (capRing cs).toNat then .trap s 5 tv 0 cs
    else if !capHas cs rEX then .trap s 2 tv 0 cs
    else
      match firstFetchFor s c cs with
      | (some (num, d), s1) => .trap s1 num tv d cs
      | (none, s1) =>
        let c1 := gSet c rd.toNat (returnGate c)
        .retire (setCore s1 core.toNat { c1 with exc := capWithOtype cs 0 cs.tag }) [13])

/-- An unlisted ENT register is null. -/
def entOf (c : HlCore) (i : Nat) : Cap := sget gDflt c.ent i

/-- GATE k (R152). A gate fault has no authority and its TAUTH is null; TVAL of the ring violation is 0 (DESIGN CHOICE, log
entry 12). -/
def execGate (core : BitVec 4) (k : BitVec 2) (s : State) : Host.Outcome State Fault Refusal :=
  hlRun s core.toNat (encodeHl (.gate core k)) (fun s c =>
    let code := entOf c (2 * k.toNat)
    let stack := entOf c (2 * k.toNat + 1)
    let gf (st : State) (stackBad check : Nat) : HlRes :=
      .trap st 10 (capCursor code) (k.toNat + stackBad * 4 + check * 8) capNull
    if (excRing c).toNat < k.toNat then .trap s 5 0 0 capNull
    else if !code.tag then gf s 0 0
    else if capSealed code then gf s 0 1
    else if capRing code != k then gf s 0 2
    else if !capHas code rEX then gf s 0 3
    else
      match firstFetchFor s c code with
      | (some (num, _), s1) => gf s1 0 (if num = 2 then 5 else 4)
      | (none, s1) =>
        if !stack.tag then gf s1 1 0
        else if capSealed stack then gf s1 1 1
        else if capRing stack != k then gf s1 1 2
        else
          let c1 := gSet (gSet (gSet c 31 (returnGate c)) 29 (gGet c 30)) 30 stack
          .retire (setCore s1 core.toNat { c1 with exc := code }) [13])

/-- R155: the new ST from a source value. -/
def mergeSt (c : HlCore) (v : W32) : W32 :=
  let st := setFld c.st 2 (fld v 2 7)
  let st1 := if (excRing c).toNat ≤ 2 then setFld st 0 (fld v 0 1) else st
  if (excRing c).toNat = 0 then setFld st1 1 (fld v 1 1) else st1

/-- The checks of R154 on the source of a RETG, and then the step of R156: `bank` 0 none, 1 O, 2 M. TAUTH of a failed check
is the source capability (DESIGN CHOICE, log entry 12). -/
def hlReturn (s : State) (n : Nat) (c : HlCore) (k : Cap) (newSt : Option W32) (bank : Nat) : HlRes :=
  let o := (capOtype k).toNat
  let tv := capCursor k
  if !k.tag then .trap s 3 tv 0 k
  else if o != 0 && o != 240 + (capRing k).toNat then .trap s 4 tv 0 k
  else if (capRing k).toNat < (excRing c).toNat then .trap s 5 tv 0 k
  else if !capHas k rEX then .trap s 2 tv 0 k
  else
    match firstFetchFor s c k with
    | (some (num, d), s1) => .trap s1 num tv d k
    | (none, s1) =>
      let c1 := { c with exc := capWithOtype k 0 k.tag, st := (newSt.map (mergeSt c)).getD c.st }
      let c2 :=
        if bank = 1 then
          gSet { c1 with bankO := { c1.bankO with tstk := gGet c 30, tcause := setBit c1.bankO.tcause 8 false } } 30 c.bankO.tstk
        else if bank = 2 then
          gSet { c1 with bankM := { c1.bankM with tstk := gGet c 30, tcause := setBit c1.bankM.tcause 8 false } } 30 c.bankM.tstk
        else c1
      .retire (setCore s1 n { c2 with deferred := [] }) []

/-- RETG form 0 (R153, R154, R156): EXC from rs1, ST unchanged. -/
def execRetgRs1 (core : BitVec 4) (rs1 rs2 : BitVec 5) (s : State) : Host.Outcome State Fault Refusal :=
  hlRun s core.toNat (encodeHl (.retgRs1 core rs1 rs2)) (fun s c => hlReturn s core.toNat c (gGet c rs1.toNat) none 0)

/-- RETG form 1 (R155): ST merged from rs2[31:0]. -/
def execRetgRs1St (core : BitVec 4) (rs1 rs2 : BitVec 5) (s : State) : Host.Outcome State Fault Refusal :=
  hlRun s core.toNat (encodeHl (.retgRs1St core rs1 rs2)) (fun s c =>
    hlReturn s core.toNat c (gGet c rs1.toNat) (some ((gInt c rs2.toNat).setWidth 32)) 0)

/-- RETG form 2 (R153, R156): EXC and ST from bank O, at rings 0 and 1; elsewhere a ring violation, whose TVAL is 0 (DESIGN
CHOICE, log entry 12). -/
def execRetgBankO (core : BitVec 4) (s : State) : Host.Outcome State Fault Refusal :=
  hlRun s core.toNat (encodeHl (.retgBankO core)) (fun s c =>
    if !bankBusy c.bankO then .trap s 1 0 0 capNull
    else if 1 < (excRing c).toNat then .trap s 5 0 0 capNull
    else hlReturn s core.toNat c c.bankO.tepc (some (c.bankO.tst.setWidth 32)) 1)

/-- RETG form 3 (R153, R156): EXC and ST from bank M, at ring 0; elsewhere a ring violation, whose TVAL is 0 (DESIGN
CHOICE, log entry 12). -/
def execRetgBankM (core : BitVec 4) (s : State) : Host.Outcome State Fault Refusal :=
  hlRun s core.toNat (encodeHl (.retgBankM core)) (fun s c =>
    if !bankBusy c.bankM then .trap s 1 0 0 capNull
    else if 0 < (excRing c).toNat then .trap s 5 0 0 capNull
    else hlReturn s core.toNat c c.bankM.tepc (some (c.bankM.tst.setWidth 32)) 2)

end Sys2Proof.Machine
end

