-- ==== Sys2Proof/Machine/HlFloat.lean ====
section
/-! DEFINITION. Headland binary64 instructions (spec 05 R125): IEEE 754-2019 under ST.FRM, flags into ST.FFLAGS, no
trap, canonical NaN results. -/

namespace Sys2Proof.Machine

/-- ST.FRM. -/
def frm (c : HlCore) : Nat := (fld c.st 2 2).toNat
/-- Accumulate flags in ST.FFLAGS, bits [8:4]. -/
def addFlags (c : HlCore) (fl : FFlags) : HlCore := { c with st := setFld c.st 4 (fld c.st 4 5 ||| fl) }
/-- An operand as a value. -/
def f64 (x : W64) : FVal := fDecode fp64 x.toNat
/-- Invalid for a signalling NaN operand (13 R353). -/
def sNaNs (l : List FVal) : FFlags := if l.any isSNaN then flInvalid else 0

/-- An instruction that writes F register rd. -/
def hlFloat (core : BitVec 4) (rd : BitVec 5) (word : W32) (f : HlCore → Nat × FFlags) (s : State) :
    Host.Outcome State Fault Refusal :=
  hlRun s core.toNat word (fun s c =>
    let (x, fl) := f c
    retireCore s core.toNat (addFlags (fSet c rd.toNat (BitVec.ofNat 64 x)) fl) [])

/-- An instruction that reads F registers and writes an integer to G register rd. -/
def hlFloatToG (core : BitVec 4) (rd : BitVec 5) (word : W32) (f : HlCore → W64 × FFlags) (s : State) :
    Host.Outcome State Fault Refusal :=
  hlRun s core.toNat word (fun s c =>
    let (x, fl) := f c
    retireCore s core.toNat (addFlags (gSetInt c rd.toNat x) fl) [])

/-- The two F sources as values. -/
def fPair (c : HlCore) (rs1 rs2 : BitVec 5) : FVal × FVal := (f64 (fGet c rs1.toNat), f64 (fGet c rs2.toNat))

/-- IEEE 754-2019 minimum (`least`) or maximum: a NaN operand gives the canonical NaN, and -0 is below +0
(log entry 13). -/
def fMinMax (least : Bool) (x y : W64) : Nat × FFlags :=
  let a := f64 x
  let b := f64 y
  let fl := sNaNs [a, b]
  if isNaN a || isNaN b then (fmtNaN fp64, fl)
  else
    let aLess := match fCmp a b with
      | .lt => true
      | .gt => false
      | .eq => fSignOf a
    ((if aLess == least then x else y).toNat, fl)

/-- FADD. -/
def execFadd (core : BitVec 4) (rd rs1 rs2 : BitVec 5) (s : State) : Host.Outcome State Fault Refusal :=
  hlFloat core rd (encodeHl (.fadd core rd rs1 rs2)) (fun c =>
    let (a, b) := fPair c rs1 rs2
    let (v, fl) := fAddVal (frm c) a b
    fEncode fp64 (frm c) false v (fl ||| sNaNs [a, b])) s
/-- FSUB. -/
def execFsub (core : BitVec 4) (rd rs1 rs2 : BitVec 5) (s : State) : Host.Outcome State Fault Refusal :=
  hlFloat core rd (encodeHl (.fsub core rd rs1 rs2)) (fun c =>
    let (a, b) := fPair c rs1 rs2
    let (v, fl) := fAddVal (frm c) a (fNegVal b)
    fEncode fp64 (frm c) false v (fl ||| sNaNs [a, b])) s
/-- FMUL. -/
def execFmul (core : BitVec 4) (rd rs1 rs2 : BitVec 5) (s : State) : Host.Outcome State Fault Refusal :=
  hlFloat core rd (encodeHl (.fmul core rd rs1 rs2)) (fun c =>
    let (a, b) := fPair c rs1 rs2
    let (v, fl) := fMulVal a b
    fEncode fp64 (frm c) false v (fl ||| sNaNs [a, b])) s
/-- FDIV. -/
def execFdiv (core : BitVec 4) (rd rs1 rs2 : BitVec 5) (s : State) : Host.Outcome State Fault Refusal :=
  hlFloat core rd (encodeHl (.fdiv core rd rs1 rs2)) (fun c =>
    let (a, b) := fPair c rs1 rs2
    let (x, fl) := fDiv fp64 (frm c) a b
    (x, fl ||| sNaNs [a, b])) s
/-- FSQRT of rs1. -/
def execFsqrt (core : BitVec 4) (rd rs1 rs2 : BitVec 5) (s : State) : Host.Outcome State Fault Refusal :=
  hlFloat core rd (encodeHl (.fsqrt core rd rs1 rs2)) (fun c =>
    let a := f64 (fGet c rs1.toNat)
    let (x, fl) := fSqrt fp64 (frm c) a
    (x, fl ||| sNaNs [a])) s
/-- FMIN. -/
def execFmin (core : BitVec 4) (rd rs1 rs2 : BitVec 5) (s : State) : Host.Outcome State Fault Refusal :=
  hlFloat core rd (encodeHl (.fmin core rd rs1 rs2)) (fun c => fMinMax true (fGet c rs1.toNat) (fGet c rs2.toNat)) s
/-- FMAX. -/
def execFmax (core : BitVec 4) (rd rs1 rs2 : BitVec 5) (s : State) : Host.Outcome State Fault Refusal :=
  hlFloat core rd (encodeHl (.fmax core rd rs1 rs2)) (fun c => fMinMax false (fGet c rs1.toNat) (fGet c rs2.toNat)) s

/-- A comparison: 1 or 0 as an integer in G register rd, which R125 does not name (DESIGN CHOICE, log entry 13); a NaN
compares false, and raises invalid when `signalling` or signalling. -/
def fCompare (c : HlCore) (rs1 rs2 : BitVec 5) (signalling : Bool) (p : Ordering → Bool) : W64 × FFlags :=
  let (a, b) := fPair c rs1 rs2
  if isNaN a || isNaN b then (0, if signalling then flInvalid else sNaNs [a, b]) else (ofFlag (p (fCmp a b)), 0)

/-- FEQ. -/
def execFeq (core : BitVec 4) (rd rs1 rs2 : BitVec 5) (s : State) : Host.Outcome State Fault Refusal :=
  hlFloatToG core rd (encodeHl (.feq core rd rs1 rs2)) (fun c => fCompare c rs1 rs2 false (fun o => o == .eq)) s
/-- FLT. -/
def execFlt (core : BitVec 4) (rd rs1 rs2 : BitVec 5) (s : State) : Host.Outcome State Fault Refusal :=
  hlFloatToG core rd (encodeHl (.flt core rd rs1 rs2)) (fun c => fCompare c rs1 rs2 true (fun o => o == .lt)) s
/-- FLE. -/
def execFle (core : BitVec 4) (rd rs1 rs2 : BitVec 5) (s : State) : Host.Outcome State Fault Refusal :=
  hlFloatToG core rd (encodeHl (.fle core rd rs1 rs2)) (fun c => fCompare c rs1 rs2 true (fun o => o != .gt)) s

/-- FCVTLD: binary64 to s64 under FRM; out of range saturates, NaN gives 0, both set invalid. -/
def execFcvtld (core : BitVec 4) (rd rs1 rs2 : BitVec 5) (s : State) : Host.Outcome State Fault Refusal :=
  hlFloatToG core rd (encodeHl (.fcvtld core rd rs1 rs2)) (fun c =>
    let (x, sat, fl) := fToInt 64 true (frm c) (f64 (fGet c rs1.toNat))
    (BitVec.ofInt 64 x, if sat then flInvalid else fl)) s
/-- FCVTDL: s64 to binary64 under FRM. -/
def execFcvtdl (core : BitVec 4) (rd rs1 rs2 : BitVec 5) (s : State) : Host.Outcome State Fault Refusal :=
  hlFloat core rd (encodeHl (.fcvtdl core rd rs1 rs2)) (fun c =>
    let x := (gInt c rs1.toNat).toInt
    fEncode fp64 (frm c) false (.fin (decide (x < 0)) x.natAbs 0) 0) s
/-- FCVTSD: binary64 to binary32 in bits [31:0] of a G register; R125 says nothing of bits [63:32], which are zero here
(DESIGN CHOICE, log entry 13). -/
def execFcvtsd (core : BitVec 4) (rd rs1 rs2 : BitVec 5) (s : State) : Host.Outcome State Fault Refusal :=
  hlFloatToG core rd (encodeHl (.fcvtsd core rd rs1 rs2)) (fun c =>
    let a := f64 (fGet c rs1.toNat)
    let (x, fl) := fEncode fp32 (frm c) false a 0
    (BitVec.ofNat 64 x, fl ||| sNaNs [a])) s
/-- FCVTDS: binary32 in bits [31:0] of a G register widened exactly. -/
def execFcvtds (core : BitVec 4) (rd rs1 rs2 : BitVec 5) (s : State) : Host.Outcome State Fault Refusal :=
  hlFloat core rd (encodeHl (.fcvtds core rd rs1 rs2)) (fun c =>
    let a := fDecode fp32 (fld (gInt c rs1.toNat) 0 32).toNat
    let (x, fl) := fEncode fp64 (frm c) false a 0
    (x, fl ||| sNaNs [a])) s

/-- FMVGF: bits from a G register to an F register (the command table's words; log entry 14). -/
def execFmvgf (core : BitVec 4) (rd rs1 rs2 : BitVec 5) (s : State) : Host.Outcome State Fault Refusal :=
  hlFloat core rd (encodeHl (.fmvgf core rd rs1 rs2)) (fun c => ((gInt c rs1.toNat).toNat, 0)) s
/-- FMVFG: bits from an F register to a G register (the command table's words; log entry 14). -/
def execFmvfg (core : BitVec 4) (rd rs1 rs2 : BitVec 5) (s : State) : Host.Outcome State Fault Refusal :=
  hlFloatToG core rd (encodeHl (.fmvfg core rd rs1 rs2)) (fun c => (fGet c rs1.toNat, 0)) s

/-- A fused multiply-add, the product or the addend negated before it, the rounded result negated after it. -/
def hlFma (core : BitVec 4) (rd rs1 rs2 rs3 : BitVec 5) (word : W32) (negC negR : Bool) (s : State) :
    Host.Outcome State Fault Refusal :=
  hlFloat core rd word (fun c =>
    let (a, b) := fPair c rs1 rs2
    let k := f64 (fGet c rs3.toNat)
    let (x, fl) := fMulAdd fp64 (frm c) a b (if negC then fNegVal k else k)
    let y := if negR && x != fmtNaN fp64 then x ^^^ 2 ^ 63 else x
    (y, fl ||| sNaNs [a, b, k])) s

/-- FMA: rs1 * rs2 + rs3. -/
def execFma (core : BitVec 4) (rd rs1 rs2 rs3 : BitVec 5) (s : State) : Host.Outcome State Fault Refusal :=
  hlFma core rd rs1 rs2 rs3 (encodeHl (.fma core rd rs1 rs2 rs3)) false false s
/-- FMS: rs1 * rs2 - rs3. -/
def execFms (core : BitVec 4) (rd rs1 rs2 rs3 : BitVec 5) (s : State) : Host.Outcome State Fault Refusal :=
  hlFma core rd rs1 rs2 rs3 (encodeHl (.fms core rd rs1 rs2 rs3)) true false s
/-- FNMA: -(rs1 * rs2 + rs3). -/
def execFnma (core : BitVec 4) (rd rs1 rs2 rs3 : BitVec 5) (s : State) : Host.Outcome State Fault Refusal :=
  hlFma core rd rs1 rs2 rs3 (encodeHl (.fnma core rd rs1 rs2 rs3)) false true s
/-- FNMS: -(rs1 * rs2 - rs3). -/
def execFnms (core : BitVec 4) (rd rs1 rs2 rs3 : BitVec 5) (s : State) : Host.Outcome State Fault Refusal :=
  hlFma core rd rs1 rs2 rs3 (encodeHl (.fnms core rd rs1 rs2 rs3)) true true s

end Sys2Proof.Machine
end

