-- ==== Sys2Proof/Machine/Sync.lean ====
section
/-! DEFINITION. Sync counters (spec 16 R433 to R444) and the headland instructions for core state, ordering and
synchronisation (05 R140 to R143, 06 R167 to R170, 16 R430). -/

namespace Sys2Proof.Machine

/- Counters -/

/-- Value of counter `n`. -/
def scVal (s : State) (n : Nat) : Nat := (regGet s (Reg.scValue n)).toNat
/-- Counter `n` is poisoned. -/
def scPoisoned (s : State) (n : Nat) : Bool := regBit s (Reg.scPoison (n / 32)) (n % 32)
/-- A counter operation was performed. -/
def scCount (s : State) : State := regWrapAdd s Reg.scOps 1
/-- Increment (R433): saturates and marks SC_SAT; a poisoned counter is left alone (R444). -/
def scIncrement (s : State) (n amount : Nat) : State :=
  if scPoisoned s n then s
  else
    let v := scVal s n + amount
    let s1 := scCount (regSet s (Reg.scValue n) (BitVec.ofNat 64 (min v 0xFFFFFFFF)))
    if v > 0xFFFFFFFF then regOr s1 (Reg.scSat (n / 32)) (2 ^ (n % 32)) else s1
/-- Set a counter and end its poisoning (R438, R444). -/
def scSet (s : State) (n : Nat) (v : Nat) : State :=
  regClr (regSet s (Reg.scValue n) (BitVec.ofNat 64 v)) (Reg.scPoison (n / 32)) (2 ^ (n % 32))

/-- TEN_QUOTA of a tenant. -/
def quotaOf (s : State) (t : Nat) : Nat := (regGet s (Reg.tenQuota t)).toNat
/-- Counter `n` lies in the tenant's range; tenant 0 may use every counter (07 R211). -/
def scInRange (s : State) (t n : Nat) : Bool :=
  t == 0 || (let q := quotaOf s t
             let base := q / 2 ^ 8 % 2 ^ 8
             let count := q / 2 ^ 16 % 2 ^ 9
             decide (base ≤ n) && decide (n < base + count))
/-- Available to the core's ring (R435). -/
def scAvailable (s : State) (c : HlCore) (n : Nat) : Bool := platformCode c || scInRange s (ctxTenant c) n

/-- The counter named by rs1, when rs1[63:8] is zero and it is available (R434). -/
def scNamed (s : State) (c : HlCore) (x : W64) : Option Nat :=
  if x.toNat < 256 && scAvailable s c x.toNat then some x.toNat else none

/-- Result word: NOT_AVAILABLE. -/
def scNotAvailable : W64 := 0x8000000000000000
/-- Result word: POISONED. -/
def scIsPoisoned : W64 := 0x4000000000000000

/-- SCINC (R434). -/
def execScinc (core : BitVec 4) (rd rs1 rs2 : BitVec 5) (s : State) : Host.Outcome State Fault Refusal :=
  hlRun s core.toNat (encodeHl (.scinc core rd rs1 rs2)) (fun s c =>
    match scNamed s c (gInt c rs1.toNat) with
    | none => retireCore s core.toNat (gSetInt c rd.toNat scNotAvailable) []
    | some n =>
      if scPoisoned s n then retireCore s core.toNat (gSetInt c rd.toNat scIsPoisoned) []
      else
        let s1 := scIncrement s n (fld (gInt c rs2.toNat) 0 32).toNat
        retireCore s1 core.toNat (gSetInt c rd.toNat (BitVec.ofNat 64 (scVal s1 n))) [])

/-- SCWAIT (R434, R436): completes at once when satisfied, else the core waits at this instruction. -/
def execScwait (core : BitVec 4) (rd rs1 rs2 : BitVec 5) (s : State) : Host.Outcome State Fault Refusal :=
  hlRun s core.toNat (encodeHl (.scwait core rd rs1 rs2)) (fun s c =>
    match scNamed s c (gInt c rs1.toNat) with
    | none => retireCore s core.toNat (gSetInt c rd.toNat scNotAvailable) [14]
    | some n =>
      let target := fld (gInt c rs2.toNat) 0 32
      if scPoisoned s n then retireCore s core.toNat (gSetInt c rd.toNat scIsPoisoned) [14]
      else if target.toNat ≤ scVal s n then
        retireCore (scCount s) core.toNat (gSetInt c rd.toNat (BitVec.ofNat 64 (scVal s n))) [14]
      else .wait (setCore s core.toNat { c with wait := .counter n target rd.toNat }))

/-- A wait on a counter that has reached its target, or is poisoned, completes and retires (R436, R444). -/
def settleWait (s : State) (n : Nat) : State :=
  let c := coreOf s n
  match c.wait with
  | .counter k target rd =>
    let poisoned := scPoisoned s k
    if c.running && !fenced s && (poisoned || decide (target.toNat ≤ scVal s k)) then
      let v := if poisoned then scIsPoisoned else BitVec.ofNat 64 (scVal s k)
      let (miss, s1) := promoteFetch (if poisoned then s else scCount s) n
      atEdge (perfEvents (setCore s1 n (advance (gSetInt (clearBegun (coreOf s1 n)) rd v))) n c
        ((if miss then [7] else []) ++ [1, 14])) n
    else s
  | _ => s

/-- SCWAIT_SATISFIED (R436, R444). -/
def execScwaitSatisfied (core : BitVec 4) (s : State) : Host.Outcome State Fault Refusal :=
  .next (settleWait s core.toNat)

/-- SCRESET (R434, R444): rs2 must be G0 (another is illegal; log entry 16). -/
def execScreset (core : BitVec 4) (rd rs1 rs2 : BitVec 5) (s : State) : Host.Outcome State Fault Refusal :=
  hlRun s core.toNat (encodeHl (.screset core rd rs1 rs2)) (fun s c =>
    if rs2 != 0 then .trap s 1 0 0 capNull
    else
      match scNamed s c (gInt c rs1.toNat) with
      | none => retireCore s core.toNat (gSetInt c rd.toNat scNotAvailable) []
      | some n => retireCore (scCount (scSet s n 0)) core.toNat (gSetInt c rd.toNat 0) [])

/-- SC_VALUE_WRITE (R438): a set-up write of a counter by the PF driver, the TMC acting as it, or ring 0 or 1. -/
def scValueWrite (s : State) (n : Nat) (v : Nat) : State := scSet s n (v % 2 ^ 32)

/- Ordering: one core runs its instructions in order, so each of these only completes (R430). -/

/-- FENCE, full. -/
def execFenceFull (core : BitVec 4) (s : State) : Host.Outcome State Fault Refusal :=
  hlRun s core.toNat (encodeHl (.fenceFull core)) (fun s c => retireCore s core.toNat c [])
/-- FENCE, load. -/
def execFenceLoad (core : BitVec 4) (s : State) : Host.Outcome State Fault Refusal :=
  hlRun s core.toNat (encodeHl (.fenceLoad core)) (fun s c => retireCore s core.toNat c [])
/-- FENCE, store. -/
def execFenceStore (core : BitVec 4) (s : State) : Host.Outcome State Fault Refusal :=
  hlRun s core.toNat (encodeHl (.fenceStore core)) (fun s c => retireCore s core.toNat c [])
/-- ISYNC: fetch restarts. -/
def execIsync (core : BitVec 4) (s : State) : Host.Outcome State Fault Refusal :=
  hlRun s core.toNat (encodeHl (.isync core)) (fun s c => retireCore s core.toNat c [])
/-- RDTB (05 R131). -/
def execRdtb (core : BitVec 4) (rd : BitVec 5) (s : State) : Host.Outcome State Fault Refusal :=
  hlRun s core.toNat (encodeHl (.rdtb core rd)) (fun s c => retireCore s core.toNat (gSetInt c rd.toNat s.tbc) [])

/- Core state registers (05 R140 to R142, 06 R169) -/

/-- Highest ring that may read and write a core state register, and whether it holds a capability; `none`: reserved. -/
def csrInfo (n : Nat) : Option (Nat × Nat × Bool) :=
  if n = 0x000 then some (3, 3, false)
  else if n = 0x001 then some (2, 1, false)
  else if 0x020 ≤ n ∧ n ≤ 0x02F then some (1, 1, false)
  else if n = 0x100 then some (1, 0, true)
  else if 0x110 ≤ n ∧ n ≤ 0x117 then some (1, 0, true)
  else if 0x120 ≤ n ∧ n ≤ 0x12F then some (1, 1, true)
  else if 0x200 ≤ n ∧ n ≤ 0x207 then some (1, 1, false)
  else if 0x210 ≤ n ∧ n ≤ 0x217 then some (3, 1, false)
  else if n = 0x220 then some (1, 1, false)
  else none

/-- A trap-state register of a bank by its low three bits. -/
def bankState (b : TrapBank) : Nat → W64
  | 0 => b.tcause | 1 => b.tval | 2 => b.tinsn | 3 => b.tst | 4 => b.ttbc | 5 => b.tdetail | 6 => b.tscrd0 | _ => b.tscrd1
/-- A trap capability of a bank by its low three bits. -/
def bankCap (b : TrapBank) : Nat → Cap
  | 0 => b.tepc | 1 => b.tauth | 2 => b.tstk | 3 => b.tscr0 | 4 => b.tscr1 | 5 => b.tscr2 | 6 => b.tscr3 | _ => b.last
/-- Write a trap-state register; reserved bits stay zero. -/
def setBankState (b : TrapBank) (i : Nat) (v : W64) : TrapBank :=
  match i with
  | 0 => { b with tcause := v &&& 0x7FF#64 } | 1 => { b with tval := v } | 2 => { b with tinsn := v &&& 0xFFFFFFFF#64 }
  | 3 => { b with tst := v &&& 0xFFFFFFFF#64 } | 4 => { b with ttbc := v } | 5 => { b with tdetail := v }
  | 6 => { b with tscrd0 := v } | _ => { b with tscrd1 := v }
/-- Write a trap capability. -/
def setBankCap (b : TrapBank) (i : Nat) (v : Cap) : TrapBank :=
  match i with
  | 0 => { b with tepc := v } | 1 => { b with tauth := v } | 2 => { b with tstk := v } | 3 => { b with tscr0 := v }
  | 4 => { b with tscr1 := v } | 5 => { b with tscr2 := v } | 6 => { b with tscr3 := v } | _ => { b with last := v }

/-- The value of a core state register; an integer register reads as an untagged value. -/
def csrGet (c : HlCore) (n : Nat) : Cap :=
  if n = 0x000 then capOfInt (c.st.setWidth 64)
  else if n = 0x001 then capOfInt (c.ctx.setWidth 64)
  else if 0x020 ≤ n ∧ n ≤ 0x027 then capOfInt (bankState c.bankO (n - 0x020))
  else if 0x028 ≤ n ∧ n ≤ 0x02F then capOfInt (bankState c.bankM (n - 0x028))
  else if n = 0x100 then c.vtb
  else if 0x110 ≤ n ∧ n ≤ 0x117 then entOf c (n - 0x110)
  else if 0x120 ≤ n ∧ n ≤ 0x127 then bankCap c.bankO (n - 0x120)
  else if 0x128 ≤ n ∧ n ≤ 0x12F then bankCap c.bankM (n - 0x128)
  else if 0x200 ≤ n ∧ n ≤ 0x207 then capOfInt ((sget zDflt32 c.perfSel (n - 0x200)).setWidth 64)
  else if 0x210 ≤ n ∧ n ≤ 0x217 then
    let sel := sget zDflt32 c.perfSel (n - 0x210)
    if (excRing c).toNat ≤ 1 || (bitAt c.ctx 16 && !bitAt sel 24 && (fld sel 16 8).toNat == ctxTenant c) then
      capOfInt (sget zDflt64 c.perf (n - 0x210))
    else capNull
  else capOfInt (c.perfOvf.setWidth 64)

/-- ST after a CSRW (R141): each field only from a ring that may write it. -/
def csrSt (c : HlCore) (v : W32) : W32 :=
  let st := setFld c.st 2 (fld v 2 7)
  let st1 := if (excRing c).toNat ≤ 2 then setFld st 0 (fld v 0 1) else st
  if (excRing c).toNat = 0 then setFld st1 1 (fld v 1 1) else st1

/-- CTX after a CSRW: a tenant above 128 leaves its field unchanged (00 R10). -/
def csrCtx (c : HlCore) (v : W32) : W32 :=
  let x := if (fld v 0 8).toNat ≤ 128 then setFld c.ctx 0 (fld v 0 8) else c.ctx
  let y := if (fld v 8 8).toNat ≤ 128 then setFld x 8 (fld v 8 8) else x
  setFld y 16 (fld v 16 1)

/-- PERF_SELn after a CSRW: reserved events leave EVENT unchanged. -/
def csrSel (old v : W32) : W32 :=
  let x := if (fld v 0 5).toNat ≤ 14 then setFld old 0 (fld v 0 5) else old
  setFld (setFld x 8 (fld v 8 5)) 16 (fld v 16 9)

/-- A tenant switch (R135): the departing tenant's lines leave both caches, though lines of tenant 0 remain, and the
replacement state of every set is reset. -/
def tenantSwitch (c : HlCore) (old new : Nat) : HlCore :=
  if old = new then c
  else
    let stays (e : Nat × CacheLine) : Bool := old == 0 || e.2.tenant.toNat != old
    { c with dcache := c.dcache.filter stays, icache := c.icache.filter stays, drecent := [], irecent := [] }

/-- The core after a CSRW of a value. -/
def csrSet (c : HlCore) (n : Nat) (v : Cap) : HlCore :=
  let x := capCursor v
  let w := fld x 0 32
  if n = 0x000 then { c with st := csrSt c w }
  else if n = 0x001 then
    let ctx := csrCtx c w
    tenantSwitch { c with ctx := ctx } (ctxTenant c) (fld ctx 0 8).toNat
  else if 0x020 ≤ n ∧ n ≤ 0x027 then { c with bankO := setBankState c.bankO (n - 0x020) x }
  else if 0x028 ≤ n ∧ n ≤ 0x02F then { c with bankM := setBankState c.bankM (n - 0x028) x }
  else if n = 0x100 then { c with vtb := v, deferred := [] }
  else if 0x110 ≤ n ∧ n ≤ 0x117 then { c with ent := sset gDflt c.ent (n - 0x110) v }
  else if 0x120 ≤ n ∧ n ≤ 0x127 then { c with bankO := setBankCap c.bankO (n - 0x120) v }
  else if 0x128 ≤ n ∧ n ≤ 0x12F then { c with bankM := setBankCap c.bankM (n - 0x128) v }
  else if 0x200 ≤ n ∧ n ≤ 0x207 then
    { c with perfSel := sset zDflt32 c.perfSel (n - 0x200) (csrSel (sget zDflt32 c.perfSel (n - 0x200)) w) }
  else if 0x210 ≤ n ∧ n ≤ 0x217 then { c with perf := sset zDflt64 c.perf (n - 0x210) x }
  else { c with perfOvf := c.perfOvf &&& ~~~w }

/-- The checks of R140: the cause and TDETAIL of the first that fails. -/
def csrCheck (c : HlCore) (n : Nat) (write : Bool) : Option (Nat × Nat) :=
  match csrInfo n with
  | none => some (1, 0)
  | some (r, w, _) =>
    let d := if write then 6 else 4
    if (if write then w else r) < (excRing c).toNat then some (5, d)
    else if (excRing c).toNat ≤ 1 && !capHas c.exc rSYS then some (6, d)
    else none

/-- CSRR (R140). TAUTH of its faults is null, of the absent SYS too: no capability operand failed (DESIGN CHOICE, log entry 12). -/
def execCsrr (core : BitVec 4) (rd : BitVec 5) (csr : BitVec 12) (capForm : Bool) (s : State) :
    Host.Outcome State Fault Refusal :=
  hlRun s core.toNat (encodeHl (.csrr core rd csr capForm)) (fun s c =>
    match csrCheck c csr.toNat false with
    | some (num, d) => .trap s num (if num = 1 then 0 else csr.setWidth 64) d capNull
    | none =>
      let v := csrGet c csr.toNat
      let isCap := ((csrInfo csr.toNat).map (fun p => p.2.2)).getD false
      retireCore s core.toNat (gSet c rd.toNat (if capForm && isCap then v else capOfInt (capCursor v))) [])

/-- CSRW (R140, R141, R135). TAUTH of its faults is null (DESIGN CHOICE, log entry 12). -/
def execCsrw (core : BitVec 4) (rs1 : BitVec 5) (csr : BitVec 12) (capForm : Bool) (s : State) :
    Host.Outcome State Fault Refusal :=
  hlRun s core.toNat (encodeHl (.csrw core rs1 csr capForm)) (fun s c =>
    match csrCheck c csr.toNat true with
    | some (num, d) => .trap s num (if num = 1 then 0 else csr.setWidth 64) d capNull
    | none =>
      let v := gGet c rs1.toNat
      retireCore s core.toNat (csrSet c csr.toNat (if capForm then v else capOfInt (capCursor v))) [])

/- Interrupts, waits, other cores -/


/-- WFI (06 R168): completes at once when an enabled interrupt is pending, even a masked one; else the core waits, and
the next instruction is the one after. One that is the oldest as an interrupt comes due is interrupted with TEPC at the instruction
after it. -/
def execWfi (core : BitVec 4) (s : State) : Host.Outcome State Fault Refusal :=
  hlRunWith s core.toNat (encodeHl (.wfi core)) (fun _ _ => true) (fun s c =>
    if pendingCauses s core.toNat = [] then retireCore s core.toNat { c with wait := .wfi } []
    else retireCore s core.toNat c [])

/-- WFI_WAKE (06 R168): an enabled pending interrupt resumes a core in WFI; one that is open goes before the next instruction. -/
def execWfiWake (core : BitVec 4) (s : State) : Host.Outcome State Fault Refusal :=
  let c := coreOf s core.toNat
  if c.running && c.wait == .wfi && pendingCauses s core.toNat != [] && !fenced s then
    .next (atEdge (setCore s core.toNat { c with wait := .none }) core.toNat)
  else .next s

/-- HALT (05 R143), at ring 0; elsewhere a ring violation, with TVAL 0 and a null TAUTH (DESIGN CHOICE, log entry 16). -/
def execHalt (core : BitVec 4) (s : State) : Host.Outcome State Fault Refusal :=
  hlRun s core.toNat (encodeHl (.halt core)) (fun s c =>
    if (excRing c).toNat != 0 then .trap s 5 0 0 capNull
    else retireCore s core.toNat { c with running := false } [])

/-- CSTART (05 R143): starts a halted core with EXC := cs and G1 := ct, or returns 1. The number in register rs3 names
the core; a number above 15 names none. Off ring 0 a ring violation, with TVAL 0 and a null TAUTH (DESIGN CHOICE, log entry 16). G2 of a core so started is null, core 0's too (DESIGN CHOICE, log entry 16). -/
def execCstart (core : BitVec 4) (rd rs1 rs2 rs3 : BitVec 5) (s : State) : Host.Outcome State Fault Refusal :=
  hlRun s core.toNat (encodeHl (.cstart core rd rs1 rs2 rs3)) (fun s c =>
    if (excRing c).toNat != 0 then .trap s 5 0 0 capNull
    else
      let t := (gInt c rs3.toNat).toNat
      if 15 < t || (coreOf s t).running then retireCore s core.toNat (gSetInt c rd.toNat 1) []
      else
        let r : HlCore := { coreReset with dcache := (coreOf s t).dcache, icache := (coreOf s t).icache }
        let s1 := setCore s t { gSet r 1 (gGet c rs2.toNat) with exc := gGet c rs1.toNat, running := true }
        retireCore s1 core.toNat (gSetInt c rd.toNat 0) [])

/-- The interrupts of a core in order; the first that can be entered is (06 R161, R168). -/
def tryInterrupts (s : State) (n : Nat) : List Nat → State
  | [] => s
  | k :: ks =>
    let c := coreOf s n
    if c.deferred.contains k then tryInterrupts s n ks
    else
      match takeTrap s n (interruptAs c k) with
      | (.entered, s1) => atEdge (regClr s1 (Reg.intPend n) (2 ^ (k - 16))) n
      | (.waits, s1) => s1
      | (.stays, s1) => tryInterrupts s1 n ks

/-- The core stands at an instruction boundary: no access of its oldest instruction is under way at another device, and
none has begun that retires before an interrupt (06 R168). -/
def atBoundary (c : HlCore) : Bool := c.remote == none && !c.begun

/-- INTERRUPT_ENTRY (06 R167, R168): an unmasked pending interrupt is taken at an instruction boundary. An SCWAIT satisfied
by then retires first (16 R436). -/
def execInterruptEntry (core : BitVec 4) (s : State) : Host.Outcome State Fault Refusal :=
  let c := coreOf s core.toNat
  if s.coresReleased && c.running && atBoundary c && !fenced s && interruptsOpen c && pendingCauses s core.toNat != [] then
    let s1 := settleWait s core.toNat
    .next (tryInterrupts s1 core.toNat (pendingCauses s1 core.toNat))
  else .next s

/-- MACHINE_CHECK (06 R158): an uncorrectable error in the core's own registers. -/
def execMachineCheck (core : BitVec 4) (s : State) : Host.Outcome State Fault Refusal :=
  let c := coreOf s core.toNat
  if s.coresReleased && c.running && !fenced s then
    let s1 := atEdge (takeTrap s core.toNat ⟨36, 0, 0, capNull, 0, capCursor c.exc⟩).2 core.toNat
    if (coreOf s1 core.toNat).running then .next (coreRecord s1 core.toNat 2 36) else .next s1
  else .next s

/-- TRAP_TIMER_EXPIRY (06 R170): TRAP_TIMERn has been reached. -/
def execTrapTimerExpiry (core : BitVec 4) (s : State) : Host.Outcome State Fault Refusal :=
  let t := regGet s (Reg.trapTimer core.toNat)
  if t ≠ 0 && decide (t.toNat ≤ s.tbc.toNat) then
    .next (setPend (regSet s (Reg.trapTimer core.toNat) 0) core.toNat 0)
  else .next s

/-- WATCHDOG_EXPIRY (06 R170, R168): at the deadline TRAP_WDOGn becomes 0 and cause 33 is raised on the core unless it is halted; it is
taken at the next instruction boundary. -/
def execWatchdogExpiry (core : BitVec 4) (s : State) : Host.Outcome State Fault Refusal :=
  let n := core.toNat
  let t := regGet s (Reg.trapWdog n)
  let c := coreOf s n
  let due := t ≠ 0 && decide (t.toNat ≤ s.tbc.toNat)
  if !due && !c.wdogDue then .next s
  else
    let s1 := if due then regSet s (Reg.trapWdog n) 0 else s
    let raised := c.running && s.coresReleased && !fenced s
    if !raised || !atBoundary c then .next (setCore s1 n { c with wdogDue := raised })
    else
      let s2 := settleWait (setCore s1 n { c with wdogDue := false }) n
      .next (atEdge (takeTrap s2 n ⟨33, 0, 0, capNull, 0, capCursor (coreOf s2 n).exc⟩).2 n)

/-- INT_SEND (06 R170): GO sets INT_PEND[CORE].INTERCORE. -/
def intSendWrite (s : State) (v : Nat) : State := if v.testBit 31 then setPend s (v % 16) 1 else s

/-- INT_SEND: a write of the register. -/
def execIntSend (agent : Agent) (value : W32) (s : State) : Host.Outcome State Fault Refusal :=
  .next (if platformAgent s agent then intSendWrite s value.toNat else s)

/-- SC_VALUE_WRITE (16 R438). -/
def execScValueWrite (agent : Agent) (counter : BitVec 8) (value : W32) (s : State) : Host.Outcome State Fault Refusal :=
  .next (if platformAgent s agent then scValueWrite s counter.toNat value.toNat else s)

end Sys2Proof.Machine
end

