-- ==== Sys2Proof/Machine/Token.lean ====
section
/-! DEFINITION. Host-sealed tokens (spec 03 R73 to R79): AES-CMAC, making and verifying a token, and epoch advances. -/

namespace Sys2Proof.Machine

/- AES-128 and CMAC (R74; FIPS 197 and NIST SP 800-38B) -/

/-- Multiply by x in GF(2^8). -/
def gfDouble (b : Byte) : Byte := (b <<< 1) ^^^ (if bitAt b 7 then 0x1B#8 else 0)
/-- Product in GF(2^8). -/
def gfMul (a b : Byte) : Byte :=
  ((List.range 8).foldl (fun (p : Byte × Byte) i => (if bitAt b i then p.1 ^^^ p.2 else p.1, gfDouble p.2)) (0, a)).1
/-- Inverse in GF(2^8), 0 for 0: the 254th power. -/
def gfInv (a : Byte) : Byte :=
  let sq (x : Byte) : Byte := gfMul x x
  let a2 := sq a
  let a3 := gfMul a2 a
  let a6 := sq a3
  let a7 := gfMul a6 a
  let a14 := sq a7
  let a15 := gfMul a14 a
  let a30 := sq a15
  let a31 := gfMul a30 a
  let a62 := sq a31
  let a63 := gfMul a62 a
  let a126 := sq a63
  let a127 := gfMul a126 a
  sq a127
/-- The AES S-box. -/
def aesSub (a : Byte) : Byte :=
  let i := gfInv a
  i ^^^ i.rotateLeft 1 ^^^ i.rotateLeft 2 ^^^ i.rotateLeft 3 ^^^ i.rotateLeft 4 ^^^ 0x63#8
/-- Bytewise exclusive or. -/
def xorBytes (a b : List Byte) : List Byte := List.zipWith (fun x y => x ^^^ y) a b
/-- One round key from the one before. -/
def aesNextKey (k : List Byte) (rc : Byte) : List Byte :=
  let w (i : Nat) : List Byte := (k.drop (4 * i)).take 4
  let t := ((w 3).rotateLeft 1).map aesSub
  let w0 := xorBytes (xorBytes (w 0) t) [rc, 0, 0, 0]
  let w1 := xorBytes (w 1) w0
  let w2 := xorBytes (w 2) w1
  let w3 := xorBytes (w 3) w2
  w0 ++ w1 ++ w2 ++ w3
/-- SubBytes and ShiftRows on a block in column order. -/
def aesSubShift (b : List Byte) : List Byte :=
  (List.range 16).map (fun i => aesSub (b.getD ((i + 4 * (i % 4)) % 16) 0))
/-- MixColumns on one column. -/
def aesMixColumn (c : List Byte) : List Byte :=
  let a (i : Nat) : Byte := c.getD (i % 4) 0
  (List.range 4).map (fun i => gfDouble (a i) ^^^ gfDouble (a (i + 1)) ^^^ a (i + 1) ^^^ a (i + 2) ^^^ a (i + 3))
/-- MixColumns. -/
def aesMix (b : List Byte) : List Byte := (List.range 4).flatMap (fun j => aesMixColumn ((b.drop (4 * j)).take 4))
/-- The nine full rounds and the last. -/
def aesRounds : Nat → List Byte → List Byte → Byte → List Byte
  | 0, _, b, _ => b
  | n + 1, k, b, rc =>
    let k' := aesNextKey k rc
    let t := aesSubShift b
    aesRounds n k' (xorBytes (if n = 0 then t else aesMix t) k') (gfDouble rc)
/-- AES-128 of one block. -/
def aes128 (key block : List Byte) : List Byte := aesRounds 10 key (xorBytes block key) 1

/-- Doubling in GF(2^128) of SP 800-38B, most significant byte first. -/
def cmacDouble (b : List Byte) : List Byte :=
  let n := b.foldl (fun a x => a * 256 + x.toNat) 0
  let d := (n * 2) % 2 ^ 128
  let r := if n ≥ 2 ^ 127 then d ^^^ 0x87 else d
  (toBytes 16 r).reverse
/-- The CBC chain over whole blocks. -/
def cbcMac (key : List Byte) : Nat → List Byte → List Byte → List Byte
  | 0, acc, _ => acc
  | n + 1, acc, m => cbcMac key n (aes128 key (xorBytes acc (m.take 16))) (m.drop 16)
/-- AES-CMAC of a message that does not end on a block boundary, as the 24 bytes of R74 do not. -/
def cmac24 (key msg : List Byte) : List Byte :=
  let k2 := cmacDouble (cmacDouble (aes128 key (List.replicate 16 0)))
  let last := msg.drop 16 ++ [0x80#8]
  let padded := last ++ List.replicate (16 - last.length) 0
  cbcMac key 2 (List.replicate 16 0) (msg.take 16 ++ xorBytes padded k2)

/- Tokens -/

/-- The key of tenant `t` now (R79). -/
def tenantKeyBytes (s : State) (t : Nat) : List Byte :=
  toBytes 16 (Config.tenantKey s.keyEra t (sget (fun _ => 0) s.keyDraw t)).toNat
/-- SEAL_EPOCH.EPOCH of a tenant. -/
def tenantEpoch (s : State) (t : Nat) : Nat := (fld (regGetFn s t Reg.sealEpoch) 0 24).toNat
/-- The first 24 bytes of a token (R73). -/
def tokenHead (body : Nat) (tenant epoch device seq : Nat) : List Byte :=
  toBytes 16 body ++ toBytes 8 (tenant + epoch * 2 ^ 8 + device * 2 ^ 32 + seq * 2 ^ 42)
/-- CODE (R74). -/
def tokenCode (s : State) (t : Nat) (head : List Byte) : List Byte := (cmac24 (tenantKeyBytes s t) head).take 8

/-- A new token of tenant `t` for a capability, and the state with its SEQUENCE advanced (R75). -/
def tokenMake (s : State) (t : Nat) (c : Cap) (obj : Bool) : List Byte × State :=
  let body := (capWithOtype c (if obj then 244 else 0) true).bits.toNat
  let seq := (fld (regGetFn s t Reg.sealSeq) 0 22).toNat
  let head := tokenHead body t (tenantEpoch s t) (deviceNo s) seq
  (head ++ tokenCode s t head, regSetFn s t Reg.sealSeq (BitVec.ofNat 64 ((seq + 1) % 2 ^ 22)))

/-- BODY of a token as a capability. -/
def tokenBody (tok : List Byte) : Cap := ⟨true, BitVec.ofNat 128 (numAt tok 0 16)⟩

/-- Checks 1 to 5 of R76: the reason of the first that fails, 0 for none. -/
def tokenReason (s : State) (tok : List Byte) (tenantOk unsealh : Bool) : Nat :=
  let t := numAt tok 16 1
  let w := numAt tok 20 4
  let o := (capOtype (tokenBody tok)).toNat
  if !tenantOk then 1
  else if numAt tok 17 3 != tenantEpoch s t then 2
  else if w % 2 ^ 10 != deviceNo s then 3
  else if bytesAt tok 24 8 != tokenCode s t (bytesAt tok 0 24) then 4
  else if !capOk (tokenBody tok) || !capHas (tokenBody tok) rGLOB || (o != 0 && o != 244) || (unsealh && o == 244) then 5
  else 0

/-- A token in a descriptor of function `fn` (R76, R77): the reason, or the operand. -/
def tokenOperand (s : State) (fn : Nat) (tok : List Byte) : Nat ⊕ Cap :=
  let b := tokenBody tok
  let r := tokenReason s tok (numAt tok 16 1 == fn) false
  if r != 0 then .inl r
  else if !capHas b rDMA || decide ((capRing b).toNat < (if fn = 0 then 1 else 3)) then .inl 6
  else .inr (capWithOtype b 0 true)

/-- Count a rejection and record it (R76). -/
def tokenRejected (s : State) (fn reason : Nat) (tok : List Byte) : State :=
  let w := numAt tok 20 4
  regSetFn (regSatAddFn s fn Reg.sealRejects 32 1) fn Reg.sealLastReject
    (BitVec.ofNat 64 (reason + numAt tok 17 3 * 2 ^ 8 + (w / 2 ^ 10) * 2 ^ 32 + (w % 2 ^ 10) * 2 ^ 54))

/- Epoch advances (R90) -/

/-- A host driver reaches only its own window, the TMC the PF's; headland code with SYS reaches every window (07 R177,
R179). -/
def reachesWindow (s : State) (a : Agent) (fn : Nat) : Bool :=
  !inReset s && hostReaches s a &&
  match a with
  | .pf => fn == 0
  | .tmc => fn == 0
  | .vf n => n.toNat == fn && fn != 0
  | .ring _ => true

/-- Start an advance of a tenant; one already in progress takes the request in. -/
def advanceStart (s : State) (t : Nat) : State :=
  if t ≤ 128 then { s with advancing := sset markDflt s.advancing t true } else s

/-- The advance completes: the epoch goes from 0xFF_FFFF to 1, and the key is drawn anew (R79, R90). -/
def advanceFinish (s : State) (t : Nat) : State :=
  if sget markDflt s.advancing t then
    let e := tenantEpoch s t
    let s1 : State := { s with advancing := sset markDflt s.advancing t false
                               keyDraw := sset (fun _ => 0) s.keyDraw t (sget (fun _ => 0) s.keyDraw t + 1) }
    regSetFldFn s1 t Reg.sealEpoch 0 24 (if e = 0xFFFFFF then 1 else e + 1)
  else s

/-- ADVANCE: a write of SEAL_EPOCH.ADVANCE = 1 (R89, R90). -/
def execAdvance (agent : Agent) (fn : BitVec 8) (s : State) : Host.Outcome State Fault Refusal :=
  .next (if reachesWindow s agent fn.toNat then advanceStart s fn.toNat else s)

/-- SEAL_FORCE: a write with GO set; a value above 128 is ignored, and a virtual function has no such register (R89). -/
def execSealForce (agent : Agent) (tenant : BitVec 8) (s : State) : Host.Outcome State Fault Refusal :=
  .next (if reachesWindow s agent 0 then advanceStart s tenant.toNat else s)

/-- EPOCH_ADVANCE_DONE (R90). -/
def execEpochAdvanceDone (tenant : BitVec 8) (s : State) : Host.Outcome State Fault Refusal :=
  .next (advanceFinish s tenant.toNat)

/- ACU commands (04 R109 to R114) -/

/-- Who writes the ACU block (R113). -/
def acuWriter (s : State) (agent : Agent) : Bool := platformAgent s agent && reachesWindow s agent 0

/-- A write or command discarded under R112. -/
def acuDiscard (s : State) : State := regOr s Reg.acuErr 1

/-- SWITCH (R109, R112). -/
def execSwitch (agent : Agent) (s : State) : Host.Outcome State Fault Refusal :=
  .next (if !acuWriter s agent then s
    else if acuHeldByChangeSet s then acuDiscard s
    else acuRequestSwitch s)

/-- ACU COPY (R114): discarded while a switch is pending or draining, or a change set holds the shadow (R112). -/
def execAcuCopy (agent : Agent) (s : State) : Host.Outcome State Fault Refusal :=
  .next (if !acuWriter s agent then s
    else if acuShadowBusy s || acuHeldByChangeSet s then acuDiscard s
    else acuCopyBank s)

/-- ACU CLEAR (R114): every shadow rule becomes zero; discarded as COPY is. -/
def execAcuClear (agent : Agent) (s : State) : Host.Outcome State Fault Refusal :=
  .next (if !acuWriter s agent then s
    else if acuShadowBusy s || acuHeldByChangeSet s then acuDiscard s
    else acuSetShadow s [])

/-- ACU_SWITCH (R109 to R111): a released switch whose time has come takes effect. -/
def execAcuSwitch (s : State) : Host.Outcome State Fault Refusal :=
  .next (if s.acu.pending && s.acu.released && decide (s.acu.deadline.toNat ≤ s.tbc.toNat) then acuSwitchNow s else s)

/-- ACU_DRAIN_END (R110). -/
def execAcuDrainEnd (s : State) : Host.Outcome State Fault Refusal := .next (acuDrainCheck s)

/-- ACU_WRITEBACK_DONE (R111): the write-back after a switch is complete. -/
def execAcuWritebackDone (s : State) : Host.Outcome State Fault Refusal :=
  .next { s with acu := { s.acu with writeback := [] } }

end Sys2Proof.Machine
end

