-- ==== Sys2Proof/Machine/Remote.lean ====
section
/-! DEFINITION. The register side of headland memory instructions, and what the response of a remote request does to
its issuer (spec 05 R126, R127; 15 R407, R408). -/

namespace Sys2Proof.Machine

/-- The address an instruction forms from its authority (R126). -/
def memAddr (c : HlCore) (m : MemOp) : W64 := gInt c m.rs1 + BitVec.ofInt 64 m.imm

/-- Bytes of the access. -/
def memSize : MemKind → Nat
  | .load n _ => n
  | .store n => n
  | .cld => 16
  | .cst => 16
  | .fld => 8
  | .fst => 8
  | .atomic _ wide => if wide then 8 else 4
  | .msadd fmt => match fmt with
    | 0 => 4 | 1 => 8 | 2 => 4 | 3 => 2 | _ => 32

/-- The access requires write (TDETAIL WRITE, R159). -/
def memWrites : MemKind → Bool
  | .load _ _ => false
  | .cld => false
  | .fld => false
  | _ => true

/-- Counter events of a promoted memory instruction (R139). -/
def memEvents : MemKind → List Nat
  | .load _ _ => [2]
  | .cld => [2]
  | .fld => [2]
  | .atomic _ _ => [12]
  | .msadd _ => [12]
  | _ => [3]

/-- A loaded integer as the register holds it: sign- or zero-extended to 64 bits, or 16 bytes whole (R119, R122). -/
def loadValue (size : Nat) (signed : Bool) (bs : List Byte) : Cap :=
  let n := ofBytes (bs.take size)
  if size = 16 then ⟨false, BitVec.ofNat 128 n⟩
  else if signed && n ≥ 2 ^ (8 * size - 1) then capOfInt (BitVec.ofInt 64 ((n : Int) - ((2 ^ (8 * size) : Nat) : Int)))
  else capOfInt (BitVec.ofNat 64 n)

/-- The old value as rd holds it (R127): of 32 bits the upper half is free (log entry 30). -/
def atomicOld (wide : Bool) (old : Nat) : W64 :=
  if wide then BitVec.ofNat 64 old else Config.atomicUpper (BitVec.ofNat 32 old) ++ BitVec.ofNat 32 old

/-- A value with its tag, as Vesol ever holds one: no tag where 03 R60 forbids it. -/
def capValid (c : Cap) : Cap := ⟨c.tag && capOk c, c.bits⟩

/-- The core after the data of an access has come back: bytes, and the tag that a CLD delivers. -/
def memDeliver (c : HlCore) (m : MemOp) (bs : List Byte) (tag : Bool) : HlCore :=
  match m.kind with
  | .load size signed => gSet c m.rd (loadValue size signed bs)
  | .cld => gSet c m.rd (capValid ⟨tag && capHas (gGet c m.rs1) rLDC, BitVec.ofNat 128 (ofBytes (bs.take 16))⟩)
  | .fld => fSet c m.rd (BitVec.ofNat 64 (ofBytes (bs.take 8)))
  | .atomic _ wide => gSetInt c m.rd (atomicOld wide (ofBytes bs))
  | _ => c

/-- The result of an atomic function on the old value (R122, R127): what is stored, if anything. -/
def atomicNew (func : Nat) (wide : Bool) (old operand compare : Nat) : Option Nat :=
  let w := if wide then 64 else 32
  let a := old % 2 ^ w
  let b := operand % 2 ^ w
  let sg (x : Nat) : Int := if x ≥ 2 ^ (w - 1) then (x : Int) - ((2 ^ w : Nat) : Int) else x
  match func with
  | 0 => some b
  | 1 => some ((a + b) % 2 ^ w)
  | 2 => some (a &&& b)
  | 3 => some (a ||| b)
  | 4 => some (a ^^^ b)
  | 5 => some (if sg b < sg a then b else a)
  | 6 => some (if sg a < sg b then b else a)
  | 7 => some (min a b)
  | 8 => some (max a b)
  | _ => if a = compare % 2 ^ w then some b else none

/-- The error record that names the loss of a headland core's remote access (15 R407): the fabric's, of class 3, with the lost
device as DETAIL. The spec gives the record no row: its CODE is free (DESIGN CHOICE, log entry 12). -/
def lossRecord (s : State) (n : Nat) (m : MemOp) : State :=
  let addr := (memAddr (coreOf s n) m).toNat
  recordEvent s { cls := 3, source := 0x0A, unit := 0, code := Config.lossCode.toNat, tenant := coreTenant (coreOf s n), action := 3,
                  addr := localPart addr, payload := List.replicate 16 0 ++ toBytes 8 (addr / 2 ^ 54) }

/-- A headland core's access ended on a response status other than 0 (R407): denied, poison, lost, rights. The message of a
denied response carries no rule number: TDETAIL then holds RULE_CHECK with RULE 0x1FF (DESIGN CHOICE, log entry 12). -/
def coreResponseFault (s0 : State) (n : Nat) (m : MemOp) (status : Nat) : State :=
  let s := if status = 3 then lossRecord s0 n m else s0
  let c := coreOf s n
  let addr := memAddr c m
  let pc := capCursor c.exc
  let w := if memWrites m.kind then 2 else 0
  let s1 := setCore s n { clearBegun c with fetched := c.fetched }
  let cause : Cause :=
    if status = 1 then ⟨9, addr, w + 8 + 0x1FF * 16, gGet c m.rs1, m.word, pc⟩
    else if status = 4 then ⟨6, addr, w, gGet c m.rs1, m.word, pc⟩
    else ⟨32, addr, 0, gGet c m.rs1, m.word, pc⟩
  takeFault s1 s1 n cause

/-- An operation receives a block, or a status, for a remote read it asked for. -/
def opReceives (s : State) (id block status : Nat) (bs : List Byte) : State :=
  { s with ops := s.ops.map (fun o =>
      if o.id = id then { o with fetched := o.fetched ++ [(block, status, bs)], asked := o.asked.filter (fun b => b != block) }
      else o) }

/-- A directory entry's copy receives a block of its home row (11 R310). -/
def copyReceives (s : State) (entry block status : Nat) (bs : List Byte) : State :=
  { s with dir := s.dir.map (fun e => if e.1 = entry then
      (e.1, { e.2 with got := e.2.got ++ [(block, status, bs)], asked := e.2.asked.filter (fun b => b != block) }) else e) }

/-- The entry of a vector table on another device has come (06 R161, R162): the cause is entered. An interrupt that was taken
leaves INT_PENDn; one for a ring above EXC.RING stays pending. -/
def vectorReceives (s : State) (n : Nat) (k : Cause) (r : Cap ⊕ Nat) : State :=
  let s0 := if interruptCause k.num then s else countFetch s n
  match enterVector (setCore s0 n (clearBegun (coreOf s0 n))) n k r with
  | (.stays, s1) => setCore s1 n { coreOf s1 n with deferred := k.num :: (coreOf s1 n).deferred }
  | (_, s1) => atEdge (if interruptCause k.num then regClr s1 (Reg.intPend n) (2 ^ (k.num - 16)) else s1) n

/-- A request is complete: its issuer gets the status, the bytes and the tag (R407). A headland access retires only
now. A vector table load that ends denied, lost or without rights is a load that failed its checks, REASON 0 (06 R159 names no
loss; DESIGN CHOICE, log entry 15). -/
def completeRequest (s : State) (rid : Nat) (r : Req) (status : Nat) (bs : List Byte) (tag : Bool) : State :=
  let s1 := { s with reqs := serase s.reqs rid }
  match r.origin with
  | .core n m =>
    let c := coreOf s1 n
    if c.remote != some (BitVec.ofNat 16 rid) then s1
    else if status = 0 then
      let (miss, s2) := promoteFetch s1 n
      let c1 := advance (memDeliver (clearBegun (coreOf s2 n)) m bs tag)
      atEdge (perfEvents (setCore s2 n c1) n c ((if miss then [7] else []) ++ [1] ++ memEvents m.kind)) n
    else coreResponseFault s1 n m status
  | .vector n k =>
    if (coreOf s1 n).remote != some (BitVec.ofNat 16 rid) then s1
    else
      vectorReceives s1 n k
        (if status = 0 then vectorHandler (capValid ⟨tag, BitVec.ofNat 128 (ofBytes (bs.take 16))⟩)
         else .inr (if status = 2 then 3 else 0))
  | .op id block => opReceives s1 id block status bs
  | .copy entry block => copyReceives s1 entry block status bs

/-- Complete a request as lost (R408). -/
def loseRequest (s : State) (rid : Nat) : State :=
  match s.reqs.find? (fun e => e.1 == rid) with
  | none => s
  | some e => completeRequest (regWrapAdd s Reg.fabLost 1) rid e.2 3 [] false

/-- Lose every outstanding request that a condition picks, in the order of issue (R408, 16 R440). -/
def loseRequests (s : State) (p : Req → Bool) : State :=
  ((s.reqs.filter (fun e => p e.2)).map (fun e => e.1)).foldl loseRequest s

end Sys2Proof.Machine
end

