-- ==== Sys2Proof/Machine/Motion.lean ====
section
/-! DEFINITION. The encoder's motion search (spec 09 R262): candidates, costs, tie-breaks, and the quarter-sample
interpolation of ITU-T H.265 (8.5.3.3.3) that its fractional positions use. -/

namespace Sys2Proof.Machine

/-- A picture as a function of its coordinates; positions outside it read its nearest sample. -/
abbrev Plane := Int → Int → Nat

/-- The plane of `w` × `h` samples in raster order. -/
def planeOf (w h : Nat) (sample : Nat → Nat) : Plane := fun x y =>
  sample ((max 0 (min y (h - 1 : Int))).toNat * w + (max 0 (min x (w - 1 : Int))).toNat)

/-- The luma filter taps at quarter-sample fraction `f`. -/
def lumaTaps (f : Nat) : List Int :=
  match f with
  | 0 => [0, 0, 0, 64, 0, 0, 0, 0]
  | 1 => [-1, 4, -10, 58, 17, -5, 1, 0]
  | 2 => [-1, 4, -11, 40, 40, -11, 4, -1]
  | _ => [0, 1, -5, 17, 58, -10, 4, -1]

/-- A tap sum over the eight samples around a position. -/
def tapSum (f : Nat) (sample : Int → Int) : Int :=
  (((lumaTaps f).zip (List.range 8)).map (fun t => t.1 * sample ((t.2 : Int) - 3))).sum

/-- The sample predicted at (x, y), in quarter samples, of a reference of bit depth `bd`. -/
def predicted (bd : Nat) (p : Plane) (x y : Int) : Int :=
  let xi := x / 4
  let yi := y / 4
  let fx := (x % 4).toNat
  let fy := (y % 4).toNat
  let s1 := min 4 (bd - 8)
  let s3 := max 2 (14 - bd)
  let row (dy : Int) : Int := tapSum fx (fun dx => p (xi + dx) (yi + dy)) / 2 ^ s1
  let v : Int :=
    if fx = 0 && fy = 0 then (p xi yi : Int) * 2 ^ s3
    else if fy = 0 then row 0
    else if fx = 0 then tapSum fy (fun dy => p xi (yi + dy)) / 2 ^ s1
    else tapSum fy row / 2 ^ 6
  max 0 (min ((v + 2 ^ (s3 - 1)) / 2 ^ s3) (2 ^ bd - 1))

/-- The sum of absolute differences of a unit of the source against a reference displaced by `mv` quarter samples. -/
def unitSad (bd : Nat) (src ref : Plane) (u : Pu) (mv : Int × Int) : Nat :=
  ((List.range u.h).map (fun (j : Nat) => ((List.range u.w).map (fun (i : Nat) =>
    let x : Int := u.x + i
    let y : Int := u.y + j
    ((src x y : Int) - predicted bd ref (4 * x + mv.1) (4 * y + mv.2)).natAbs)).sum)).sum

/-- λ of the cost: 4 in lossless coding. -/
def motionLambda (lossless : Bool) (bd : Nat) (qp : Int) : Nat :=
  if lossless then 4 else 2 ^ ((qp + 6 * ((bd : Int) - 8)) / 6 - 2).toNat

/-- Bits of one component of a vector difference: its binarization in ITU-T H.265 (9.3.3), a bit for each bin (PRESUMED, log entry
32). -/
def mvdBits (d : Int) : Nat :=
  match d.natAbs with
  | 0 => 1
  | 1 => 3
  | a => 3 + 2 * a.log2
/-- Bits of the vector difference that codes `mv`: against the better of the two AMVP candidates, which lead `near`; an absent one is
zero. -/
def mvBits (near : List (Int × Int)) (mv : Int × Int) : Nat :=
  let bits (p : Int × Int) : Nat := mvdBits (mv.1 - p.1) + mvdBits (mv.2 - p.2)
  min (bits (near.getD 0 (0, 0))) (bits (near.getD 1 (0, 0)))

/-- `a` is the better of two vectors with their costs: the lower cost, then the smaller |mvx| + |mvy|, mvy, mvx. -/
def betterMv (a b : Nat × (Int × Int)) : Bool :=
  let len (v : Int × Int) : Nat := v.1.natAbs + v.2.natAbs
  if a.1 ≠ b.1 then decide (a.1 < b.1)
  else if len a.2 ≠ len b.2 then decide (len a.2 < len b.2)
  else if a.2.2 ≠ b.2.2 then decide (a.2.2 < b.2.2)
  else decide (a.2.1 < b.2.1)

/-- The best of `first` and the candidates under a cost. -/
def bestMv (cost : Int × Int → Nat) (first : Int × Int) (l : List (Int × Int)) : Int × Int :=
  (l.foldl (fun best v => if betterMv (cost v, v) best then (cost v, v) else best) (cost first, first)).2

/-- Every vector within ±r steps of `step` quarter samples of `v`. -/
def aroundMv (v : Int × Int) (r step : Nat) : List (Int × Int) :=
  (List.range (2 * r + 1)).flatMap (fun (j : Nat) => (List.range (2 * r + 1)).map (fun (i : Nat) =>
    (v.1 + ((i : Int) - r) * step, v.2 + ((j : Int) - r) * step)))

/-- The half-sample and quarter-sample steps. -/
def fractionalSteps (cost : Int × Int → Nat) (v : Int × Int) : Int × Int :=
  let h := bestMv cost v (aroundMv v 1 2)
  bestMv cost h (aroundMv h 1 1)

/-- A vector at its nearest integer position, halves upward (DESIGN CHOICE, log entry 32). -/
def wholeMv (v : Int × Int) : Int × Int := ((v.1 + 2) / 4 * 4, (v.2 + 2) / 4 * 4)

/-- SEARCH 0: the candidates at integer positions, every integer position within ±range of the best, then the fractions. -/
def searchRefine (cost : Int × Int → Nat) (range : Nat) (cands : List (Int × Int)) : Int × Int :=
  let best := bestMv cost (0, 0) (cands.map wholeMv)
  fractionalSteps cost (bestMv cost best (aroundMv best range 4))

/-- The unit at a picture downsampled by `f`. -/
def puScaled (u : Pu) (f : Nat) : Pu := ⟨u.x / f, u.y / f, u.w / f, u.h / f⟩

/-- SEARCH 1: ±range / 4 at 4:1, ±2 around the scaled best at 2:1 and at full resolution, then the fractions. `costAt f` is the
cost at scale `f` of a vector in quarter samples of that scale. -/
def searchLevels (costAt : Nat → Int × Int → Nat) (range : Nat) : Int × Int :=
  let double (v : Int × Int) : Int × Int := (2 * v.1, 2 * v.2)
  let v4 := bestMv (costAt 4) (0, 0) (aroundMv (0, 0) (range / 4) 4)
  let v2 := bestMv (costAt 2) (double v4) (aroundMv (double v4) 2 4)
  fractionalSteps (costAt 1) (bestMv (costAt 1) (double v2) (aroundMv (double v2) 2 4))

end Sys2Proof.Machine
end

