-- ==== Sys2Proof/Machine/Stream.lean ====
section
/-! DEFINITION. The context set-up block (spec 09 R271) and the syntax that the encoder emits around its CTU rows (R248, R249,
R254): parameter sets, slice header with its entry points, picture hash. The order and coding of the syntax elements are those of
ITU-T H.265 (7.3), which R248 names (PRESUMED, log entry 32). -/

namespace Sys2Proof.Machine

/-- Round up to a multiple. -/
def upTo (n m : Nat) : Nat := cdiv n m * m

/- The set-up block (R271) -/

/-- A little-endian field of the set-up block. -/
def vset (b : List Byte) (o n : Nat) : Nat := numAt b o n
/-- A signed byte of it. -/
def vsetS8 (b : List Byte) (o : Nat) : Int := (BitVec.ofNat 8 (vset b o 1)).toInt
/-- DIR: a decode context. -/
def vDecode (b : List Byte) : Bool := natBit (vset b 0 1) 0
/-- CODING. -/
def vCoding (b : List Byte) : Nat := vset b 0 1 / 2 % 4
/-- LIVE. -/
def vLive (b : List Byte) : Bool := natBit (vset b 0 1) 3
/-- REF_MODE: the frame-buffer pool. -/
def vPool (b : List Byte) : Bool := natBit (vset b 0 1) 4
/-- BIT_DEPTH. -/
def vDepth (b : List Byte) : Nat := vset b 1 1
/-- WIDTH. -/
def vWidth (b : List Byte) : Nat := vset b 4 2
/-- HEIGHT. -/
def vHeight (b : List Byte) : Nat := vset b 6 2
/-- NBUF. -/
def vBufs (b : List Byte) : Nat := vset b 8 1
/-- CTU rows of a pane. -/
def vRows (b : List Byte) : Nat := cdiv (vHeight b) 64
/-- STRIDE of a pool buffer. -/
def vStride (b : List Byte) : Nat := upTo (2 * vWidth b) 64
/-- HDR of a compressed buffer (R256): half a byte for each block, rounded up to a multiple of 64. -/
def vHdr (b : List Byte) : Nat := 64 * cdiv (vWidth b / 8 * (vHeight b / 8)) 128
/-- BUFSIZE (R256). -/
def vBufSize (b : List Byte) : Nat :=
  upTo (if vPool b then vStride b * vHeight b else vHdr b + vWidth b / 8 * (vHeight b / 8) * 128) 4096
/-- The watchdog, µs. -/
def vWatchdog (b : List Byte) : Nat := if vset b 24 4 = 0 then 100000 else vset b 24 4

/-- Lossless coding. -/
def vLossless (b : List Byte) : Bool := vCoding b == 0
/-- LEVEL. -/
def vLevel (b : List Byte) : Nat := vset b 2 1
/-- NUM_REF. -/
def vNumRef (b : List Byte) : Nat := vset b 3 1
/-- HASH. -/
def vHash (b : List Byte) : Bool := natBit (vset b 0 1) 6

/- Bits, most significant first -/

/-- u(n). -/
def uBits (n v : Nat) : List Bool := (List.range n).map (fun i => v.testBit (n - 1 - i))
/-- ue(v). -/
def ueBits (v : Nat) : List Bool := List.replicate (v + 1).log2 false ++ uBits ((v + 1).log2 + 1) (v + 1)
/-- `n` bits of an open field. -/
def openBits (l : List Bool) (n : Nat) : List Bool := (List.range n).map (fun i => l.getD i false)
/-- Bits as bytes, the last filled with zeros. -/
def packBytes (l : List Bool) : List Byte :=
  (List.range (cdiv l.length 8)).map (fun i =>
    BitVec.ofNat 8 ((List.range 8).foldl (fun v j => 2 * v + (if l.getD (8 * i + j) false then 1 else 0)) 0))
/-- A raw byte sequence with its stop bit. -/
def withStop (l : List Bool) : List Byte := packBytes (l ++ [true])
/-- Emulation prevention after `z` zero bytes. -/
def escapeBytes : Nat → List Byte → List Byte
  | _, [] => []
  | z, b :: bs =>
    if 2 ≤ z && b.toNat ≤ 3 then 3 :: b :: escapeBytes (if b = 0 then 1 else 0) bs
    else b :: escapeBytes (if b = 0 then z + 1 else 0) bs
/-- A NAL unit of a type in Annex B form: layer 0, temporal sub-layer 0. -/
def nalUnit (place type : Nat) (rbsp : List Byte) : List Byte :=
  (if Config.startZero place then [0] else []) ++ [0, 0, 1] ++ escapeBytes 0 ([BitVec.ofNat 8 (2 * type), 1] ++ rbsp)
/-- An end-of-sequence NAL unit (R272). -/
def endOfSequence : List Byte := nalUnit 4 36 []

/- The syntax (R248, R249). `h k`: the encoder's own bits at place `k`. -/

/-- profile_tier_level: general_profile_idc 4; Monochrome 12 up to 12 bits, else Monochrome 16; Main tier; LEVEL. -/
def profileBits (h : Nat → List Bool) (b : List Byte) : List Bool :=
  uBits 2 0 ++ [false] ++ uBits 5 4 ++ (List.range 32).map (fun i => i == 4) ++ openBits (h 20) 4 ++
  [decide (vDepth b ≤ 12), false, false, true, true, true, false, false, true] ++ uBits 34 0 ++ [false] ++ uBits 8 (vLevel b)
/-- Video parameter set: no HRD parameters. -/
def vpsBits (h : Nat → List Bool) (b : List Byte) : List Bool :=
  openBits (h 0) 4 ++ [true, true] ++ uBits 6 0 ++ uBits 3 0 ++ [true] ++ uBits 16 0xFFFF ++ profileBits h b ++ h 1 ++
  uBits 6 0 ++ ueBits 0 ++ [false, false]
/-- Sequence parameter set: chroma_format_idc 0; CTU 64, CU from 8, TU 4 to 32; no scaling lists, PCM, long-term references;
SAO in near-lossless coding only; RDPCM and persistent Rice adaptation in lossless coding, never extended precision. -/
def spsBits (h : Nat → List Bool) (b : List Byte) : List Bool :=
  let ext (place : Nat) : List Bool := if vLossless b then [true] else openBits (h place) 1
  openBits (h 0) 4 ++ uBits 3 0 ++ [true] ++ profileBits h b ++ h 4 ++ ueBits 0 ++ ueBits (vWidth b) ++ ueBits (vHeight b) ++
  [false] ++ ueBits (vDepth b - 8) ++ ueBits (vDepth b - 8) ++ h 5 ++ ueBits 0 ++ ueBits 3 ++ ueBits 0 ++ ueBits 3 ++ h 6 ++
  [false] ++ openBits (h 7) 1 ++ [!vLossless b, false] ++ h 8 ++ [false] ++ openBits (h 9) 2 ++ [false] ++
  [true, true, false, false, false] ++ uBits 4 0 ++
  openBits (h 21) 2 ++ ext 22 ++ ext 23 ++ [false] ++ openBits (h 24) 1 ++ [false] ++ ext 25 ++ [false]
/-- Picture parameter set: no dependent slice segments, weighted prediction, tiles or scaling lists; wavefront; a QP for each CTU
in near-lossless coding; transquant bypass and no deblocking in lossless coding. -/
def ppsBits (h : Nat → List Bool) (b : List Byte) : List Bool :=
  h 10 ++ [false] ++ h 11 ++ (if vLossless b then [false] else [true] ++ ueBits 0) ++ ueBits 0 ++ ueBits 0 ++
  [false, false, false, vLossless b, false, true] ++ openBits (h 12) 1 ++ [true, false, vLossless b] ++
  (if vLossless b then [] else h 13) ++ [false] ++ openBits (h 15) 1 ++ h 14 ++ [false, false]
/-- Bits that the largest entry point offset takes. -/
def entryWidth (sizes : List Nat) : Nat := max 1 (((sizes.dropLast.map (fun n => n - 1)).foldl max 0).log2 + 1)
/-- Slice segment header: the picture's only slice, I for a key picture, else P; the entry point of each later row (R254). -/
def sliceBits (h : Nat → List Bool) (kind : Nat) (sizes : List Nat) : List Bool :=
  [true] ++ (if kind = 2 then [] else openBits (h 26) 1) ++ h 16 ++ ueBits (if kind = 2 then 1 else 2) ++
  (if kind = 0 then [] else h 17) ++ h 18 ++ ueBits (sizes.length - 1) ++
  (if sizes.length ≤ 1 then [] else ueBits (entryWidth sizes - 1) ++
    sizes.dropLast.flatMap (fun n => uBits (entryWidth sizes) (n - 1)))
/-- nal_unit_type of a picture: IDR (19 or 20), CRA 21, TRAIL_R 1. -/
def pictureNal (h : Nat → List Bool) (kind : Nat) : Nat :=
  if kind = 0 then (if (h 19).getD 0 false then 19 else 20) else if kind = 1 then 21 else 1

/-- What precedes the substreams: parameter sets where the encoder sends them, always before an IDR, and the slice header. -/
def streamHead (b : List Byte) (history : List VidStep) (now : VidStep) (kind : Nat) (sizes : List Nat) : List Byte :=
  let h := Config.headBits b history now
  (if kind = 0 || Config.headSets b history now then
    nalUnit 0 32 (withStop (vpsBits h b)) ++ nalUnit 1 33 (withStop (spsBits h b)) ++ nalUnit 2 34 (withStop (ppsBits h b)) else []) ++
  nalUnit 3 (pictureNal h kind) (withStop (sliceBits h kind sizes))

/-- One bit into the picture CRC. -/
def hashBit (c : Nat) (bit : Bool) : Nat :=
  (2 * c + (if bit then 1 else 0)) % 2 ^ 16 ^^^ (if c / 2 ^ 15 % 2 = 1 then 0x1021 else 0)
/-- CRC of a picture's samples, in ITU-T H.265's decoded picture hash. -/
def pictureCrc (bd : Nat) (ss : List Nat) : Nat :=
  let bytes := ss.flatMap (fun v => if bd = 8 then [v % 256] else [v % 256, v / 256])
  (bytes ++ [0, 0]).foldl (fun c v => (uBits 8 v).foldl hashBit c) 0xFFFF
/-- The decoded picture hash SEI in CRC form. -/
def hashSei (bd : Nat) (ss : List Nat) : List Byte :=
  nalUnit 5 40 (withStop (uBits 8 132 ++ uBits 8 3 ++ uBits 8 1 ++ uBits 16 (pictureCrc bd ss)))

end Sys2Proof.Machine
end

