-- ==== Sys2Proof/Machine/Engine.lean ====
section
/-! DEFINITION. What every engine operation shares (spec 07 R187 to R199, R567; 05 R136 to R138; 04 R106, R110): the
descriptor header, admission to a queue, operand access with its checks, and the end of an operation. -/

namespace Sys2Proof.Machine

/- The header (R189) -/

/-- Header bits [lo, lo + w) of a descriptor chain. -/
def hdr (d : List Byte) (lo w : Nat) : Nat := bitsOf d lo w
/-- PARAMS bits, numbered within the descriptor. -/
def param (o : Op) (lo w : Nat) : Nat := bitsOf o.desc lo w
/-- PARAMS bits of an s16 field. -/
def paramS16 (o : Op) (lo : Nat) : Int := (BitVec.ofNat 16 (param o lo 16)).toInt
/-- EXT_COUNT. -/
def hdrExt (d : List Byte) : Nat := hdr d 24 4
/-- The kind of slot 3d + j (R190): SLOTS of the header or extension d. -/
def slotKind (d : List Byte) (n : Nat) : Nat := numAt d (128 * (n / 3) + 2) 1 / 4 ^ (n % 3) % 4
/-- First byte of a slot within the chain. -/
def slotOff (n : Nat) : Nat := 128 * (n / 3) + 32 + 32 * (n % 3)
/-- Slot `n` of an operation. -/
def opSlot (o : Op) (n : Nat) : Slot := o.slots.getD n ⟨0, capNull, []⟩
/-- The slot holds a capability. -/
def slotCap (o : Op) (n : Nat) : Bool := (opSlot o n).kind == 1

/-- The opcode classes (R192) and the opcodes defined in them: is this opcode defined? -/
def opcodeDefined (n : Nat) : Bool :=
  n == 0 || n == 1 || n == 8 ||
  n == 0x10 || n == 0x11 ||
  (0x30 ≤ n && n ≤ 0x32) ||
  n == 0x40 || n == 0x41 ||
  (0x50 ≤ n && n ≤ 0x54) ||
  (0x60 ≤ n && n ≤ 0x64) ||
  (0x70 ≤ n && n ≤ 0x74)
/-- TARGET belongs to the opcode's class (R192). -/
def targetFits (opcode target : Nat) : Bool :=
  match opcode / 16 with
  | 0 => target == 0xFF
  | 1 => decide (target ≤ 0x1F)
  | 2 => decide (target ≤ 0x1F)
  | 3 => decide (0x20 ≤ target) && decide (target ≤ 0x3F)
  | 4 => decide (0x40 ≤ target) && decide (target ≤ 0x43)
  | 5 => target == 0x44
  | 6 => target == 0x45
  | 7 => target == 0x46
  | _ => false

/-- A field of the chain at byte `off` when `bad`. -/
def faultAt (bad : Bool) (off : Nat) : List Nat := if bad then [off] else []
/-- The lowest offset of a list of failing fields. -/
def lowest (l : List Nat) : Option Nat := l.foldl (fun a b => some (match a with | none => b | some x => min x b)) none

/-- Failing fields of one header: the head (d = 0) or an extension (R189). -/
def headerFields (c : List Byte) (d : Nat) : List Nat :=
  let b := 128 * d
  let h (lo w : Nat) : Nat := bitsOf c (8 * b + lo) w
  faultAt ((List.range 3).any (fun j => h (16 + 2 * j) 2 == 3) || h 22 2 != 0) (b + 2) ++
  (if d = 0 then
    faultAt (h 12 4 != 0) (b + 1) ++ faultAt (h 28 4 != 0) (b + 3) ++ faultAt (h 48 16 != 0) (b + 6)
  else
    faultAt (h 0 8 != 0xFF) b ++ faultAt (h 8 4 != 0 || h 12 4 != 0) (b + 1) ++
    faultAt (h 24 4 != 0 || h 28 4 != 0) (b + 3) ++ faultAt (h 32 8 != 0) (b + 4) ++ faultAt (h 40 8 != 0) (b + 5) ++
    faultAt (h 48 16 != 0) (b + 6) ++ faultAt (h 64 64 != 0) (b + 8) ++ faultAt (h 128 32 != 0) (b + 16) ++
    faultAt (h 160 96 != 0) (b + 20))

/-- Step 1 of R194 over a chain that has arrived: the failing field at the lowest byte offset. Where OPCODE is defined and TARGET is
of another class, TARGET is the failing field (DESIGN CHOICE, log entry 17). `held`: extension
descriptors at hand; `queue`: the internal queue, for a QPUT (TARGET must equal it). -/
def headerFault (c : List Byte) (held : Nat) (ringSize : Option Nat) (queue : Option Nat) : Option Nat :=
  let opcode := hdr c 0 8
  let target := hdr c 40 8
  let ext := hdrExt c
  let tooLong := match ringSize with
    | some k => decide (2 ^ k < ext + 1)
    | none => decide (held < ext)
  let wrongQueue := match queue with
    | some q => target != q || decide (opcode < 16)
    | none => false
  lowest (faultAt (!opcodeDefined opcode) 0 ++ faultAt (!targetFits opcode target || wrongQueue) 5 ++ faultAt tooLong 3 ++
    (List.range (min ext held + 1)).flatMap (headerFields c))

/-- The operand slots of a chain of an internal queue: tagged capabilities, or inline data (R190). -/
def slotsOf (c : List Byte) (tags : List Nat) : List Slot :=
  (List.range (3 * (hdrExt c + 1))).map (fun n =>
    let o := slotOff n
    ⟨BitVec.ofNat 2 (slotKind c n), ⟨tags.contains o, BitVec.ofNat 128 (numAt c o 16)⟩, bytesAt c o 32⟩)

/- The tables of operations -/

/-- Operation `id`. -/
def findOp (s : State) (id : Nat) : Option Op := s.ops.find? (fun o => o.id == id)
/-- Replace an operation. -/
def putOp (s : State) (o : Op) : State := { s with ops := s.ops.map (fun x => if x.id = o.id then o else x) }
/-- The operation came from a host ring. -/
def fromHost (o : Op) : Bool := match o.src with | .host _ _ _ => true | .core _ _ _ => false
/-- Two operations stand on one ring: the same SQ, or the same internal queue with one tenant (R199). -/
def sameRing (a b : Op) : Bool :=
  match a.src, b.src with
  | .host f q _, .host f' q' _ => f == f' && q == q'
  | .core _ _ _, .core _ _ _ => a.queue == b.queue && a.tenant == b.tenant
  | _, _ => false

/-- The operations whose completions go one after another in the order in which they ended (07 R199, R200): those of one
completion ring, or of one tenant on one internal queue. -/
def sameStream (a b : Op) : Bool :=
  match a.src, b.src with
  | .host f _ _, .host f' _ _ => f == f' && a.cq == b.cq
  | .core _ _ _, .core _ _ _ => a.queue == b.queue && a.tenant == b.tenant
  | _, _ => false

/-- The operation of a host ring or an internal queue stands on an affected cove or context. -/
def opOnElement (o : Op) (kind index : Nat) : Bool :=
  if kind = 0x10 then o.queue.toNat == index || o.queue.toNat == index + 0x20 else o.queue == 0x44 && hdr o.desc 160 5 == index
/-- A DTA's queue has accepted the operation (12 R327). -/
def dtaQueued (o : Op) : Bool := o.queued && decide (o.queue.toNat < 0x20)
/-- The gather engine of cove `c` fetches a fragment for a walk (10 R287): an entry that it was asked for is still to be taken
up. -/
def walkFetches (w : WalkRun) (c : Nat) : Bool := w.entries.any (fun e => e.2 == c)
/-- The power governor holds admissions: PWR_STATUS.HOLDING (17 R449). -/
def holding (s : State) : Bool := regBit s Reg.pwrStatus 5
/-- The operation is ready and waits for the governor alone: it has not begun (17 R462). -/
def heldReady (s : State) (o : Op) : Bool := holding s && s.heldOps.contains o.id
/-- Entry's element has drained: no operation begun on it is in flight (07 R204 step 5); a picture in a waiting list counts as
one in flight (09 R264), an entry that a DTA's queue has accepted (12 R348), and a fragment fetch on the cove that performs it
(10 R287, R298). One that the governor holds has not begun (17 R462). -/
def csDrained (s : State) (e : CsEntry) : Bool :=
  !(e.kind == 0x10 || e.kind == 0x11) ||
    (!(e.kind == 0x10 && s.walks.any (fun w => walkFetches w.2 e.index && s.ops.any (fun o => o.id == w.2.op && o.phase == .running))) &&
     !s.ops.any (fun o => (o.phase == .running || ((o.listed || dtaQueued o) && o.phase == .waiting && !heldReady s o)) &&
       opOnElement o e.kind.toNat e.index))
/-- Step 5 of a change set ends at the instant at which its last element has drained (07 R204); an entry of an internal queue that
begins on one of them after that must drain too. -/
def noteDrained (s : State) : State :=
  match s.changeSet with
  | none => s
  | some c =>
    let all := c.entries.all (csDrained s)
    if c.prepared && c.drained.isSome != all then
      { s with changeSet := some { c with drained := if all then some s.tbc else none } }
    else s

/-- A completion by its fields. -/
def compl (status reason : Nat) (result : W32) (detail : Nat) : Compl :=
  ⟨BitVec.ofNat 8 status, BitVec.ofNat 8 reason, result, BitVec.ofNat 64 detail⟩
/-- SUCCESS. -/
def complOk (detail : Nat) : Compl := compl 0 0 0 detail

/- Queues -/

/-- Owner of a cove (07 R211). -/
def coveOwnerOf (s : State) (n : Nat) : Byte := sget (fun _ => (0 : Byte)) s.coveOwner n
/-- Owner of a stream context. -/
def vctxOwnerOf (s : State) (n : Nat) : Byte := sget (fun _ => (0 : Byte)) s.vctxOwner n
/-- Depth of an internal queue (05 R136). -/
def queueDepth (q : Nat) : Nat := if q = 0x45 then 256 else 64
/-- Entries of a queue: accepted, and their completion not yet written or suppressed. -/
def queueEntries (s : State) (q : Nat) : List Op := s.ops.filter (fun o => o.queue.toNat == q && o.queued)
/-- The queue is shared, under the tenants' quotas. -/
def queueShared (q : Nat) : Bool := decide (0x40 ≤ q) && decide (q ≤ 0x46)
/-- Entries a tenant may hold in a shared queue (07 R211). -/
def queueShare (s : State) (q t : Nat) : Nat := (if q = 0x45 then 4 else 1) * (quotaOf s t % 128)
/-- TEN_STATE.STOP. -/
def tenantStopped (s : State) (t : Nat) : Bool := regBit s (Reg.tenState t) 0
/-- A change set drains (07 R204 step 4). -/
def csDraining (s : State) : Bool :=
  match s.changeSet with
  | some c => c.prepared && c.entries.any (fun e => e.kind == 0x10 || e.kind == 0x11)
  | none => false
/-- The owners, old and new, that a drain-and-apply entry affects. -/
def csAffects (s : State) (kind index tenant : Nat) : Bool :=
  match s.changeSet with
  | some c => c.prepared && c.entries.any (fun e => e.kind.toNat == kind && e.index == index &&
      ((if kind = 0x10 then coveOwnerOf s index else vctxOwnerOf s index).toNat == tenant || numAt e.value 0 1 == tenant))
  | none => false
/-- The cove that a DTA or GE queue serves. -/
def queueCove (q : Nat) : Option Nat := if q < 0x20 then some q else if q < 0x40 then some (q - 0x20) else none
/-- Work for this queue of this tenant is held for a change set (07 R204 step 4). -/
def csHolds (s : State) (q tenant : Nat) (desc : List Byte) : Bool :=
  match queueCove q with
  | some n => csAffects s 0x10 n tenant
  | none => q == 0x44 && csAffects s 0x11 (hdr desc 160 5) tenant
/-- The engine of a queue is offline or in reset (08 R238, 09, 10, 11, 12: OFFLINE is bit 0 of each control register;
a reset in progress is noted in `resetting`). -/
def engineOffline (s : State) (q : Nat) : Bool :=
  sget markDflt s.resetting q ||
  (if q < 0x20 then regBit s (Reg.dtaCtrl q) 0
   else if q < 0x40 then regBit s (Reg.geCtrl (q - 0x20)) 0
   else if q < 0x44 then regBit s (Reg.strGroupCtrl (q - 0x40)) 0
   else if q = 0x44 then regBit s Reg.vcuCtrl 0
   else if q = 0x45 then regBit s Reg.embCtrl 1
   else false)
/-- The tenant does not own what the descriptor names (R567). -/
def notOwned (s : State) (q tenant : Nat) (desc : List Byte) : Bool :=
  match queueCove q with
  | some n => (coveOwnerOf s n).toNat != tenant
  | none => q == 0x44 && (vctxOwnerOf s (hdr desc 160 5)).toNat != tenant

/-- QPUT's status (05 R137), in the order 3, 5, 4, 1, 2. A tenant whose STOP is set gets 3 (07 R212). -/
def queueStatus (s : State) (q tenant : Nat) (desc : List Byte) : Nat :=
  let coveBad := match queueCove q with
    | some n => (coveOwnerOf s n).toNat != tenant
    | none => false
  if 0x46 < q || coveBad || tenantStopped s tenant then 3
  else if engineOffline s q then 5
  else if csHolds s q tenant desc then 4
  else if queueDepth q ≤ (queueEntries s q).length then 1
  else if queueShared q && decide (queueShare s q tenant ≤ ((queueEntries s q).filter (fun o => o.tenant.toNat == tenant)).length) then 2
  else 0

/- Running an operation -/

/-- What an operation that cannot go on now waits for. -/
inductive Need where
  /-- the response for `size` bytes at a fabric address of another device, held by tenant -/
  | block (addr size : Nat)
  /-- the response to a write of bytes at a fabric address of another device -/
  | store (addr : Nat) (bs : List Byte)
  /-- the responses to several such writes, sent together -/
  | stores (l : List (Nat × List Byte))
  /-- the HBM segment of a local address, a cove being cleared, or a hot stack -/
  | memory (a : Nat)
  /-- anything else -/
  | time
  deriving DecidableEq, Repr

/-- How the body of an operation stops. -/
inductive EngStop where
  | fin (c : Compl)
  | wait (n : Need)
  /-- what was done stands, and the operation goes on at a later command -/
  | goOn
  /-- what was done stands, and the operation waits -/
  | held (n : Need)
  deriving DecidableEq, Repr

/-- An engine's work: it reads and writes the state, and may end or wait. -/
abbrev EngM := ExceptT EngStop (StateM State)

/-- End the operation with a status. -/
def engEnd {α : Type} (status reason detail : Nat) : EngM α := throw (.fin (compl status reason 0 detail))
/-- End unless the condition holds. -/
def engNeed (ok : Bool) (status reason detail : Nat) : EngM Unit := if ok then pure () else engEnd status reason detail
/-- Wait. -/
def engWait {α : Type} (n : Need) : EngM α := throw (.wait n)
/-- A step of an operation whose earlier steps stand: when it must wait, it alone is done anew. -/
def engStep {α : Type} (act : EngM α) : EngM α := do
  let s ← get
  try act
  catch e =>
    match e with
    | .wait n =>
      set s
      throw (.held n)
    | x => throw x

/-- The capability checks of R63 on [cursor + off, + size) of slot `n`; failure is CAPABILITY_FAULT at that offset. An
operation has no ring of its own (R58 speaks of code), so the ring check passes. -/
def engCapCheck (o : Op) (n : Nat) (mask : BitVec 12) (off size align : Nat) : EngM Unit :=
  let c := (opSlot o n).cap
  match capCheck c 0 mask true ((capCursor c).toNat + off) size align with
  | some cause => engEnd 4 cause off
  | none => pure ()

/-- The rights of an access to a fabric address, with GLOB where it is another device's (15 R405): a right is checked before the bounds
(R63). -/
def farMask (s : State) (mask : BitVec 12) (addr : Nat) : BitVec 12 := if localFabric s false addr then mask else mask ||| rGLOB

/-- The fabric address of byte `off` of slot `n`. -/
def slotAddr (o : Op) (n off : Nat) : Nat := (capCursor (opSlot o n).cap).toNat + off

/-- An access to an address that no device field reaches (03 R80, R83) is denied and recorded as R82 says (04 R106, R114). -/
def engDenied {α : Type} (o : Op) (who : Who) (n : Nat) (kinds : BitVec 5) (addr detail : Nat) : EngM α := do
  modify (fun s => acuDeny s who o.tenant.toNat (kEngine ||| kinds) 0x1FF (localPart addr))
  engEnd 3 n detail

/-- The local address of slot `n`'s cursor; another device's gives NOT_PERMITTED, reason 3, an unreachable one a deny. -/
def engLocal (o : Op) (who : Who) (n : Nat) (kinds : BitVec 5) : EngM Nat := do
  let s ← get
  let a := slotAddr o n 0
  if localFabric s false a then pure (localPart a)
  else if fabricDenied s false a then engDenied o who n kinds a 0
  else engEnd 0x0B 3 0

/-- The first bytes of the 64-byte blocks that [a, a + n) touches, cut to the range. -/
def blocksOf (a n : Nat) : List Nat :=
  if n = 0 then [] else (List.range ((a + n - 1) / 64 - a / 64 + 1)).map (fun i => max a ((a / 64 + i) * 64))

/-- Rule-check one block for slot `n`; a deny ends the operation at its offset (04 R106). -/
def engRule (o : Op) (who : Who) (n : Nat) (kinds : BitVec 5) (write : Bool) (a detail : Nat) : EngM Unit := do
  let s ← get
  let (v, s1) := acuCheckIn s o.bank who o.tenant.toNat kinds (capHas (opSlot o n).cap rSYS) write a
  set s1
  if v.ok then pure () else engEnd 3 n detail

/-- Wait until local memory at `a` can be accessed. -/
def engReady (a : Nat) : EngM Unit := do
  let s ← get
  if accessReady s a then pure () else engWait (.memory a)

/-- Read `n` local bytes for slot `slot`, block by block; `detail` gives DETAIL at a byte of the range. -/
def engRead (o : Op) (who : Who) (slot : Nat) (a n : Nat) (detail : Nat → Nat) : EngM (List Byte) := do
  for b in blocksOf a n do
    engRule o who slot (kEngine ||| kRead) false b (detail (b - a))
    engReady b
    let s ← get
    let m := min (a + n) (alignDown b 64 + 64) - b
    match firstPoison s b m with
    | some i => engEnd 6 0 (detail (b - a + i))
    | none => pure ()
  let s ← get
  pure (memBytes s a n)

/-- Write local bytes for slot `slot`, block by block; a write that meets poison it does not cover leaves the unit
poisoned and ends the operation (14 R371). -/
def engWrite (o : Op) (who : Who) (slot : Nat) (kinds : BitVec 5) (a : Nat) (bs : List Byte) (detail : Nat → Nat) :
    EngM Unit := do
  for b in blocksOf a bs.length do
    engRule o who slot (kEngine ||| kinds) true b (detail (b - a))
    engReady b
    let m := min (a + bs.length) (alignDown b 64 + 64) - b
    modify (fun s => storeLocal s b ((bs.drop (b - a)).take m))
    let s ← get
    match firstPoison s b m with
    | some i => engEnd 6 0 (detail (b - a + i))
    | none => pure ()

/-- Write rows for slot `slot`, each at its offset from local address `a`: every block of all of them is checked before any is
written, so that a failing unit leaves nothing (12 R347). -/
def engWriteRows (o : Op) (who : Who) (slot : Nat) (a : Nat) (rows : List (Nat × List Byte)) : EngM Unit := do
  for r in rows do
    for b in blocksOf (a + r.1) r.2.length do
      engRule o who slot (kEngine ||| kWrite) true b (b - a)
      engReady b
      let m := min (a + r.1 + r.2.length) (alignDown b 64 + 64) - b
      let s ← get
      match firstPoison (storeLocal s b ((r.2.drop (b - (a + r.1))).take m)) b m with
      | some i => engEnd 6 0 (b - a + i)
      | none => pure ()
  modify (fun s => rows.foldl (fun st r => storeLocal st (a + r.1) r.2) s)

/-- What an operation's record of a remote write is filed under. -/
def storeKey (addr : Nat) : Nat := 2 ^ 64 + addr
/-- End an operation on the status of a response from device `dev` (R407): a loss names the device, as R197 and the worked case of chapter 16
have it, though 10 R297 and 11 R323 speak of a place (log entry 18). -/
def engStatus (slot status dev detail : Nat) : EngM Unit :=
  if status = 0 then pure ()
  else if status = 1 then engEnd 3 slot detail
  else if status = 2 then engEnd 6 0 detail
  else if status = 3 then engEnd 7 0 dev
  else engEnd 4 6 detail

/-- Read `n` bytes at a fabric address, local or remote, for slot `slot`; the access needs GLOB when remote (15 R405), and
that check comes before a deny (04 R104). `size` bytes in one block (R405). -/
def engFetch (o : Op) (who : Who) (slot : Nat) (addr n : Nat) (detail : Nat → Nat) : EngM (List Byte) := do
  let s ← get
  if localFabric s false addr then engRead o who slot (localPart addr) n detail
  else if !capHas (opSlot o slot).cap rGLOB then engEnd 4 6 (detail 0)
  else if fabricDenied s false addr then engDenied o who slot kRead addr (detail 0)
  else
    match o.fetched.find? (fun f => f.1 == addr) with
    | none => engWait (.block addr n)
    | some (_, status, bs) =>
      engStatus slot status (addr / 2 ^ 54) (detail 0)
      pure bs

/-- Write bytes of one block at a fabric address, local or remote (R405). -/
def engStore (o : Op) (who : Who) (slot : Nat) (kinds : BitVec 5) (addr : Nat) (bs : List Byte) (detail : Nat → Nat) :
    EngM Unit := do
  let s ← get
  if localFabric s false addr then engWrite o who slot kinds (localPart addr) bs detail
  else if !capHas (opSlot o slot).cap rGLOB then engEnd 4 6 (detail 0)
  else if fabricDenied s false addr then engDenied o who slot kinds addr (detail 0)
  else
    match o.fetched.find? (fun f => f.1 == storeKey addr) with
    | none => engWait (.store addr bs)
    | some (_, status, _) => engStatus slot status (addr / 2 ^ 54) (detail 0)

/-- The operation as it stands now, with what has been fetched for it. -/
def engOp (o : Op) : EngM Op := do
  let s ← get
  pure ((findOp s o.id).getD o)
/-- Note how far the operation has come, for TIMEOUT. -/
def engProgress (o : Op) (n : Nat) : EngM Unit := modify (fun s =>
  match findOp s o.id with
  | some x => putOp s { x with progress := n }
  | none => s)

/-- The deadline of an operation that begins now (R189, R191): no deadline for a TIMEOUT of 0 on a ring whose SQ_TIMEOUT
is 0. A DECODE runs under its watchdog instead (R191). -/
def opDeadline (s : State) (o : Op) : Option W64 :=
  let t := hdr o.desc 128 32
  let us := if t ≠ 0 then t else
    match o.src with
    | .host fn q _ => (regGetFn s fn (Reg.sqTimeout q)).toNat
    | .core _ _ _ => 1000000
  if us = 0 || o.opcode = 0x52 then none else some (s.tbc + BitVec.ofNat 64 (us * 1000))

/-- An earlier operation that must have begun before this one: of its SQ (R187), or placed by the same core on the same
queue (05 R138). -/
def beginsAfter (a b : Op) : Bool :=
  match a.src, b.src with
  | .host f q _, .host f' q' _ => f == f' && q == q'
  | .core n _ _, .core n' _ _ => n == n' && a.queue == b.queue
  | _, _ => false

/-- An engine that runs one descriptor at a time, in acceptance order (12 R327, 10 R277). -/
def queueSerial (q : Nat) : Bool := decide (q < 0x40)

/-- The descriptors of a strand group's queue begin in order (08 R240). -/
def queueInOrder (q : Nat) : Bool := decide (0x40 ≤ q) && decide (q < 0x44)

/-- `x` stands before `o` in the queue of an engine: it was accepted earlier, or `o` has not been accepted yet (12 R327). -/
def queuedBefore (x o : Op) : Bool :=
  x.id != o.id && x.queue == o.queue && x.queued && (!o.queued || decide (x.accepted < o.accepted))

/-- Is a waiting operation ready to begin? A STOP begins at ingest (08 R242), and a KEY_REQUEST unless a
change set holds it (09 R264). Every earlier one of its ring that must, has begun; a BARRIER waits until the
earlier ones have completed (R189); work that a change set holds waits (R204). One that its queue does not take, since it would end at
once, does not wait in line with the queue's entries. -/
def readyToBegin (s : State) (o : Op) : Bool :=
  let earlier := s.ops.filter (fun x => decide (x.id < o.id))
  if o.opcode = 0x41 then !fenced s
  else if o.opcode = 0x54 then !fenced s && !(fromHost o && csHolds s o.queue.toNat o.tenant.toNat o.desc)
  else
  let st := queueStatus s o.queue.toNat o.tenant.toNat o.desc
  let inLine := o.queued || st == 0
  !fenced s &&
  !(inLine && queueInOrder o.queue.toNat && s.ops.any (fun x => queuedBefore x o && x.phase == .waiting)) &&
  !(earlier.any (fun x => beginsAfter x o && x.phase == .waiting && !x.listed)) &&
  !(inLine && queueSerial o.queue.toNat && s.ops.any (fun x => queuedBefore x o && x.phase != .done)) &&
  !(hdr o.desc 9 1 == 1 && earlier.any (fun x => sameRing x o && x.phase != .done)) &&
  !(fromHost o && !o.listed && !dtaQueued o && csHolds s o.queue.toNat o.tenant.toNat o.desc) &&
  (o.queued || o.queue == 0xFF || (st != 1 && st != 2))

/- The pipes of the video unit (09 R264, R265) -/

/-- Stream context `c`. -/
def vctxOf (s : State) (c : Nat) : Vctx := sget (fun _ => vctxReset) s.vctxs c
/-- Pipe `p`: 0 and 1 encode, 2 and 3 decode. -/
def pipeOf (s : State) (p : Nat) : VidPipe := sget (fun _ => pipeReset) s.pipes p
/-- CONTEXT. -/
def vidCtx (o : Op) : Nat := param o 160 5
/-- Earlier descriptors of a context, KEY_REQUESTs apart, not yet completed: they come first (R264, R272). -/
def vidBefore (s : State) (o : Op) : Bool :=
  s.ops.any (fun x => decide (x.id < o.id) && x.queue == 0x44 && x.opcode != 0x54 && vidCtx x == vidCtx o && x.phase != .done)
/-- A pipe has a picture, or has taken one. -/
def pipeBusy (s : State) (p : Nat) : Bool := (pipeOf s p).pic.isSome || (pipeOf s p).starting.isSome
/-- A context has a picture in progress. -/
def vctxBusy (s : State) (c : Nat) : Bool :=
  (List.range 4).any (fun p => (pipeOf s p).pic.any (fun x => x.ctx == c) || (pipeOf s p).starting.any (fun x => x.ctx == c))
/-- The oldest waiting picture of a live, or batch, context without a picture in progress, for a direction; earlier descriptors of
its context in the list, or running still, come first (R253, R264, R272). -/
def vidCandidate (s : State) (decode live : Bool) : Option Op :=
  s.ops.find? (fun o => o.listed && o.phase == .waiting && o.opcode == (if decode then 0x52 else 0x51) && !vctxBusy s (vidCtx o) &&
    vLive (vctxOf s (vidCtx o)).setup == live &&
    !s.ops.any (fun x => decide (x.id < o.id) && x.queue == 0x44 && x.opcode != 0x54 && vidCtx x == vidCtx o &&
      ((x.listed && x.phase == .waiting) || x.phase == .running)))
/-- The picture a free pipe takes. -/
def pipeTakes (s : State) (p : Nat) : Option Op :=
  let decode := decide (2 ≤ p)
  let live := vidCandidate s decode true
  let batch := vidCandidate s decode false
  let owed := decide (((pipeOf s p).recent.filter (fun b => b)).length < regFld s Reg.vcuSched 0 3)
  if owed && batch.isSome then batch else if live.isSome then live else batch

/-- A VCU descriptor of the context's list could begin now: a picture, when a free pipe takes it next; another, when the earlier ones of its
context have completed. -/
def vidReady (s : State) (o : Op) : Bool :=
  if o.opcode = 0x51 || o.opcode = 0x52 then
    (List.range 4).any (fun p => !pipeBusy s p && !(p % 2 == 1 && !pipeBusy s (p - 1)) && (pipeTakes s p).any (fun x => x.id == o.id))
  else !vidBefore s o

/- Admissions (17 R449) -/

/-- DTA, GE, strand, VCU and embedding operations wait while admissions are held (17 R449); a STOP and a KEY_REQUEST take effect at
ingest. -/
def governed (o : Op) : Bool := decide (o.queue.toNat ≤ 0x45) && o.opcode != 0x41 && o.opcode != 0x54
/-- An operation of an engine is ready to begin and has not begun. -/
def readyNow (s : State) (o : Op) : Bool :=
  governed o && o.phase == .waiting && readyToBegin s o && (o.queue != 0x44 || vidReady s o)
/-- A pipe has taken the picture, which begins with that. -/
def pipeTaken (s : State) (o : Op) : Bool := (List.range 4).any (fun p => (pipeOf s p).starting.any (fun y => y.op == o.id))
/-- May a waiting operation begin now? It is ready, admissions are not held, and those that were held and became ready before it
have begun (17 R449). -/
def mayBegin (s : State) (o : Op) : Bool :=
  readyToBegin s o &&
  (!governed o || pipeTaken s o || (!holding s && !s.ops.any (fun x =>
    x.id != o.id && s.heldOps.contains x.id && readyNow s x && (o.readyAt == 0 || decide (x.readyAt < o.readyAt)))))

/-- Operations that have become ready to begin are numbered in that order (17 R449). -/
def numberReady (s : State) : Nat → List Op → List Op
  | _, [] => []
  | n, o :: rest =>
    if o.readyAt == 0 && readyNow s o then { o with readyAt := n } :: numberReady s (n + 1) rest else o :: numberReady s n rest
/-- The operations that are ready take their place in the order, and are held while admissions are (17 R449). -/
def noteReady (s : State) : State :=
  let s1 := { s with ops := numberReady s (s.ops.foldl (fun n x => max n x.readyAt) 0 + 1) s.ops }
  if holding s then
    { s1 with heldOps := s1.heldOps ++ (s1.ops.filter (fun o => readyNow s1 o && !s1.heldOps.contains o.id)).map (fun o => o.id) }
  else s1

/-- A collective runs, and no operation of an engine runs or is ready to begin (17 R450, R462). -/
def powerWaiting (s : State) : Bool :=
  s.ops.any (fun o => o.queue == 0x46 && o.phase == .running) &&
  !s.ops.any (fun o => (governed o && o.phase == .running) || readyNow s o)
/-- Mean of the power measurements of the last 1 ms, mW. -/
def meanPower (l : List Nat) : Nat := if l = [] then 0 else l.sum / l.length
/-- Waiting begins, with P_busy latched, or ends (17 R450). -/
def waitStep (s : State) : State :=
  if powerWaiting s then
    match s.power.waitSince with
    | some _ => s
    | none => { s with power := { s.power with waitSince := some s.tbc, holdOver := false, busy := meanPower s.power.recent } }
  else { s with power := { s.power with waitSince := none, holdOver := false } }

/-- What follows when an operation comes, begins or ends: the drain of a change set, the order of those ready to begin, and the
device's waiting. -/
def noteOps (s : State) : State := waitStep (noteReady (noteDrained s))

/-- The flags of a head whose OPCODE is 0xFF are those of an extension, all reserved (R189; log entry 17). -/
def opFlag (o : Op) (bit : Nat) : Bool := o.opcode != 0xFF && hdr o.desc bit 1 == 1

/-- The counter increment that follows a completion, whatever its status (R199): all but that of the descriptor whose SC was out
of its tenant's range at step 3 of R194 (16 R435), which is the INVALID_FIELD whose DETAIL is SC's own offset. The range may have
moved since (16 R442). -/
def opIncrement (s : State) (o : Op) : State :=
  if opFlag o 10 && !(o.compl.status == 1 && o.compl.detail == 4) then scIncrement s (hdr o.desc 32 8) 1 else s

/-- The operation ends with SUCCESS and no completion is written for it (QUIET, R199). -/
def suppressed (o : Op) : Bool := opFlag o 11 && o.compl.status == 0

/-- The operation has ended with a completion still to be written, or suppressed, which makes its increment now (R199). -/
def endOp (s : State) (id : Nat) (c : Compl) : State :=
  match findOp s id with
  | none => s
  | some o => if o.phase = .done then s
    else
      let x := { o with phase := .done, compl := c, ended := s.tbc, endSeq := s.nextEnd, asked := []
                        bank := if o.phase = .waiting then s.acu.active else o.bank }
      let s1 := putOp { s with nextEnd := s.nextEnd + 1 } x
      noteOps (if suppressed x then opIncrement s1 x else s1)

/-- What an internal queue's descriptor meets in place of the checks at host ingest (R192, R194, R435): the header, the counter
range, the opcode's own fields. -/
def coreFault (s : State) (o : Op) (fields : State → Op → Option Nat) : Option Compl :=
  match headerFault o.desc (o.desc.length / 128 - 1) none (some o.queue.toNat) with
  | some d => some (compl 1 0 0 d)
  | none =>
    if hdr o.desc 10 1 == 1 && !scInRange s o.tenant.toNat (hdr o.desc 32 8) then some (compl 1 0 0 4)
    else (fields s o).map (fun d => compl 1 0 0 d)
/-- What stops an operation at its begin: for an internal queue the checks that a ring's descriptor has met at ingest, then ownership
(R567) and an engine offline. -/
def beginFault (s : State) (o : Op) (fields : State → Op → Option Nat) : Option Compl :=
  match (if fromHost o then none else coreFault s o fields) with
  | some c => some c
  | none =>
    if notOwned s o.queue.toNat o.tenant.toNat o.desc then some (compl 0x0B 2 0 0)
    else if o.queue != 0xFF && engineOffline s o.queue.toNat then some (compl 9 0 0 0)
    else none

/- Field checks that engines share -/

/-- Cursor of slot `n`. -/
def slotCur (o : Op) (n : Nat) : Nat := (capCursor (opSlot o n).cap).toNat
/-- The slot's bounds hold [cursor, cursor + ext). -/
def slotCovers (o : Op) (n ext : Nat) : Bool :=
  let b := capBounds (opSlot o n).cap
  decide (b.1 ≤ (slotCur o n : Int)) && decide (((slotCur o n + ext : Nat) : Int) ≤ b.2)
/-- Slots that do not cover their extent, at their own offsets. -/
def uncovered (o : Op) (l : List (Nat × Nat)) : List Nat :=
  l.flatMap (fun p => faultAt (!slotCovers o p.1 p.2) (slotOff p.1))
/-- Written slots whose range meets another slot's: `l` lists slot, extent, written. -/
def overlapping (o : Op) (l : List (Nat × Nat × Bool)) : List Nat :=
  l.flatMap (fun p =>
    faultAt (p.2.2 && l.any (fun q => q.1 != p.1 && decide (slotCur o p.1 < slotCur o q.1 + q.2.1) &&
      decide (slotCur o q.1 < slotCur o p.1 + p.2.1))) (slotOff p.1))
/-- Slots 0 … whose kinds differ from the wanted kinds, at their SLOTS bytes. -/
def wrongKinds (o : Op) (want : List Nat) : List Nat :=
  (List.range want.length).flatMap (fun n => faultAt (slotKind o.desc n != want.getD n 0) (128 * (n / 3) + 2))

/-- Reads that a gather engine keeps outstanding (10 R279). -/
def geReadLimit : Nat := 2048
/-- Send an operation's remote request, filed under a key, unless it has been sent; at the limit of a gather engine's
outstanding reads, issue stalls (10 R279). -/
def opRequests (s : State) (o : Op) (key addr : Nat) (type : BitVec 6) (size : Nat) (bs : List Byte) : State :=
  if o.asked.contains key || (o.opcode.toNat / 16 == 3 && decide (geReadLimit ≤ o.asked.length)) then s
  else
    match issueRequest s (.op o.id key) (addr / 2 ^ 54) o.tenant.toNat type (localPart addr) false 0 size bs with
    | .sent s1 => putOp s1 { o with asked := o.asked ++ [key] }
    | .lost s1 => putOp s1 { o with fetched := o.fetched ++ [(key, 3, [])] }
    | .stalls => s

/-- A write of an operation at an address of another device has been sent, or was lost at once. -/
def storeSent (o : Op) (addr : Nat) : Bool := o.asked.contains (storeKey addr) || o.fetched.any (fun f => f.1 == storeKey addr)
/-- Send several writes of operation `id` together: all of them, or none while they do not all find room. -/
def opStores (s : State) (id : Nat) (l : List (Nat × List Byte)) : State :=
  let s1 := l.foldl (fun st p =>
    match findOp st id with
    | some o => if storeSent o p.1 then st else opRequests st o (storeKey p.1) p.1 2 p.2.length p.2
    | none => st) s
  if (findOp s1 id).any (fun o => l.all (fun p => storeSent o p.1)) then s1 else s

/-- Ask for what an operation waits for: issue the read of a remote block, or move a segment to the front. -/
def opAsks (s : State) (o : Op) (n : Need) : State :=
  match n with
  | .memory a => askSegment s a
  | .time => s
  | .block addr size => opRequests s o addr addr 1 size []
  | .store addr bs => opRequests s o (storeKey addr) addr 2 bs.length bs
  | .stores l => opStores s o.id l

/-- The operation enters its queue now, unless it stands in it already. -/
def accept (s : State) (o : Op) : Op :=
  if o.queued then o else { o with queued := true, accepted := s.ops.foldl (fun n x => max n x.accepted) 0 + 1 }

/-- The place of an operation that begins now in the order of begin (16 R440). -/
def nextBegan (s : State) : Nat := s.ops.foldl (fun n x => max n x.beganAt) 0 + 1

/-- Run operation `id`, whose opcode must be `opcode`: begin it when it may begin, and carry it as far as it goes. When
it must wait, none of its writes stands, so that it is done anew when it goes on; blocks already answered are kept. -/
def runOp (s : State) (id opcode : Nat) (fields : State → Op → Option Nat) (body : Op → EngM Compl) : State :=
  match findOp s id with
  | none => s
  | some o =>
    if o.opcode.toNat != opcode || o.phase = .done || (o.phase = .waiting && !mayBegin s o) || fenced s then
      s
    else
      match (if o.phase = .waiting then beginFault s o fields else none) with
      | some c => endOp s id c
      | none =>
        let o1 := if o.phase = .waiting then
            { accept s o with
              phase := .running, bank := s.acu.active, beganAt := nextBegan s, deadline := if o.opcode = 8 then none else opDeadline s o } else o
        let late := match o1.deadline with
          | some d => passed s d
          | none => false
        if late then s
        else
          let s1 := noteOps (putOp { s with heldOps := s.heldOps.filter (fun i => i != id) } o1)
          match (body o1).run.run s1 with
          | (.ok c, s2) => endOp s2 id c
          | (.error (.fin c), s2) => endOp s2 id c
          | (.error .goOn, s2) => s2
          | (.error (.held n), s2) => opAsks s2 ((findOp s2 id).getD o1) n
          | (.error (.wait n), _) => opAsks s1 o1 n

end Sys2Proof.Machine
end

