-- ==== Sys2Proof/Machine/Host.lean ====
section
/-! DEFINITION. The host port (spec 07): polling, wake pages, completions, ring control, NOP and COPY. -/

namespace Sys2Proof.Machine

/-- Functions that exist: the PF, and VF n while VF Enable is set and n is at most NumVFs (R176). -/
def fnExists (s : State) (fn : Nat) : Bool := fn == 0 || (s.vfEnable && decide (fn ≤ s.numVfs.toNat) && decide (fn ≤ 128))

/-- SQ_CTRL.ENABLE. -/
def sqOn (s : State) (fn q : Nat) : Bool := bitAt (regGetFn s fn (Reg.sqCtrl q)) 16
/-- CQ_CTRL.ENABLE. -/
def cqOn (s : State) (fn c : Nat) : Bool := bitAt (regGetFn s fn (Reg.cqCtrl c)) 16
/-- A ring of the function is enabled (FN_STATUS.ACTIVE). -/
def fnActive (s : State) (fn : Nat) : Bool := (List.range 16).any (fun i => sqOn s fn i || cqOn s fn i)
/-- The completion ring an SQ is bound to. -/
def sqCq (s : State) (fn q : Nat) : Nat := (fld (regGetFn s fn (Reg.sqCtrl q)) 8 4).toNat
/-- k of an SQ. -/
def sqSize (s : State) (fn q : Nat) : Nat := (fld (regGetFn s fn (Reg.sqCtrl q)) 0 5).toNat
/-- k of a CQ. -/
def cqSize (s : State) (fn c : Nat) : Nat := (fld (regGetFn s fn (Reg.cqCtrl c)) 0 5).toNat
/-- SQ_HEAD. -/
def sqHead (s : State) (fn q : Nat) : Nat := (regGetFn s fn (Reg.sqHead q)).toNat
/-- CQ_TAIL. -/
def cqTail (s : State) (fn c : Nat) : Nat := (regGetFn s fn (Reg.cqTail c)).toNat
/-- Host-port state of a function. -/
def fnOf (s : State) (fn : Nat) : HostFn := sget (fun _ => hostFnReset) s.funcs fn
/-- Replace it. -/
def setFn (s : State) (fn : Nat) (f : HostFn) : State := { s with funcs := sset (fun _ => hostFnReset) s.funcs fn f }
/-- Distance of free-running 32-bit counts. -/
def countDiff (a b : Nat) : Nat := (a + 2 ^ 32 - b) % 2 ^ 32
/-- An operation of an SQ is in flight (IDLE = 0, R209). -/
def sqBusy (s : State) (fn q : Nat) : Bool :=
  s.ops.any (fun o => match o.src with | .host f q' _ => f == fn && q' == q | .core _ _ _ => false)
/-- The CQ is full (R200). -/
def cqFull (s : State) (fn c : Nat) : Bool :=
  countDiff (cqTail s fn c) (sget zDflt32 (fnOf s fn).heads c).toNat == 2 ^ cqSize s fn c

/-- The host port's own access to host bus space: tenant 0, engine kind (R181). The deny is recorded. -/
def hostPortAccess (s : State) (write : Bool) (addr n : Nat) : Bool × State :=
  (blocksOf addr n).foldl (fun (r : Bool × State) b =>
    if r.1 then
      let (v, s1) := acuCheck r.2 .hostPort 0 (kEngine ||| (if write then kWrite else kRead)) false write (hostBit + b)
      (v.ok, s1)
    else r) (true, s)

/-- An access of the host port waits for lines that a switch of the access control unit is writing back (04 R111). -/
def hostPortWaits (s : State) (addr n : Nat) : Bool := acuHoldsLine s (hostBit + addr) n

/-- The host's own stores, as they have become visible. -/
def hostStores (s : State) (stores : List (Nat × List Byte)) : State :=
  stores.foldl (fun st p => storeHost st p.1 p.2) s

/- Polling (R182, R183, R185, R186, R216) -/

/-- POLL.MIN. -/
def pollMin (s : State) (fn : Nat) : Nat := (fld (regGetFn s fn Reg.poll) 0 7).toNat
/-- POLL.MAX, or MIN where MIN exceeds it (R209). -/
def pollMax (s : State) (fn : Nat) : Nat := max (pollMin s fn) (fld (regGetFn s fn Reg.poll) 8 7).toNat
/-- The present poll interval, µs, within POLL: MIN before the first scan (R185). -/
def pollInterval (s : State) (fn : Nat) : Nat := min (pollMax s fn) (max (pollMin s fn) (fnOf s fn).interval)
/-- The interval since the last scan has passed on the TBC (R185), or a write of the wake page calls for one (R186); the first scan is due at
once (DESIGN CHOICE, log entry 8). -/
def scanDue (s : State) (fn : Nat) : Bool :=
  (fnOf s fn).woken || (fnOf s fn).lastScan.all (fun t => decide (1000 * pollInterval s fn ≤ elapsed s t))

/-- A doorbell record could not be read: for the submission record, DB_READ_ERROR of every enabled SQ, otherwise of
every enabled CQ, and HP_ERR.FETCH_ERROR. -/
def dbReadError (s : State) (fn : Nat) (sub : Bool) : State :=
  let s1 := (List.range 16).foldl (fun st i =>
    if sub then (if sqOn st fn i then raiseStatus st fn (Reg.sqStatus i) 8 else st)
    else (if cqOn st fn i then raiseStatus st fn (Reg.cqStatus i) 4 else st)) s
  raiseStatus s1 0 Reg.hpErr 1

/-- Take the tail of SQ `q` from its record (R183). -/
def takeTail (s : State) (fn q : Nat) : State :=
  if !sqOn s fn q then s
  else
    let t := numAt (hostBytes s ((regGetFn s fn Reg.dbSqAddr).toNat + 4 * q) 4) 0 4
    if 2 ^ sqSize s fn q < countDiff t (sqHead s fn q) then raiseStatus s fn (Reg.sqStatus q) 1
    else
      let f := fnOf s fn
      setFn s fn { f with tails := sset zDflt32 f.tails q (BitVec.ofNat 32 t) }

/-- Take the head of CQ `c` from its record (R183). -/
def takeHead (s : State) (fn c : Nat) : State :=
  if !cqOn s fn c then s
  else
    let h := numAt (hostBytes s ((regGetFn s fn Reg.dbCqAddr).toNat + 4 * c) 4) 0 4
    if 2 ^ cqSize s fn c < countDiff (cqTail s fn c) h then raiseStatus s fn (Reg.cqStatus c) 1
    else
      let f := fnOf s fn
      setFn s fn { f with heads := sset zDflt32 f.heads c (BitVec.ofNat 32 h) }

/-- One scan of a function: both doorbell records, then the next interval (R185). -/
def scanFn (s : State) (fn : Nat) (sqFails cqFails : Bool) : State :=
  let before := (fnOf s fn).tails
  let (sqOk, s1) := hostPortAccess s false (regGetFn s fn Reg.dbSqAddr).toNat 64
  let s2 := if sqOk && !sqFails then (List.range 16).foldl (fun st i => takeTail st fn i) s1 else dbReadError s1 fn true
  let (cqOk, s3) := hostPortAccess s2 false (regGetFn s2 fn Reg.dbCqAddr).toNat 64
  let s4 := if cqOk && !cqFails then (List.range 16).foldl (fun st i => takeHead st fn i) s3 else dbReadError s3 fn false
  let f := fnOf s4 fn
  setFn s4 fn { f with lastScan := some s.tbc, woken := false
                       interval := if f.tails != before then pollMin s4 fn else min (2 * pollInterval s4 fn) (pollMax s4 fn) }

/-- A scan is possible: the function exists and has an enabled ring, the link is up, the device is not fenced, and neither record
is being written back (04 R111). -/
def scanPossible (s : State) (fn : Nat) : Bool :=
  fnExists s fn && fnActive s fn && hostLinkUp s && !fenced s &&
  !hostPortWaits s (regGetFn s fn Reg.dbSqAddr).toNat 64 && !hostPortWaits s (regGetFn s fn Reg.dbCqAddr).toNat 64

/-- POLL_SCAN (R185): a scan that is due. -/
def execPollScan (fn : BitVec 8) (stores : List (Nat × List Byte)) (sqFails cqFails : Bool) (s : State) :
    Host.Outcome State Fault Refusal :=
  let s1 := hostStores s stores
  .next (if scanPossible s1 fn.toNat && scanDue s1 fn.toNat then scanFn s1 fn.toNat sqFails cqFails else s1)


/-- WAKE_PAGE_WRITE (R186): counted, the interval returns to MIN, and a scan follows: at once, or when it becomes possible. -/
def execWakePageWrite (fn : BitVec 8) (stores : List (Nat × List Byte)) (sqFails cqFails : Bool) (s : State) :
    Host.Outcome State Fault Refusal :=
  let s1 := hostStores s stores
  if fnExists s1 fn.toNat && hostLinkUp s1 then
    let s2 := regSatAddFn s1 fn.toNat Reg.wakeCount 32 1
    let s3 := setFn s2 fn.toNat { fnOf s2 fn.toNat with interval := pollMin s2 fn.toNat, woken := true }
    .next (if scanPossible s3 fn.toNat then scanFn s3 fn.toNat sqFails cqFails else s3)
  else .next s1

/- Completions (R195 to R201) -/

/-- The 32 bytes of a completion (R195). -/
def completionBytes (tag pos : Nat) (c : Compl) (sq elapsed : Nat) (phase : Bool) : List Byte :=
  toBytes 8 tag ++ toBytes 4 pos ++ toBytes 4 c.result.toNat ++ toBytes 8 c.detail.toNat ++
  toBytes 8 (c.status.toNat + c.reason.toNat * 2 ^ 8 + sq * 2 ^ 16 + elapsed * 2 ^ 24 + (if phase then 2 ^ 63 else 0))

/-- ELAPSED of a completion written now (R195): the worked case of chapter 07 ends it at the completion's second write (log entry 17). -/
def opElapsed (s : State) (o : Op) : Nat := min ((s.tbc - o.ingest).toNat / 1024) (2 ^ 32 - 1)

/-- The operation leaves the machine, its completion written with the increment that follows it, or suppressed (R199). Its place in its queue
is free. -/
def retireOp (s : State) (o : Op) : State :=
  let s1 := if suppressed o then s else opIncrement s o
  noteOps { s1 with ops := s1.ops.filter (fun x => x.id != o.id) }

/-- An operation that can come to lose another device: of a gather engine, the embedding engine or a collective. -/
def mayLose (o : Op) : Bool := o.opcode.toNat / 16 == 3 || o.opcode.toNat / 16 == 6 || o.opcode.toNat / 16 == 7

/-- An ORDERED completion `x` waits for an earlier descriptor of its ring that began after it or has not begun (R199). -/
def orderedLater (s : State) (x : Op) : Bool :=
  opFlag x 8 && s.ops.any (fun y => sameRing y x && decide (y.id < x.id) && (y.phase == .waiting || decide (x.beganAt < y.beganAt)))
/-- The completion of `o` is held back: an ORDERED one by every earlier descriptor of its ring whose completion is not yet
written (R199), a DESTINATION_LOST one by the others of its ring that began before it, and by those that may still end so,
whichever loss was found first (16 R440). Where the two orders contradict each other, that of ORDERED is kept (log entry 17). -/
def complHeld (s : State) (o : Op) : Bool :=
  (opFlag o 8 && s.ops.any (fun x => sameRing x o && decide (x.id < o.id))) ||
    (o.compl.status == 7 && s.ops.any (fun x => sameRing x o && x.beganAt != 0 && decide (x.beganAt < o.beganAt) &&
      ((x.phase == .done && x.compl.status == 7) || (x.phase == .running && mayLose x)) && !orderedLater s x))

/-- The completion of `o` may be written now: it is not held back, and every one of its completion ring that ended before it
and is not held back is written (R199, R200, R213). -/
def mayComplete (s : State) (o : Op) : Bool :=
  o.phase == .done && !complHeld s o &&
  !s.ops.any (fun x => sameStream x o && x.phase == .done && decide (x.endSeq < o.endSeq) && !complHeld s x)

/-- Send vector c of a function and start its count anew (R201). -/
def cqVector (s : State) (fn c : Nat) : State :=
  let f := fnOf s fn
  sendMsix (setFn s fn { f with unsent := sset (fun _ => 0) f.unsent c 0 }) fn c

/-- One more entry of CQ `c` toward its vector (R201). -/
def cqInterrupt (s : State) (fn c : Nat) : State :=
  if !bitAt (regGetFn s fn (Reg.cqCtrl c)) 17 then s
  else
    let f := fnOf s fn
    let n := sget (fun _ => 0) f.unsent c
    let f1 : HostFn := { f with unsent := sset (fun _ => 0) f.unsent c (n + 1),
                                firstAt := if n = 0 then sset zDflt64 f.firstAt c s.tbc else f.firstAt }
    let s1 := setFn s fn f1
    if (fld (regGetFn s fn (Reg.cqInt c)) 0 16).toNat ≤ n + 1 then cqVector s1 fn c else s1

/-- Write a completion into its CQ (R196, R198, R200, R216). -/
def writeCqe (s : State) (o : Op) (fn q pos : Nat) : State :=
  let c := o.cq
  if !cqOn s fn c || cqFull s fn c ||
      hostPortWaits s ((regGetFn s fn (Reg.cqBase c)).toNat + 32 * (cqTail s fn c % 2 ^ cqSize s fn c)) 32 then s
  else
    let p := cqTail s fn c
    let k := cqSize s fn c
    let bytes := completionBytes (hdr o.desc 64 64) pos o.compl q (opElapsed s o) (!natBit p k)
    let addr := (regGetFn s fn (Reg.cqBase c)).toNat + 32 * (p % 2 ^ k)
    let (ok, s1) := hostPortAccess s true addr 32
    let s2 := if ok then storeHost (storeHost s1 addr (bytes.take 24)) (addr + 24) (bytes.drop 24)
      else raiseStatus (recordEvent s1
        { cls := 3, source := 3, unit := 0, code := 2, tenant := fn, action := 3, addr := hostBit + addr,
          payload := toBytes 8 (hdr o.desc 64 64) ++ toBytes 4 pos ++ toBytes 1 q ++ toBytes 1 o.queue.toNat ++
            toBytes 1 o.compl.status.toNat ++ [0] ++ toBytes 8 o.compl.detail.toNat }) fn (Reg.cqStatus c) 8
    let s3 := regSetFn s2 fn (Reg.cqTail c) (BitVec.ofNat 64 ((p + 1) % 2 ^ 32))
    let s4 := retireOp s3 o
    if ok then cqInterrupt s4 fn c else s4

/-- Write the completion record of an internal queue through its capability cc, local memory or host bus space (05 R137);
PHASE is defined for a CQ only and is written 0. The write is rule-checked as the entry's own (04 R94, R96, R110); an address that
is not this device's by now is denied (19 R505); one that is denied is discarded and counts as written, as R216 has it for a
completion ring (DESIGN CHOICE, log entry 17). -/
def writeCoreRecord (s : State) (o : Op) (seq : W32) (cc : Cap) : State :=
  let bytes := completionBytes (hdr o.desc 64 64) seq.toNat o.compl 0 (opElapsed s o) false
  let f := (capCursor cc).toNat
  let a := localPart f
  if cc = capNull then retireOp s o
  else if !localFabric s false f then retireOp (acuDeny s .hostPort o.tenant.toNat (kEngine ||| kWrite) 0x1FF a) o
  else if !accessReady s a then askSegment s a
  else
    let bank := if o.beganAt = 0 then s.acu.active else o.bank
    let (v, s1) := acuCheckIn s bank .hostPort o.tenant.toNat (kEngine ||| kWrite) (capHas cc rSYS) true a
    if !v.ok then retireOp s1 o
    else if natBit a 53 then retireOp (storeHost s1 (a % hostBit) bytes) o
    else retireOp (storeLocal s1 a bytes) o

/-- The completion of an operation is written now if it may be, or suppressed under QUIET on SUCCESS. -/
def completeOp (s : State) (op : Nat) : State :=
  match findOp s op with
  | none => s
  | some o =>
    if !mayComplete s o || fenced s then s
    else if suppressed o then retireOp s o
    else
      match o.src with
      | .host fn q pos => if hostLinkUp s then writeCqe s o fn q pos.toNat else s
      | .core _ seq cc => writeCoreRecord s o seq cc
/-- COMPLETION_WRITE (R195 to R201). -/
def execCompletionWrite (op : Nat) (s : State) : Host.Outcome State Fault Refusal := .next (completeOp s op)

/-- CQ_INT_DELAY_EXPIRY (R201): DELAY µs have passed since the first unsent entry. -/
def execCqIntDelayExpiry (fn : BitVec 8) (cq : BitVec 4) (s : State) : Host.Outcome State Fault Refusal :=
  let f := fnOf s fn.toNat
  let delay := (fld (regGetFn s fn.toNat (Reg.cqInt cq.toNat)) 16 16).toNat
  if delay != 0 && bitAt (regGetFn s fn.toNat (Reg.cqCtrl cq.toNat)) 17 && sget (fun _ => 0) f.unsent cq.toNat != 0 &&
      decide (delay * 1000 ≤ elapsed s (sget zDflt64 f.firstAt cq.toNat)) then
    .next (cqVector s fn.toNat cq.toNat)
  else .next s

/- Ring control (R209, R210) -/

/-- A ring control value as it is taken: a reserved SIZE leaves the field as it stands (00 R10). -/
def ringValue (old : W64) (v : Nat) : W64 :=
  let new : W64 := BitVec.ofNat 64 v
  let size := (fld new 0 5).toNat
  if 6 ≤ size && size ≤ 16 then new else setFld new 0 (fld old 0 5)

/-- A write of SQ_CTRL. A function's poll interval stands when its last ring is disabled and goes on when one is enabled again (R185
is silent; DESIGN CHOICE, log entry 8). While ENABLE is set only a write that clears it and leaves the rest takes effect. -/
def sqCtrlSet (s : State) (fn q v : Nat) : State :=
  let old := regGetFn s fn (Reg.sqCtrl q)
  let new := ringValue old v
  let badSetup := raiseStatus s fn (Reg.sqStatus q) 4
  if bitAt old 16 then
    if bitAt new 16 || (old ^^^ new) &&& 0xF1F#64 != 0 then badSetup
    else regSetFn s fn (Reg.sqCtrl q) (setBit old 16 false)
  else
    let base := setFld (setFld old 0 (fld new 0 5)) 8 (fld new 8 4)
    let s1 := regSetFn s fn (Reg.sqCtrl q) base
    if !bitAt new 16 then s1
    else
      let addr := (regGetFn s fn (Reg.sqBase q)).toNat
      if addr % 4096 != 0 || decide (2 ^ 53 ≤ addr) || !cqOn s fn (fld new 8 4).toNat then raiseStatus s1 fn (Reg.sqStatus q) 4
      else
        let f := fnOf s1 fn
        let s2 := regSetFn s1 fn (Reg.sqCtrl q) (setBit (setBit base 16 true) 18 false)
        setFn s2 fn { f with tails := sset zDflt32 f.tails q (BitVec.ofNat 32 (sqHead s fn q)) }

/-- A begun descriptor of the function completes on CQ `c`, whatever its SQ is bound to since (R210). -/
def cqAwaited (s : State) (fn c : Nat) : Bool :=
  s.ops.any (fun o => match o.src with | .host f _ _ => f == fn && o.cq == c | .core _ _ _ => false)

/-- A write of CQ_CTRL; ENABLE is not cleared while an SQ bound to the CQ is enabled or busy. -/
def cqCtrlSet (s : State) (fn c v : Nat) : State :=
  let old := regGetFn s fn (Reg.cqCtrl c)
  let new := ringValue old v
  let badSetup := raiseStatus s fn (Reg.cqStatus c) 2
  if bitAt old 16 then
    if bitAt new 16 || (old ^^^ new) &&& 0x2001F#64 != 0 then badSetup
    else if cqAwaited s fn c || (List.range 16).any (fun q => sqCq s fn q == c && (sqOn s fn q || sqBusy s fn q)) then badSetup
    else regSetFn s fn (Reg.cqCtrl c) (setBit old 16 false)
  else
    let base := setFld (setFld old 0 (fld new 0 5)) 17 (fld new 17 1)
    let s1 := regSetFn s fn (Reg.cqCtrl c) base
    if !bitAt new 16 then s1
    else
      let addr := (regGetFn s fn (Reg.cqBase c)).toNat
      if addr % 4096 != 0 || decide (2 ^ 53 ≤ addr) then raiseStatus s1 fn (Reg.cqStatus c) 2
      else
        let f := fnOf s1 fn
        setFn (regSetFn s1 fn (Reg.cqCtrl c) (setBit base 16 true)) fn
          { f with heads := sset zDflt32 f.heads c (BitVec.ofNat 32 (cqTail s fn c)), unsent := sset (fun _ => 0) f.unsent c 0 }

/-- SQ_CTRL_WRITE (R210). -/
def execSqCtrlWrite (agent : Agent) (fn : BitVec 8) (sq : BitVec 4) (value : W32) (s : State) :
    Host.Outcome State Fault Refusal :=
  .next (if reachesWindow s agent fn.toNat then sqCtrlSet s fn.toNat sq.toNat value.toNat else s)

/-- CQ_CTRL_WRITE (R210). -/
def execCqCtrlWrite (agent : Agent) (fn : BitVec 8) (cq : BitVec 4) (value : W32) (s : State) :
    Host.Outcome State Fault Refusal :=
  .next (if reachesWindow s agent fn.toNat then cqCtrlSet s fn.toNat cq.toNat value.toNat else s)

/-- Vectors pending and not masked go out, once the port carries memory writes (R201). -/
def sendPending (s : State) : State :=
  (List.range 129).foldl (fun st fn => (List.range 17).foldl (fun st v =>
    if bitAt (regGetFn st fn Reg.msixPba) v && !bitAt (regGetFn st fn (Reg.msixCtrl v)) 0 then
      sendMsix (regSetFn st fn Reg.msixPba (setBit (regGetFn st fn Reg.msixPba) v false)) fn v
    else st) st) s

/- What the port offers of PCI Express 6.0, beside what commands act on (R174). -/

/-- Device ID of a function. -/
def pciDeviceId (fn : Nat) : Nat := if fn = 0 then 0x4410 else 0x4411
/-- TotalVFs; First VF Offset and VF Stride are 1, so VF n is function n. -/
def pciTotalVfs : Nat := 128
/-- Payload sizes, bytes. -/
def pciPayloads : List Nat := [128, 256, 512]
/-- Read request sizes, bytes. -/
def pciReadRequests : List Nat := [128, 256, 512, 1024, 2048, 4096]
/-- Link widths and rates: lanes, and RATE codes for 2.5 to 64.0 GT/s. -/
def pciTrains (rate width : Nat) : Bool := decide (1 ≤ rate) && decide (rate ≤ 6) && [1, 2, 4, 8, 16].contains width

/-- HOST_LINK_TRAINING (R174, R175): the link has trained or, after a dip that stopped its island, is in L0 again (17 R456; DESIGN
CHOICE, log entry 26); it is not while the island stands still. Without Flit mode the port trains at 2.5 GT/s, configuration only. -/
def execHostLinkTraining (flit : Bool) (rate : BitVec 3) (width : BitVec 5) (s : State) :
    Host.Outcome State Fault Refusal :=
  if inReset s || phyStopped s || !pciTrains rate.toNat width.toNat then .next s
  else if flit then
    let s := { s with power := { s.power with pcieBy := none } }
    .next (sendPending (regSet s Reg.hpLink (BitVec.ofNat 64 (rate.toNat + width.toNat * 8 + 2 ^ 8 + 2 ^ 9))))
  else
    let s := { s with power := { s.power with pcieBy := none } }
    .next (raiseStatus (regSet s Reg.hpLink (BitVec.ofNat 64 (1 + width.toNat * 8 + 2 ^ 8 + 2 ^ 10))) 0 Reg.hpErr 4)

/- Host-port operations (R193) -/

/-- Step 5 of R194 for NOP, COPY and CHANGE_SET. -/
def hostFields (_ : State) (o : Op) : Option Nat :=
  let k (n : Nat) : Nat := slotKind o.desc n
  let ext := faultAt (hdrExt o.desc != 0) 3
  match o.opcode.toNat with
  | 1 =>
    let len := param o 160 64
    lowest (ext ++ faultAt ((k 0 != 1 && k 0 != 2) || k 1 != 1 || k 2 != 0) 2 ++
      faultAt (len == 0 || decide (2 ^ 40 < len) || (k 0 == 2 && decide (32 < len))) 20 ++ faultAt (param o 224 32 != 0) 28)
  | n => lowest (ext ++ faultAt (k 0 != (if n = 8 then 1 else 0) || k 1 != 0 || k 2 != 0) 2 ++ faultAt (param o 160 96 != 0) 20)

/-- NOP (R193): completes at once. -/
def execNop (op : Nat) (s : State) : Host.Outcome State Fault Refusal :=
  .next (runOp s op 0 hostFields (fun _ => pure (complOk 0)))

/-- Read one block of a COPY's source, or of a change-set body: local memory, or host memory, where an error completion at
offset `fails`, or a deny, is HOST_ERROR (R216). -/
def copyRead (o : Op) (who : Who) (la off n : Nat) (fails : Option Nat) : EngM (List Byte) := do
  if natBit la 53 && who == .hostPort then
    let s ← get
    let (v, s1) := acuCheckIn s o.bank who o.tenant.toNat (kEngine ||| kRead) false false (la + off)
    set s1
    engNeed v.ok 0x0A 0 off
    engReady (la + off)
    match fails with
    | some f => if f < off + n then engEnd 0x0A 0 (max f off) else pure ()
    | none => pure ()
    pure (hostBytes s1 (la % hostBit + off) n)
  else
    engRule o who 0 (kEngine ||| kRead) false (la + off) off
    engReady (la + off)
    let s ← get
    match firstPoison s (la + off) n with
    | some i => engEnd 6 0 (off + i)
    | none => pure (memBytes s (la + off) n)

/-- Write one block of a COPY's destination. -/
def copyWrite (o : Op) (la off : Nat) (bs : List Byte) : EngM Unit := do
  if natBit la 53 then
    engRule o .hostPort 1 (kEngine ||| kWrite) true (la + off) off
    engReady (la + off)
    modify (fun s => storeHost s (la % hostBit + off) bs)
  else
    engWrite o .hostPort 1 kWrite (la + off) bs (fun i => off + i)

/-- The offsets at which a COPY's source or destination enters a new 64-byte block. -/
def copyCuts (a b n : Nat) : List Nat :=
  ((blocksOf a n).map (fun x => x - a) ++ (blocksOf b n).map (fun x => x - b)).eraseDups.mergeSort (fun x y => decide (x ≤ y))

/-- Copy piece by piece in ascending order; each piece lies in one block of either end. -/
def copyPieces (o : Op) (src : Option Nat) (dst n : Nat) (fails : Option Nat) : List Nat → EngM Unit
  | [] => pure ()
  | off :: rest => do
    let len := rest.headD n - off
    let bs ← match src with
      | some a => copyRead o .hostPort a off len fails
      | none => pure (bytesAt (opSlot o 0).data off len)
    copyWrite o dst off bs
    copyPieces o src dst n fails rest

/-- COPY (R193): the capability checks of both ends over the whole length, then the copy. -/
def copyBody (fails : Option Nat) (o : Op) : EngM Compl := do
  let n := param o 160 64
  let inline_ := slotKind o.desc 0 == 2
  let src ← if inline_ then pure none else do
    engCapCheck o 0 (rLD ||| rDMA) 0 n 1
    let a ← engLocal o .hostPort 0 kRead
    pure (some a)
  engCapCheck o 1 (rST ||| rDMA) 0 n 1
  let dst ← engLocal o .hostPort 1 kWrite
  copyPieces o src dst n fails (copyCuts (src.getD dst) dst n)
  pure (complOk n)

/-- COPY. `hostFail`: offset of the host read that fails, if one does. -/
def execCopy (op : Nat) (hostFail : Option Nat) (s : State) : Host.Outcome State Fault Refusal :=
  .next (runOp s op 1 hostFields (copyBody hostFail))

/-- COVE_CLEAR_DONE (R207): the clearing of a cove after its change of owner is complete. -/
def execCoveClearDone (cove : BitVec 5) (s : State) : Host.Outcome State Fault Refusal :=
  .next { s with coveClearing := sset markDflt s.coveClearing cove.toNat false }

end Sys2Proof.Machine
end

