-- ==== Sys2Proof/Machine/Dta.lean ====
section
/-! DEFINITION. Dense transform arrays (spec 12): MATMUL, SEGMENT_SUM, and their control. -/

namespace Sys2Proof.Machine

/-- Round up to a multiple of 16. -/
def up16 (n : Nat) : Nat := cdiv n 16 * 16
/-- A stride field: 0 means the row length rounded up to a multiple of 16 (R343). -/
def strideOf (field row : Nat) : Nat := if field = 0 then up16 row else field
/-- A format of EXACT mode (R343). -/
def exactFmt (f : Nat) : Bool := decide (f ≤ 4)
/-- Rows times stride: the extent of `rows` rows of `row` bytes. -/
def rowsExtent (rows stride row : Nat) : Nat := (rows - 1) * stride + row

/-- A MATMUL's parameters (R343). -/
structure Matmul where
  m : Nat
  k : Nat
  n : Nat
  inFmt : Nat
  xUns : Bool
  wUns : Bool
  shape : Nat
  outFmt : Nat
  ovf : Bool
  cEn : Bool
  scale : Int
  xs : Nat
  ws : Nat
  ys : Nat
  cs : Nat
  deriving DecidableEq, Repr

/-- Bytes of a C element. -/
def cBytes (inFmt : Nat) : Nat := if exactFmt inFmt then 32 else 4
/-- A field of the stride block. -/
def strideField (o : Op) (i : Nat) : Nat := numAt (opSlot o 4).data (4 * i) 4
/-- Read the parameters. -/
def matmulOf (o : Op) : Matmul :=
  let k := param o 184 20
  let n := param o 204 20
  let f := param o 224 3
  let out := param o 231 4
  { m := param o 160 24, k := k, n := n, inFmt := f, xUns := param o 227 1 == 1, wUns := param o 228 1 == 1,
    shape := param o 229 2, outFmt := out, ovf := param o 235 1 == 1, cEn := param o 236 1 == 1,
    scale := (BitVec.ofNat 8 (param o 237 8)).toInt,
    xs := strideOf (strideField o 0) (k * inBytes f), ws := strideOf (strideField o 1) (n * inBytes f),
    ys := strideOf (strideField o 2) (n * outBytes out), cs := strideOf (strideField o 3) (n * cBytes f) }
/-- Slots used, with extent and whether written (R345). -/
def matmulSlots (p : Matmul) : List (Nat × Nat × Bool) :=
  [(0, rowsExtent p.m p.xs (p.k * inBytes p.inFmt), false), (1, rowsExtent p.k p.ws (p.n * inBytes p.inFmt), false),
   (2, rowsExtent p.m p.ys (p.n * outBytes p.outFmt), true)] ++
  (if p.cEn then [(3, rowsExtent p.m p.cs (p.n * cBytes p.inFmt), false)] else [])
/-- A stride field below its row length or not a multiple of 16 (R345). -/
def badStride (o : Op) (i row : Nat) : List Nat :=
  let f := strideField o i
  faultAt (f != 0 && (decide (f < row) || f % 16 != 0)) (slotOff 4 + 4 * i)

/-- Step 5 of R194 for MATMUL (R343, R345). -/
def matmulFields (_ : State) (o : Op) : Option Nat :=
  let p := matmulOf o
  let ints := decide (p.inFmt ≤ 1)
  lowest (faultAt (hdrExt o.desc != 1) 3 ++ wrongKinds o [1, 1, 1, if p.cEn then 1 else 0, 2, 0] ++
    faultAt (p.m == 0) 20 ++ faultAt (p.k == 0) 23 ++ faultAt (p.n == 0) 25 ++
    faultAt (p.inFmt == 7 || ((p.xUns || p.wUns) && !ints) || decide (8 < p.outFmt) ||
      (p.outFmt == 8 && (!exactFmt p.inFmt || p.scale != 0))) 28 ++
    faultAt (p.outFmt == 8 && p.ovf) 29 ++ faultAt (param o 245 11 != 0) 30 ++
    badStride o 0 (p.k * inBytes p.inFmt) ++ badStride o 1 (p.n * inBytes p.inFmt) ++
    badStride o 2 (p.n * outBytes p.outFmt) ++ badStride o 3 (p.n * cBytes p.inFmt) ++
    faultAt ((opSlot o 4).data.drop 16 != List.replicate 16 0) (slotOff 4 + 16) ++
    uncovered o ((matmulSlots p).map (fun x => (x.1, x.2.1))) ++ overlapping o (matmulSlots p))

/- Shapes (R329 to R331) -/

/-- Two weights to a PE (R330). -/
def packedFmt (f : Nat) : Bool := f == 0 || f == 2 || f == 3
/-- K_t of a shape with one product per PE. -/
def baseKt : Nat → Nat
  | 0 => 64 | 1 => 128 | 2 => 32 | _ => 256
/-- K_t. -/
def tileK (p : Matmul) : Nat := baseKt p.shape * (if packedFmt p.inFmt then 2 else 1)
/-- N_t. -/
def tileN (p : Matmul) : Nat := match p.shape with | 0 => 64 | 1 => 32 | 2 => 128 | _ => 16
/-- The PE of a weight of a tile, as 128 × row + 2 × column + half (R329, R330). -/
def peOf (p : Matmul) (k n : Nat) : Nat :=
  let half := if packedFmt p.inFmt then k % 2 else 0
  let k' := if packedFmt p.inFmt then k / 2 else k
  let row := if p.shape = 2 then k' + 32 * (n / 64) else k' % 64
  let col := match p.shape with | 0 => n | 1 => n + 32 * (k' / 64) | 2 => n % 64 | _ => n + 16 * (k' / 64)
  128 * row + 2 * col + half

/-- Output lane of a tile's column (R329). -/
def outputLane (p : Matmul) (n : Nat) : Nat := match p.shape with | 0 => n | 1 => n + 32 | 2 => n % 64 | _ => n + 48
/-- Place of row `r`, column `n` of a unit in the accumulation buffer, as 64 × entry + output lane: in WIDE two sums leave in one
lane. -/
def bufferPlace (p : Matmul) (r n : Nat) : Nat := 64 * (if p.shape = 2 then 2 * r + n / 64 else r) + outputLane p n

/-- DTA `q`. -/
def dtaOf (s : State) (q : Nat) : Dta := sget (fun _ => dtaReset) s.dtas q
/-- Replace DTA `q`. -/
def setDta (s : State) (q : Nat) (d : Dta) : State := { s with dtas := sset (fun _ => dtaReset) s.dtas q d }
/-- No weight. -/
def wDflt (_ : Nat) : Nat := 0
/-- An empty lane. -/
def laneDflt (_ : Nat) : Lane := laneZero

/-- Load a tile: rows of encoded weights from the tile's corner; every other PE holds a zero weight. -/
def loadTile (p : Matmul) (tile : List (List Nat)) : SMap Nat :=
  (List.range tile.length).foldl (fun m k =>
    (List.range (tile.getD k []).length).foldl (fun m n => sset wDflt m (peOf p k n) ((tile.getD k []).getD n 0)) m) []

/- Arithmetic -/

/-- A column chain of FAST mode (R335): from +0.0 down the chain, one rounding per PE. -/
def fastChain : List FVal → List FVal → Nat × FFlags → Nat × FFlags
  | x :: xs, w :: ws, (acc, fl) =>
    let (r, f) := fMulAdd fp32 0 x w (fDecode fp32 acc)
    fastChain xs ws (r, fl ||| f)
  | _, _, acc => acc

/-- The products of a column added into a lane (R333, R335). -/
def laneAccumulate (exact : Bool) (l : Lane) (xs ws : List FVal) : Lane :=
  if exact then (List.zip xs ws).foldl (fun a p => laneAddExact a (fMulVal p.1 p.2)) l
  else
    let (s, fl) := fastChain xs ws (0, 0)
    let (r, fl') := fAdd fp32 0 l.word s
    { l with word := r, flags := l.flags ||| fl ||| fl' }

/-- A lane's first value from a C element. -/
def laneOfC (exact : Bool) (c : Nat) : Lane :=
  if exact then laneOfExa (exaRead (c % 2 ^ 192)) else { laneZero with word := c }

/-- The value a lane converts, with its flags. -/
def laneValue (exact : Bool) (l : Lane) : FVal × FFlags :=
  if exact then
    let (v, fl) := laneExa l
    (exaVal v, fl)
  else (fDecode fp32 l.word, l.flags)

/-- Convert one output (R336): bytes, flags, and whether conversion raised overflow. -/
def laneOut (outFmt : Nat) (ovf : Bool) (scale : Int) (exact : Bool) (l : Lane) : List Byte × FFlags × Bool :=
  let (v, fl) := laneValue exact l
  let (bs, fl') := convertOut outFmt ovf (fScale v scale)
  (bs, fl ||| fl', bitAt fl' 2)

/-- What a descriptor has raised so far: its flags, and its outputs whose conversion overflowed. -/
structure OutTally where
  flags : FFlags
  isOver : Nat
  deriving DecidableEq, Repr

/-- Convert a row of lanes. -/
def laneRow (outFmt : Nat) (ovf : Bool) (scale : Int) (exact : Bool) (t : OutTally) (ls : List Lane) :
    List Byte × OutTally :=
  ls.foldl (fun (a : List Byte × OutTally) l =>
    let (bs, fl, isOver) := laneOut outFmt ovf scale exact l
    (a.1 ++ bs, ⟨a.2.flags ||| fl, a.2.isOver + (if isOver then 1 else 0)⟩)) ([], t)

/-- SUCCESS of a DTA descriptor (R346). -/
def dtaDone (result : Nat) (t : OutTally) : Compl :=
  ⟨0, if bitAt t.flags 2 || bitAt t.flags 4 then 1 else 0, BitVec.ofNat 32 result,
    BitVec.ofNat 64 (flagBits t.flags + min t.isOver (2 ^ 32 - 1) * 2 ^ 32)⟩

/- MATMUL -/

/-- Local base addresses of X, W, Y, C. -/
structure MatAddr where
  x : Nat
  w : Nat
  y : Nat
  c : Nat
  deriving DecidableEq, Repr

/-- A row slice of an operand as encoded elements. -/
def dtaElems (o : Op) (slot base off count size : Nat) : EngM (List Nat) := do
  let bs ← engRead o .dta slot (base + off) (count * size) (fun i => off + i)
  pure (splitElems size count bs)

/-- One pass (R331): load the tile, stream the chunk, add into the unit's lanes. -/
def matPass (o : Op) (p : Matmul) (a : MatAddr) (n0 nc m0 k0 : Nat) (rows : List (List Lane)) :
    EngM (List (List Lane)) := do
  let kc := min (tileK p) (p.k - k0)
  let size := inBytes p.inFmt
  let exact := exactFmt p.inFmt
  let mut tile : List (List Nat) := []
  for k in List.range kc do
    let w ← dtaElems o 1 a.w ((k0 + k) * p.ws + n0 * size) nc size
    tile := tile ++ [w]
  let q := o.queue.toNat
  let t := tile
  modify (fun s => setDta s q { dtaOf s q with weights := loadTile p t })
  let cols := (List.range nc).map (fun j => t.map (fun r => inValue p.inFmt p.wUns (r.getD j 0)))
  let mut out : List (List Lane) := []
  for r in List.range rows.length do
    let x ← dtaElems o 0 a.x ((m0 + r) * p.xs + k0 * size) kc size
    let xs := x.map (inValue p.inFmt p.xUns)
    out := out ++ [List.zipWith (fun l w => laneAccumulate exact l xs w) (rows.getD r []) cols]
  modify (fun s => regWrapAdd s (Reg.dtaProducts q) (rows.length * kc * nc))
  pure out

/-- The passes of a unit, k-blocks ascending. -/
def matPasses (o : Op) (p : Matmul) (a : MatAddr) (n0 nc m0 : Nat) : List Nat → List (List Lane) → EngM (List (List Lane))
  | [], rows => pure rows
  | kb :: rest, rows => do
    let rows' ← matPass o p a n0 nc m0 (kb * tileK p) rows
    matPasses o p a n0 nc m0 rest rows'

/-- The unit's lanes before its first pass: C, or zero. -/
def matInitial (o : Op) (p : Matmul) (a : MatAddr) (n0 nc m0 mc : Nat) : EngM (List (List Lane)) := do
  let exact := exactFmt p.inFmt
  let mut out : List (List Lane) := []
  for r in List.range mc do
    if p.cEn then
      let cs ← dtaElems o 3 a.c ((m0 + r) * p.cs + n0 * cBytes p.inFmt) nc (cBytes p.inFmt)
      out := out ++ [cs.map (laneOfC exact)]
    else
      out := out ++ [List.replicate nc laneZero]
  pure out

/-- Convert the rows of a unit, each with its byte offset in Y. -/
def matRows (p : Matmul) (n0 m0 : Nat) (t : OutTally) (rows : List (List Lane)) : List (Nat × List Byte) × OutTally :=
  (List.range rows.length).foldl (fun (acc : List (Nat × List Byte) × OutTally) r =>
    let (bs, t1) := laneRow p.outFmt p.ovf p.scale (exactFmt p.inFmt) acc.2 (rows.getD r [])
    (acc.1 ++ [((m0 + r) * p.ys + n0 * outBytes p.outFmt, bs)], t1)) ([], t)
/-- The accumulation buffer as a unit leaves it. -/
def matBuffer (p : Matmul) (rows : List (List Lane)) : SMap Lane :=
  (List.range rows.length).foldl (fun m r => (List.range (rows.getD r []).length).foldl
    (fun m j => sset laneDflt m (bufferPlace p r j) ((rows.getD r []).getD j laneZero)) m) []
/-- Convert and write a unit's rows, all of them or none (R347), and leave its lanes in the accumulation buffer. -/
def matWrite (o : Op) (p : Matmul) (a : MatAddr) (n0 m0 : Nat) (t : OutTally) (rows : List (List Lane)) :
    EngM OutTally := do
  let (out, t') := matRows p n0 m0 t rows
  engWriteRows o .dta 2 a.y out
  let q := o.queue.toNat
  modify (fun s => setDta s q { dtaOf s q with buffer := matBuffer p rows })
  pure t'

/-- Check a slot of `rows` rows (R328, R334): a row of EXA144 slots must begin at a multiple of 32. -/
def dtaCapCheck (o : Op) (slot : Nat) (mask : BitVec 12) (ext rows stride : Nat) (exa : Bool) : EngM Unit := do
  engCapCheck o slot mask 0 ext (if exa then 32 else 1)
  if exa && decide (1 < rows) then engCapCheck o slot mask stride 32 32

/-- MATMUL (R331, R333, R335): n-blocks, then chunks, then k-blocks, ascending. -/
def matmulBody (o : Op) : EngM Compl := do
  let p := matmulOf o
  for x in matmulSlots p do
    dtaCapCheck o x.1 (if x.2.2 then rST ||| rDMA else rLD ||| rDMA) x.2.1 p.m (if x.1 = 2 then p.ys else p.cs)
      ((x.1 == 2 && p.outFmt == 8) || (x.1 == 3 && exactFmt p.inFmt))
  let x ← engLocal o .dta 0 kRead
  let w ← engLocal o .dta 1 kRead
  let y ← engLocal o .dta 2 kWrite
  let c ← if p.cEn then engLocal o .dta 3 kRead else pure 0
  let a : MatAddr := ⟨x, w, y, c⟩
  let ch := 65536 / tileN p
  let mut t : OutTally := ⟨0, 0⟩
  for nb in List.range (cdiv p.n (tileN p)) do
    let n0 := nb * tileN p
    let nc := min (tileN p) (p.n - n0)
    for mb in List.range (cdiv p.m ch) do
      let m0 := mb * ch
      let rows ← matInitial o p a n0 nc m0 (min ch (p.m - m0))
      let rows' ← matPasses o p a n0 nc m0 (List.range (cdiv p.k (tileK p))) rows
      t ← matWrite o p a n0 m0 t rows'
  pure (dtaDone p.m t)

/-- MATMUL. -/
def execMatmul (op : Nat) (s : State) : Host.Outcome State Fault Refusal :=
  .next (runOp s op 0x10 matmulFields matmulBody)

/- SEGMENT_SUM (R337, R344) -/

/-- Its parameters. -/
structure SegSum where
  segs : Nat
  d : Nat
  inFmt : Nat
  outFmt : Nat
  ovf : Bool
  mean : Bool
  uns : Bool
  scale : Int
  deriving DecidableEq, Repr

/-- Read the parameters. -/
def segSumOf (o : Op) : SegSum :=
  { segs := param o 160 24, d := param o 184 12, inFmt := param o 196 3, outFmt := param o 199 4,
    ovf := param o 203 1 == 1, mean := param o 204 1 == 1, uns := param o 205 1 == 1,
    scale := (BitVec.ofNat 8 (param o 206 8)).toInt }
/-- Bytes of an input row and of an output row, with their padding. -/
def segRow (p : SegSum) : Nat := up16 (p.d * inBytes p.inFmt)
/-- Bytes of an output row with its padding. -/
def segOutRow (p : SegSum) : Nat := up16 (p.d * outBytes p.outFmt)
/-- Extent of OUT. -/
def segOutExtent (p : SegSum) : Nat := rowsExtent p.segs (segOutRow p) (p.d * outBytes p.outFmt)
/-- Bytes of ROWS from its cursor to its top: its rows are counted by OFFSETS. -/
def segRowsBytes (o : Op) : Nat := ((capBounds (opSlot o 0).cap).2 - (slotCur o 0 : Int)).toNat

/-- Step 5 of R194 for SEGMENT_SUM (R344, R345). -/
def segSumFields (_ : State) (o : Op) : Option Nat :=
  let p := segSumOf o
  lowest (faultAt (hdrExt o.desc != 0) 3 ++ wrongKinds o [1, 1, 1] ++ faultAt (p.segs == 0) 20 ++
    faultAt (p.d == 0 || decide (2048 < p.d) || decide (4096 < p.d * inBytes p.inFmt)) 23 ++
    faultAt (p.inFmt == 7 || decide (8 < p.outFmt) || (p.outFmt == 8 && (!exactFmt p.inFmt || p.scale != 0))) 24 ++
    faultAt ((p.outFmt == 8 && p.ovf) || (p.uns && decide (1 < p.inFmt))) 25 ++ faultAt (param o 214 42 != 0) 26 ++
    uncovered o [(1, 4 * (p.segs + 1)), (2, segOutExtent p)] ++
    overlapping o [(0, segRowsBytes o, false), (1, 4 * (p.segs + 1), false), (2, segOutExtent p, true)])

/-- One element of a segment: the sum, or the mean, of its rows' elements. An empty segment gives +0. -/
def segElement (p : SegSum) (xs : List Nat) : List Byte × FFlags × Bool :=
  let vs := xs.map (inValue p.inFmt p.uns)
  if exactFmt p.inFmt then
    let l := vs.foldl (fun l v => laneAddExact l (v, 0)) laneZero
    let (x, fl) := laneExa l
    let v := if p.mean && !xs.isEmpty then exaMean x xs.length else exaVal x
    let (bs, fl') := convertOut p.outFmt p.ovf (fScale v p.scale)
    (bs, fl ||| fl', bitAt fl' 2)
  else
    let (acc, fl) := vs.foldl (fun (a : Nat × FFlags) v =>
      let (t, fl) := fAddVal 0 (fDecode fp32 a.1) v
      let (r, fl') := fEncode fp32 0 false t fl
      (r, a.2 ||| fl')) (0, 0)
    let (acc', fl') := if p.mean && !xs.isEmpty then fDiv fp32 0 (fDecode fp32 acc) (valOfInt xs.length) else (acc, 0)
    let (bs, fl'') := convertOut p.outFmt p.ovf (fScale (fDecode fp32 acc') p.scale)
    (bs, fl ||| fl' ||| fl'', bitAt fl'' 2)

/-- A whole output row of a segment. -/
def segOutputs (p : SegSum) (rows : List (List Nat)) (t : OutTally) : List Byte × OutTally :=
  (List.range p.d).foldl (fun (a : List Byte × OutTally) e =>
    let (bs, fl, isOver) := segElement p (rows.map (fun r => r.getD e 0))
    (a.1 ++ bs, ⟨a.2.flags ||| fl, a.2.isOver + (if isOver then 1 else 0)⟩)) ([], t)

/-- SEGMENT_SUM: segments ascending; each offset is checked when it is reached (R346). -/
def segSumBody (o : Op) : EngM Compl := do
  let p := segSumOf o
  engCapCheck o 0 (rLD ||| rDMA) 0 0 1
  engCapCheck o 1 (rLD ||| rDMA) 0 (4 * (p.segs + 1)) 1
  dtaCapCheck o 2 (rST ||| rDMA) (segOutExtent p) p.segs (segOutRow p) (p.outFmt == 8)
  let a ← engLocal o .dta 0 kRead
  let b ← engLocal o .dta 1 kRead
  let c ← engLocal o .dta 2 kWrite
  let have_ := segRowsBytes o
  let size := p.d * inBytes p.inFmt
  let covered := if size ≤ have_ then (have_ - size) / segRow p + 1 else 0
  let first ← engRead o .dta 1 b 4 (fun i => i)
  let mut o0 := ofBytes first
  let mut t : OutTally := ⟨0, 0⟩
  for g in List.range p.segs do
    engNeed (decide (o0 ≤ covered)) 0x30 2 g
    let nxt ← engRead o .dta 1 (b + 4 * (g + 1)) 4 (fun i => 4 * (g + 1) + i)
    let o1 := ofBytes nxt
    engNeed (decide (o0 ≤ o1)) 0x30 1 g
    engNeed (decide (o1 ≤ covered)) 0x30 2 g
    let mut rows : List (List Nat) := []
    for r in (List.range (o1 - o0)).map (fun i => o0 + i) do
      let bs ← engRead o .dta 0 (a + r * segRow p) size (fun i => r * segRow p + i)
      rows := rows ++ [splitElems (inBytes p.inFmt) p.d bs]
    let (bs, t1) := segOutputs p rows t
    engWriteRows o .dta 2 c [(g * segOutRow p, bs)]
    t := t1
    o0 := o1
  pure (dtaDone p.segs t)

/-- SEGMENT_SUM. -/
def execSegmentSum (op : Nat) (s : State) : Host.Outcome State Fault Refusal :=
  .next (runOp s op 0x11 segSumFields segSumBody)

/- Control (R342) -/

/-- End every begun operation of a queue with ABORTED, reason 2; an operation not yet begun ends so only at its begin
(08 R238). -/
def abortRunning (s : State) (q reason : Nat) : State :=
  (s.ops.filter (fun o => o.queue.toNat == q && o.phase == .running)).foldl (fun st o => endOp st o.id (compl 8 reason 0 0)) s

/-- DTA_OFFLINE: a write of DTA_CTRL.OFFLINE = 1 (R342, 08 R238). -/
def dtaOfflineSet (s : State) (q : Nat) : State := abortRunning (regOr s (Reg.dtaCtrl q) 1) q 2
/-- DTA_RESET: the weights and the buffer are cleared; the reset is done at ENGINE_RESET_DONE. -/
def dtaResetSet (s : State) (q : Nat) : State :=
  let s1 := setDta (abortRunning s q 2) q dtaReset
  { s1 with resetting := sset markDflt s1.resetting q true }

/-- DTA_OFFLINE. -/
def execDtaOffline (agent : Agent) (cove : BitVec 5) (s : State) : Host.Outcome State Fault Refusal :=
  .next (if platformAgent s agent then dtaOfflineSet s cove.toNat else s)
/-- DTA_RESET. -/
def execDtaReset (agent : Agent) (cove : BitVec 5) (s : State) : Host.Outcome State Fault Refusal :=
  .next (if platformAgent s agent then dtaResetSet s cove.toNat else s)
/-- ENGINE_RESET_DONE (08 R238, 09, 10, 11, 12): the engine of a queue is back. -/
def execEngineResetDone (queue : BitVec 8) (s : State) : Host.Outcome State Fault Refusal :=
  .next { s with resetting := sset markDflt s.resetting queue.toNat false }

end Sys2Proof.Machine
end

