-- ==== Sys2Proof/Machine/Gather.lean ====
section
/-! DEFINITION. Gather engines (spec 10): row gathers and scatters, sampled walks, and their control. -/

namespace Sys2Proof.Machine

/- Philox4x32-10 (R282): the published generator; the spec gives its known-answer output for zero input. -/

/-- The rounds: counter words x0 … x3, key words k0, k1. -/
def philoxRounds : Nat → (Nat × Nat × Nat × Nat) → Nat → Nat → List Nat
  | 0, (x0, x1, x2, x3), _, _ => [x0, x1, x2, x3]
  | n + 1, (x0, x1, x2, x3), k0, k1 =>
    let a := 0xD2511F53 * x0
    let b := 0xCD9E8D57 * x2
    let y0 := ((b / 2 ^ 32) ^^^ x1) ^^^ k0
    let y2 := ((a / 2 ^ 32) ^^^ x3) ^^^ k1
    philoxRounds n (y0, b % 2 ^ 32, y2, a % 2 ^ 32) ((k0 + 0x9E3779B9) % 2 ^ 32) ((k1 + 0xBB67AE85) % 2 ^ 32)

/-- The four words of a block. -/
def philox (c0 c1 c2 c3 k0 k1 : Nat) : List Nat := philoxRounds 10 (c0, c1, c2, c3) k0 k1

/-- Draw `i` for vertex `v` at hop `h` (R282). -/
def walkDraw (seed : W64) (stream v h i : Nat) : Nat :=
  let c1 := v / 2 ^ 32 % 256 + h * 2 ^ 8 + (i / 4 % 256) * 2 ^ 16
  (philox (v % 2 ^ 32) c1 stream 0 (seed.toNat % 2 ^ 32) (seed.toNat / 2 ^ 32)).getD (i % 4) 0

/-- An absent key of the virtual swap map reads as itself. -/
def swapDflt (i : Nat) : Nat := i
/-- Swap `i` of R282: `n` draws are left. -/
def walkSwaps (seed : W64) (stream v h d : Nat) : Nat → Nat → SMap Nat → SMap Nat
  | 0, _, m => m
  | n + 1, i, m =>
    let j := i + walkDraw seed stream v h i * (d - i) / 2 ^ 32
    let pi := sget swapDflt m i
    let pj := sget swapDflt m j
    walkSwaps seed stream v h d n (i + 1) (sset swapDflt (sset swapDflt m i pj) j pi)
/-- The selected positions of a vertex of degree `d` with fan-out `k`, ascending (R282). -/
def walkSample (seed : W64) (stream v h k d : Nat) : List Nat :=
  if k = 0 || d ≤ k then List.range d
  else
    let m := walkSwaps seed stream v h d k 0 []
    ((List.range k).map (sget swapDflt m)).mergeSort (fun a b => decide (a ≤ b))

/- Descriptors (R294, R295) -/

/-- Bytes from a slot's cursor to its top. -/
def slotRoom (o : Op) (n : Nat) : Nat := ((capBounds (opSlot o n).cap).2 - (slotCur o n : Int)).toNat
/-- Width of an index, in bytes. -/
def geWidth (o : Op) : Nat := if param o 184 1 = 1 then 8 else 4
/-- COUNT or SEEDS. -/
def geCount (o : Op) : Nat := param o 160 24
/-- INVALID. -/
def geHandles (o : Op) : Bool := param o 185 1 == 1
/-- ROW_BYTES. -/
def geRowBytes (o : Op) : Nat := 16 * (param o (if o.opcode = 0x32 then 216 else 192) 8 + 1)
/-- HOPS: a two-hop walk. -/
def walkTwo (o : Op) : Bool := param o 186 1 == 1
/-- The walk takes features. -/
def walkFeatures (o : Op) : Bool := hdrExt o.desc == 2
/-- N (R280). -/
def walkN (o : Op) : Nat := slotRoom o 0 / 8 - 1
/-- L (R280). -/
def walkL (o : Op) : Nat := slotRoom o 1 / geWidth o

/-- Step 5 of R194 for the GE opcodes. A slot's range runs from its cursor to its top; those of a list run over the
list. -/
def geFields (_ : State) (o : Op) : Option Nat :=
  let w := geWidth o
  if o.opcode = 0x32 then
    let ext := hdrExt o.desc
    let f := if ext = 2 then 1 else 0
    let k1 := param o 192 11
    let k2 := param o 203 11
    lowest (faultAt (ext != 1 && ext != 2) 3 ++ wrongKinds o ([1, 1, 1, 1, 1, f] ++ (if ext = 2 then [1, 0, 0] else [])) ++
      faultAt (geCount o == 0) 20 ++ faultAt (param o 189 3 != 0) 23 ++ faultAt (decide (1024 < k1)) 24 ++
      faultAt (decide (1024 < k2) || (k2 != 0 && !walkTwo o)) 25 ++ faultAt (param o 214 2 != 0) 26 ++
      faultAt (param o 216 8 != 0 && ext != 2) 27 ++ faultAt (decide (2 ^ 40 < walkN o)) (slotOff 0) ++
      overlapping o ([(0, slotRoom o 0, false), (1, slotRoom o 1, false), (2, geCount o * w, false),
        (3, slotRoom o 3, true), (4, slotRoom o 4, true)] ++
        (if ext = 2 then [(5, slotRoom o 5, false), (6, slotRoom o 6, true)] else [])))
  else
    let rows := geCount o * geRowBytes o
    lowest (faultAt (hdrExt o.desc != 0) 3 ++ wrongKinds o [1, 1, 1] ++ faultAt (geCount o == 0) 20 ++
      faultAt (param o 186 6 != 0) 23 ++ faultAt (param o 200 56 != 0) 25 ++
      overlapping o (if o.opcode = 0x30 then
        [(0, geCount o * w, false), (1, slotRoom o 1, false), (2, rows, true)]
      else [(0, geCount o * w, false), (1, rows, false), (2, slotRoom o 2, true)]))

/- Accesses (R278, R279) -/

/-- The gather engine's cove. -/
def geCove (o : Op) : Nat := o.queue.toNat - 0x20
/-- Count `n` reads that the GE of cove `c` made. -/
def geCounted (s : State) (c n : Nat) : State := regWrapAdd s (Reg.geReads c) n
/-- The walk on a cove. -/
def walkOf (s : State) (c : Nat) : WalkRun := sget (fun _ => walkNone) s.walks c
/-- Replace it. -/
def setWalk (s : State) (c : Nat) (w : WalkRun) : State := { s with walks := sset (fun _ => walkNone) s.walks c w }
/-- Change the walk of an operation that runs. -/
def walkModify (o : Op) (f : WalkRun → WalkRun) : EngM Unit :=
  modify (fun s => setWalk s (geCove o) (f (walkOf s (geCove o))))
/-- A run-ahead read of `n` bytes at byte `off` of a slot. -/
def specHas (l : List SpecRead) (slot off n : Nat) : Option SpecRead :=
  l.find? (fun r => r.slot == slot && r.off == off && r.bytes.length == n)
/-- Read `m` bytes of one block at byte `off` of a slot by the GE of cove `c`: what promoted run-ahead has read is used, and was
counted when it was promoted (R289). -/
def geReadBlock (c : Nat) (o : Op) (slot off m : Nat) : EngM (List Byte) := do
  let s ← get
  match specHas (walkOf s (geCove o)).promoted slot off m with
  | some r =>
    walkModify o (fun w => { w with promoted := w.promoted.erase r })
    pure r.bytes
  | none =>
    let bs ← engFetch o .ge slot (slotAddr o slot off) m (fun i => off + i)
    modify (fun s => geCounted s c 1)
    pure bs
/-- Read `n` bytes at byte `off` of a slot by the GE of cove `c`; only a slot of `remote` may lie on another device. -/
def geReadBy (c : Nat) (o : Op) (slot off n : Nat) (remote : Bool) : EngM (List Byte) := do
  let a := slotAddr o slot off
  let s ← get
  engCapCheck o slot (if remote then farMask s (rLD ||| rDMA) a else rLD ||| rDMA) off n 1
  if !localFabric s false a && !fabricDenied s false a && !remote then engEnd 0x0B 3 0
  else
    let mut out : List Byte := []
    for b in blocksOf a n do
      let bs ← geReadBlock c o slot (off + (b - a)) (min (a + n) (alignDown b 64 + 64) - b)
      out := out ++ bs
    pure out
/-- Read by the home GE from a local slot. -/
def geRead (o : Op) (slot off n : Nat) : EngM (List Byte) := geReadBy (geCove o) o slot off n false
/-- Write at byte `off` of a slot. -/
def geWrite (o : Op) (slot off : Nat) (bs : List Byte) : EngM Unit := do
  engCapCheck o slot (rST ||| rDMA) off bs.length 1
  let s ← get
  let a := slotAddr o slot off
  if localFabric s false a then engWrite o .ge slot kWrite (localPart a) bs (fun i => off + i)
  else if fabricDenied s false a then engDenied o .ge slot kWrite a off
  else engEnd 0x0B 3 0
/-- Index `i` of a list; the list is read by blocks, so only its first index in a block counts a read. -/
def geIndex (o : Op) (slot i : Nat) : EngM Nat := do
  let w := geWidth o
  let bs ← geRead o slot (i * w) w
  if i != 0 && slotAddr o slot (i * w) / 64 == slotAddr o slot ((i - 1) * w) / 64 then
    modify (fun s => regSet s (Reg.geReads (geCove o)) (regGet s (Reg.geReads (geCove o)) - 1))
  pure (ofBytes bs)
/-- An invalid index: it ends the operation, or is counted. -/
def geInvalid (o : Op) (detail : Nat) : EngM Unit := engNeed (geHandles o) 0x28 0 detail
/-- The invalid count as completions report it. -/
def badCount (n : Nat) : Nat := min n (2 ^ 32 - 1)
/-- The slots of an operation that must be local (R278). -/
def geLocals (o : Op) (slots : List Nat) : EngM Unit := do
  for n in slots do
    let s ← get
    let a := slotAddr o n 0
    if !localFabric s false a && !fabricDenied s false a then engEnd 0x0B 3 0

/- Row gathers and scatters (R290, R291) -/

/-- GATHER_ROWS (R290). -/
def gatherBody (o : Op) : EngM Compl := do
  geLocals o [0, 2]
  let rb := geRowBytes o
  let rows := slotRoom o 1 / rb
  let mut bad := 0
  for i in List.range (geCount o) do
    let x ← geIndex o 0 i
    if x < rows then
      let bs ← geReadBy (geCove o) o 1 (x * rb) rb true
      geWrite o 2 (i * rb) bs
    else
      geInvalid o i
      bad := bad + 1
      geWrite o 2 (i * rb) (List.replicate rb 0)
  pure (compl 0 (if bad = 0 then 0 else 1) (BitVec.ofNat 32 (geCount o - bad)) (badCount bad))

/-- GATHER_ROWS. -/
def execGatherRows (op : Nat) (s : State) : Host.Outcome State Fault Refusal :=
  .next (runOp s op 0x30 geFields gatherBody)

/-- SCATTER_ROWS (R291): the whole list is read and checked before a row is written. -/
def scatterBody (o : Op) : EngM Compl := do
  geLocals o [0, 1, 2]
  let rb := geRowBytes o
  let rows := slotRoom o 2 / rb
  let mut valid : List (Nat × Nat) := []
  for i in List.range (geCount o) do
    let x ← geIndex o 0 i
    if x < rows then valid := valid ++ [(i, x)] else geInvalid o i
  let bad := geCount o - valid.length
  for p in valid do
    let bs ← geRead o 1 (p.1 * rb) rb
    geWrite o 2 (p.2 * rb) bs
  pure (compl 0 (if bad = 0 then 0 else 1) (BitVec.ofNat 32 valid.length) (badCount bad))

/-- SCATTER_ROWS. -/
def execScatterRows (op : Nat) (s : State) : Host.Outcome State Fault Refusal :=
  .next (runOp s op 0x31 geFields scatterBody)

/- Walks (R280 to R289) -/

/-- The coves that take part in a walk beginning now (R286). -/
def walkCoves (s : State) (o : Op) : List Nat :=
  if param o 188 1 = 1 then [geCove o]
  else (List.range 32).filter (fun c => c == geCove o || (coveOwnerOf s c == o.tenant && !engineOffline s (0x20 + c)))
/-- The walk as it begins (R293). -/
def walkStart (s : State) (o : Op) : WalkRun :=
  { walkNone with op := o.id, seed := regGet s (Reg.geSeed o.tenant.toNat), hub := regFld s Reg.geHub 0 21,
                  coves := walkCoves s o }
/-- The graph check of a vertex (R281): the first column of its neighbours, its degree, and its hub number when it is a
hub. -/
def walkGraph (o : Op) (v : Nat) : EngM (Nat × Nat × Option Nat) := do
  let bs ← geRead o 0 (8 * v) 16
  let a := numAt bs 0 8
  let b := numAt bs 8 8
  engNeed (decide (a ≤ b)) 0x29 1 v
  engNeed (decide (b ≤ walkL o)) 0x29 2 v
  engNeed (decide (b - a < 2 ^ 32)) 0x29 3 v
  let s ← get
  let w := walkOf s (geCove o)
  if w.hub < b - a then
    walkModify o (fun w => { w with hubs := w.hubs + 1 })
    pure (a, b - a, some w.hubs)
  else pure (a, b - a, none)

/-- The cove that fetches position `p` of a vertex (R286). -/
def walkPlace (w : WalkRun) (home : Nat) (hub : Option Nat) (p : Nat) : Nat :=
  match hub with
  | none => home
  | some h => w.coves.getD ((h + p / 1024) % w.coves.length) home
/-- The selected neighbours of a vertex that passes its graph check: COLIDX position of each, and the cove that fetches it, in
order (R282, R283). -/
def walkNeighbours (o : Op) (v hop : Nat) : EngM (List (Nat × Nat)) := do
  let (first, d, hub) ← walkGraph o v
  let s ← get
  let w := walkOf s (geCove o)
  let k := if hop = 0 then param o 192 11 else param o 203 11
  pure ((walkSample w.seed (param o 224 32) v hop k d).map (fun p => (first + p, walkPlace w (geCove o) hub p)))
/-- Take up the entry at a position of COLIDX; a cove whose GE has gone offline cannot fetch it, and the walk ends (R298). -/
def walkEntry (o : Op) (e : Nat × Nat) : EngM Nat := do
  let s ← get
  engNeed (e.2 == geCove o || !engineOffline s (0x20 + e.2)) 8 2 0
  let bs ← geReadBy e.2 o 1 (e.1 * geWidth o) (geWidth o) false
  pure (ofBytes bs)

/-- Write an entry of an output slot; beyond its bounds the walk ends with GATHER_OUTPUT_FULL (R296). -/
def walkOut (o : Op) (slot i size : Nat) (bs : List Byte) : EngM Unit := do
  engCapCheck o slot (rST ||| rDMA) 0 0 1
  engNeed (decide ((i + 1) * size ≤ slotRoom o slot)) 0x2A slot i
  geWrite o slot (i * size) bs
/-- off[i] := x. -/
def walkOff (o : Op) (i x : Nat) : EngM Unit := do
  engNeed (decide (x < 2 ^ 32)) 0x2A 3 i
  walkOut o 3 i 4 (toBytes 4 x)

/-- The second hop, then the features, then the end (R284). -/
def walkFinish (o : Op) : EngM Compl := do
  let st ← get
  let w0 := walkOf st (geCove o)
  let n1 := w0.kept.length
  let seeds := geCount o
  walkOff o seeds n1
  let mut nbr := w0.kept
  let mut bad := w0.bad
  if walkTwo o then
    for i in List.range n1 do
      walkOff o (seeds + 1 + i) (nbr.length - n1)
      let ns ← walkNeighbours o (w0.kept.getD i 0) 1
      for e in ns do
        let x ← walkEntry o e
        if x < walkN o then
          walkOut o 4 nbr.length 8 (toBytes 8 x)
          nbr := nbr ++ [x]
        else
          geInvalid o (2 * 2 ^ 62 + e.1)
          bad := bad + 1
    walkOff o (seeds + 1 + n1) (nbr.length - n1)
  if walkFeatures o then
    let rb := geRowBytes o
    for j in List.range nbr.length do
      let bs ← geReadBy (geCove o) o 5 (nbr.getD j 0 * rb) rb true
      walkOut o 6 j rb bs
  let st' ← get
  let w1 := walkOf st' (geCove o)
  modify (fun s => setWalk s (geCove o) walkNone)
  pure (compl 0 ((if bad = 0 then 0 else 1) + (if w1.hubs = 0 then 0 else 2)) (BitVec.ofNat 32 n1)
    ((nbr.length - n1) + badCount bad * 2 ^ 32))

/-- Take up the next entry: the walk stands at its index check. -/
def walkStand (o : Op) (e : Nat × Nat) (rest : List (Nat × Nat)) : EngM Compl := do
  let u ← walkEntry o e
  walkModify o (fun w => { w with ready := true, front := some (e.1, u), entries := rest })
  throw .goOn

/-- The seeds from the one at which `n` are left, one after another until one has an entry to check; then the rest of the
walk. Where a second hop or features follow, only the seeds that kept no neighbour have their outputs complete (R298). -/
def walkSeeds (o : Op) : Nat → EngM Compl
  | 0 => walkFinish o
  | n + 1 => do
    let i := geCount o - (n + 1)
    let s ← get
    let w := walkOf s (geCove o)
    let bare := if i != 0 && w.seedFrom == w.kept.length then w.bare + 1 else w.bare
    walkOff o i w.kept.length
    engProgress o (if walkTwo o || walkFeatures o then bare else i)
    walkModify o (fun w => { w with left := n, seedFrom := w.kept.length, bare := bare })
    let v ← geIndex o 2 i
    if v < walkN o then
      let es ← walkNeighbours o v 0
      match es with
      | [] => walkSeeds o n
      | e :: rest => walkStand o e rest
    else
      geInvalid o i
      walkModify o (fun w => { w with bad := w.bad + 1 })
      walkSeeds o n

/-- WALK begins (R284): the seeds are taken up till the first selected entry stands for its index check. -/
def walkBody (o : Op) : EngM Compl := do
  let s ← get
  if (walkOf s (geCove o)).ready then throw .goOn
  else
    geLocals o ([0, 1, 2, 3, 4] ++ (if walkFeatures o then [6] else []))
    walkSeeds o (geCount o)

/-- Walks whose operation no longer runs are gone, with their run-ahead (R289). -/
def dropWalks (s : State) : State :=
  { s with walks := s.walks.filter (fun e => s.ops.any (fun o => o.id == e.2.op && o.phase == .running)) }

/-- The operation is a walk that has begun and holds its GE. -/
def walkHeld (s : State) (id : Nat) : Bool :=
  match findOp s id with
  | some o => o.opcode == 0x32 && decide (0x20 ≤ o.queue.toNat) && decide (o.queue.toNat < 0x40) &&
      s.walks.any (fun e => e.1 == geCove o && e.2.op == id)
  | none => false

/-- The walk of an operation about to begin, on its gather engine. -/
def beginWalk (s : State) (op : Nat) : State :=
  match findOp s op with
  | some o =>
    if o.opcode == 0x32 && o.phase == .waiting && o.queue.toNat / 0x20 == 1 && mayBegin s o then
      setWalk s (geCove o) (walkStart s o)
    else s
  | none => s
/-- WALK. What is in force when the walk begins is kept for it (R293). -/
def execWalk (op : Nat) (s : State) : Host.Outcome State Fault Refusal :=
  .next (noteOps (dropWalks (runOp (beginWalk (dropWalks s) op) op 0x32 geFields walkBody)))

/- Run-ahead (R288; 03 R84 to R88) -/

/-- Entries of a GE's speculation buffer (03 R88). -/
def specLimit : Nat := 256
/-- The parts, one a block, of `n` bytes at byte `off` of a slot. -/
def specParts (o : Op) (slot off n : Nat) : List (Nat × Nat × Nat) :=
  let a := slotAddr o slot off
  (blocksOf a n).map (fun b => (slot, off + (b - a), min (a + n) (alignDown b 64 + 64) - b))
/-- What the buffer holds of `n` bytes at byte `off` of a slot, when it holds all. -/
def specBytes (o : Op) (l : List SpecRead) (slot off n : Nat) : Option (List Byte) :=
  (specParts o slot off n).foldl (fun acc p =>
    match acc, specHas l p.1 p.2.1 p.2.2 with
    | some bs, some r => some (bs ++ r.bytes)
    | _, _ => none) (some [])

/-- The second-hop positions of COLIDX selected for the vertex at the front, once its row offsets have been read. -/
def specPositions (o : Op) (w : WalkRun) (u : Nat) : List Nat :=
  match specBytes o w.spec 0 (8 * u) 16 with
  | none => []
  | some bs =>
    let a := numAt bs 0 8
    let b := numAt bs 8 8
    if a ≤ b && b ≤ walkL o && b - a < 2 ^ 32 then
      (walkSample w.seed (param o 224 32) u 1 (param o 203 11) (b - a)).map (fun p => a + p)
    else []
/-- The reads rooted at the vertex at the front that are known by now (R288): its row offsets, the entries at its selected
second-hop positions, its feature row and theirs. -/
def specWanted (o : Op) (w : WalkRun) (u : Nat) : List (Nat × Nat × Nat) :=
  let ps := if walkTwo o then specPositions o w u else []
  let xs := ps.filterMap (fun p => (specBytes o w.spec 1 (p * geWidth o) (geWidth o)).map ofBytes)
  (if walkTwo o then specParts o 0 (8 * u) 16 else []) ++
  ps.flatMap (fun p => specParts o 1 (p * geWidth o) (geWidth o)) ++
  (if walkFeatures o then
    (u :: xs.filter (fun x => decide (x < walkN o))).flatMap (fun x => specParts o 5 (x * geRowBytes o) (geRowBytes o)) else [])

/-- A read of a walk passes its checks now: capability, reach and rules; its memory answers and holds no poison. -/
def geReadable (s : State) (o : Op) (p : Nat × Nat × Nat) : Bool :=
  let f := slotAddr o p.1 p.2.1
  let a := localPart f
  let k := kEngine ||| kRead
  (capCheck (opSlot o p.1).cap 0 (rLD ||| rDMA) true f p.2.2 1).isNone && localFabric s false f &&
    mayReach s .ge o.tenant.toNat k a (capHas (opSlot o p.1).cap rSYS) false &&
    (acuVerdict s.acu o.bank o.tenant.toNat k (alignDown a 64)).ok && accessReady s a && (firstPoison s a p.2.2).isNone
/-- A speculative read may be issued: its checks pass (R85), and it is of local memory, neither under class UC or order class DV
nor of host bus space or set-up space (03 R87), that can be accessed now. -/
def specMayRead (s : State) (o : Op) (p : Nat × Nat × Nat) : Bool :=
  let v := acuVerdict s.acu o.bank o.tenant.toNat (kEngine ||| kRead) (alignDown (localPart (slotAddr o p.1 p.2.1)) 64)
  geReadable s o p && v.cache != 0 && v.order != 2
/-- Vertex `u`'s graph check passes (R281) on its row offsets as the buffer holds them, else as a read finds them now. -/
def graphHolds (s : State) (o : Op) (w : WalkRun) (u : Nat) : Bool :=
  let read := if (specParts o 0 (8 * u) 16).all (geReadable s o) then some (memBytes s (localPart (slotAddr o 0 (8 * u))) 16) else none
  match (specBytes o w.spec 0 (8 * u) 16).orElse (fun _ => read) with
  | none => false
  | some bs =>
    let a := numAt bs 0 8
    let b := numAt bs 8 8
    decide (a ≤ b) && decide (b ≤ walkL o) && decide (b - a < 2 ^ 32)

/-- The rule check of a speculative read consults rules, and one of bad parity is found there (04 R117). -/
def specConsults (s : State) (o : Op) (p : Nat × Nat × Nat) : State :=
  let a := alignDown (localPart (slotAddr o p.1 p.2.1)) 64
  (acuConsulted s.acu o.bank o.tenant.toNat a).foldl (fun st i => acuFoundBad st o.bank i) s

/-- The vertex at the front stays: its run-ahead reads are promoted together, and only now counted (R86, R289). -/
def walkPromote (o : Op) : EngM Unit := do
  let s ← get
  let w := walkOf s (geCove o)
  modify (fun s => geCounted (setWalk s (geCove o) { w with promoted := w.promoted ++ w.spec, spec := [] }) (geCove o) w.spec.length)

/-- One index check retires (R289): the entry stays, is dropped, or ends the walk. What run-ahead read for it is promoted when it
stays and, in a two-hop walk, its graph check passes, and is discarded otherwise; a failing graph check ends the walk where R284
meets it (DEDUCED, log entry 41). -/
def retireBody (o : Op) : EngM Compl := do
  let s ← get
  let w := walkOf s (geCove o)
  match w.front with
  | none => throw .goOn
  | some (p, u) =>
    if u < walkN o then
      walkOut o 4 w.kept.length 8 (toBytes 8 u)
      let s ← get
      if walkTwo o && localFabric s false (slotAddr o 0 (8 * u)) then engReady (localPart (slotAddr o 0 (8 * u)))
      if !walkTwo o || graphHolds s o w u then walkPromote o
      walkModify o (fun w => { w with kept := w.kept ++ [u], front := none, spec := [] })
    else
      geInvalid o (2 ^ 62 + p)
      walkModify o (fun w => { w with bad := w.bad + 1, front := none, spec := [] })
    match w.entries with
    | [] => walkSeeds o w.left
    | e :: rest => walkStand o e rest

/-- INDEX_CHECK_RETIRE (R289). -/
def execIndexCheckRetire (cove : BitVec 5) (s : State) : Host.Outcome State Fault Refusal :=
  let w := walkOf s cove.toNat
  if w.ready && walkHeld s w.op then
    .next (noteOps (dropWalks (runOp s w.op 0x32 geFields retireBody)))
  else .next s

/-- The rule checks of a read consult rules: its capability reaches it, and it lies in a range of the gather engine's. -/
def specReaches (s : State) (o : Op) (p : Nat × Nat × Nat) : Bool :=
  let f := slotAddr o p.1 p.2.1
  (capCheck (opSlot o p.1).cap 0 (rLD ||| rDMA) true f p.2.2 1).isNone && localFabric s false f &&
    mayReach s .ge o.tenant.toNat (kEngine ||| kRead) (localPart f) (capHas (opSlot o p.1).cap rSYS) false
/-- The next run-ahead read of a walk is issued and its data arrives: one a tick, the first wanted one whose checks pass. Nothing
of it is counted, no deny is recorded, and a full buffer stalls it; a rule of bad parity that its checks meet is found (04 R117). -/
def specTick (s : State) (c : Nat) : State :=
  let w := walkOf s c
  match findOp s w.op, w.front with
  | some o, some (_, u) =>
    if walkHeld s w.op && o.phase == .running && !fenced s && geCove o == c && param o 187 1 == 0 && decide (u < walkN o) && decide (w.spec.length < specLimit) then
      ((specWanted o w u).foldl (fun (r : Bool × State) p =>
        if r.1 || (specHas w.spec p.1 p.2.1 p.2.2).isSome then r
        else
          let s1 := if specReaches r.2 o p then specConsults r.2 o p else r.2
          if specMayRead s1 o p then
            (true, setWalk s1 c { w with spec := w.spec ++ [⟨p.1, p.2.1, memBytes s1 (localPart (slotAddr o p.1 p.2.1)) p.2.2⟩] })
          else (false, s1)) (false, s)).2
    else s
  | _, _ => s
/-- Run-ahead of every gather engine in one tick. -/
def runAheadTick (s : State) : State := (s.walks.map (fun e => e.1)).foldl specTick s

/- Control (R293, R298) -/

/-- End the walks for which a cove's GE is fetching fragments. -/
def abortFragments (s : State) (c : Nat) : State :=
  (s.walks.filter (fun e => walkFetches e.2 c)).foldl (fun st e => endOp st e.2.op (compl 8 2 0 0)) s
/-- GE_CTRLq.OFFLINE is set. -/
def geOfflineSet (s : State) (c : Nat) : State :=
  dropWalks (abortFragments (abortRunning (regOr s (Reg.geCtrl c) 1) (0x20 + c) 2) c)
/-- GE_CTRLq.RESET: the reset is done at ENGINE_RESET_DONE. -/
def geResetSet (s : State) (c : Nat) : State :=
  let s1 := dropWalks (abortFragments (abortRunning s (0x20 + c) 2) c)
  { s1 with resetting := sset markDflt s1.resetting (0x20 + c) true }

/-- GE_OFFLINE. -/
def execGeOffline (agent : Agent) (cove : BitVec 5) (s : State) : Host.Outcome State Fault Refusal :=
  .next (if platformAgent s agent then geOfflineSet s cove.toNat else s)
/-- GE_RESET. -/
def execGeReset (agent : Agent) (cove : BitVec 5) (s : State) : Host.Outcome State Fault Refusal :=
  .next (if platformAgent s agent then geResetSet s cove.toNat else s)

end Sys2Proof.Machine
end

