-- ==== Sys2Proof/Machine/Embed.lean ====
section
/-! DEFINITION. Embedding tables (spec 11): records, lookups, training updates, skew and migration. -/

namespace Sys2Proof.Machine

/- Tables -/

/-- Table slot `t`. -/
def tblOf (s : State) (t : Nat) : Tbl := sget (fun _ => tblFree) s.tables t
/-- Replace table slot `t`. -/
def setTbl (s : State) (t : Nat) (x : Tbl) : State := { s with tables := sset (fun _ => tblFree) s.tables t x }
/-- A record of a slot. -/
def tblRec (x : Tbl) (r : Bool) : Option TblRec := if r then x.rec1 else x.rec0
/-- Replace a record. -/
def tblSetRec (x : Tbl) (r : Bool) (v : Option TblRec) : Tbl := if r then { x with rec1 := v } else { x with rec0 := v }
/-- The active record. -/
def tblActive (x : Tbl) : Option TblRec := tblRec x x.active
/-- GEN of the active record, 0 without one. -/
def tblGen (x : Tbl) : Nat := match tblActive x with | some r => r.gen | none => 0

/-- Retire every directory entry of a record. -/
def retireEntries (s : State) (t : Nat) (r : Bool) : State :=
  { s with dir := s.dir.filter (fun e => !(e.2.table == t && e.2.recNo == r)) }
/-- A lookup in progress is bound to the record. -/
def recBound (s : State) (t : Nat) (r : Bool) : Bool := s.bound.any (fun b => b.table == t && b.recNo == r)

/-- The switch of a table's base (R316): the former record drains while lookups are bound to it. -/
def tblSwitch (s : State) (t : Nat) (r : Bool) : State :=
  let x := tblOf s t
  if x.active = r then s
  else if recBound s t x.active then setTbl s t { x with active := r, draining := true }
  else retireEntries (setTbl s t { x with active := r }) t x.active

/-- Operation `id` runs. -/
def opInFlight (s : State) (id : Nat) : Bool := s.ops.any (fun o => o.id == id && o.phase == .running)
/-- A TABLE_SWITCH of a table is held: one that runs and has not completed. -/
def switchHeld (s : State) (t : Nat) : Bool :=
  s.ops.any (fun o => o.opcode == 0x61 && o.phase == .running && param o 160 8 == t)
/-- SWITCH_PENDING falls with the last switch that is held. -/
def syncPending (s : State) : State :=
  (s.tables.map (fun e => e.1)).foldl (fun st t =>
    let x := tblOf st t
    if x.switchPending && !switchHeld st t then setTbl st t { x with switchPending := false } else st) s
/-- Lookups whose operation no longer runs are bound to nothing, and updates and held switches whose operation no longer runs are
over. -/
def dropBound (s : State) : State :=
  syncPending { s with bound := s.bound.filter (fun b => opInFlight s b.op), updates := s.updates.filter (fun u => opInFlight s u.op) }

/- Descriptors (R320, R321) -/

/-- TABLE. -/
def embTable (o : Op) : Nat := param o 160 8
/-- REC. -/
def embRec (o : Op) : Bool := param o 168 1 == 1
/-- COUNT. -/
def embCount (o : Op) : Nat := param o 184 24
/-- Width of an index. -/
def embWidth (o : Op) : Nat := if param o 208 1 = 1 then 8 else 4
/-- GEN. -/
def embGen (o : Op) : Nat := param o 232 24
/-- RULE. -/
def embRule (o : Op) : Nat := param o 209 2
/-- Bytes of an element or a gradient element: fp32, bf16, fp16, int8. -/
def embBytes : Nat → Nat
  | 0 => 4 | 1 => 2 | 2 => 2 | _ => 1
/-- The float format of a code. -/
def embFmt : Nat → FloatFmt
  | 0 => fp32 | 1 => bf16 | _ => fp16
/-- D of a record. -/
def recDim (r : TblRec) : Nat := r.rowBytes / embBytes r.elem
/-- The record that an UPDATE names by GEN: the active one first. -/
def recByGen (x : Tbl) (gen : Nat) : Option (Bool × TblRec) :=
  match tblActive x with
  | some r => if r.gen = gen then some (x.active, r) else
      (match tblRec x (!x.active) with
       | some r' => if r'.gen = gen then some (!x.active, r') else none
       | none => none)
  | none =>
    match tblRec x (!x.active) with
    | some r' => if r'.gen = gen then some (!x.active, r') else none
    | none => none
/-- Shards of a TABLE_DEFINE. -/
def defShards (o : Op) : Nat := param o 171 5 + 1

/-- A slot that does not cover `n` bytes, at its offset. -/
def shortSlot (o : Op) (slot n : Nat) : List Nat := uncovered o [(slot, n)]

/-- Step 5 of R194 for the embedding opcodes (R320, R321). DESIGN CHOICE (log entry 39): PARAMS bits that an opcode's table
neither names nor shows as — are reserved like the others, TABLE_SWITCH [231:169], LOOKUP [255:209] and TABLE_RETIRE
[255:170]. -/
def embFields (s : State) (o : Op) : Option Nat :=
  let ext := hdrExt o.desc
  let x := tblOf s (embTable o)
  let mine := x.owned && x.tenant == o.tenant
  match o.opcode.toNat with
  | 0x60 =>
    let n := defShards o
    let migrate := param o 170 1 == 1
    let writable := param o 169 1 == 1
    let e := cdiv (n + 2) 3 - 1
    lowest (faultAt (ext != e) 3 ++
      wrongKinds o ([if slotKind o.desc 0 = 0 then 0 else 1, if migrate then 1 else 0] ++ List.replicate n 1 ++
        List.replicate (3 * (e + 1) - (n + 2)) 0) ++
      faultAt (writable && (migrate || param o 224 2 == 3)) 21 ++ faultAt (param o 176 40 == 0) 22 ++
      faultAt (param o 226 6 != 0) 28 ++ faultAt (embGen o == 0) 29 ++
      faultAt (migrate && !localFabric s false (slotCur o 1) && !fabricDenied s false (slotCur o 1)) (slotOff 1))
  | 0x61 => lowest (faultAt (ext != 0) 3 ++ wrongKinds o [0, 0, 0] ++ faultAt (param o 169 63 != 0) 21)
  | 0x62 =>
    let k2 := slotKind o.desc 2
    lowest (faultAt (ext != 0) 3 ++ wrongKinds o [1, 1, if k2 = 0 then 0 else 1] ++ faultAt (param o 168 16 != 0) 21 ++
      faultAt (embCount o == 0) 23 ++ faultAt (param o 209 47 != 0) 26 ++
      (match (if mine then tblActive x else none) with
       | some r => shortSlot o 1 (embCount o * r.rowBytes)
       | none => []) ++
      (if k2 = 1 then shortSlot o 2 (4 * embCount o) else []))
  | 0x63 =>
    let g := param o 212 2
    lowest (faultAt (ext != 1) 3 ++ wrongKinds o [1, 1, if embRule o = 2 then 1 else 0, 2, 0, 0] ++
      faultAt (param o 168 16 != 0) 21 ++ faultAt (embCount o == 0) 23 ++
      faultAt (embRule o == 3 || g == 3 || (param o 211 1 == 0 && g != 2) || param o 214 18 != 0) 26 ++
      (match (if mine then recByGen x (embGen o) else none) with
       | some (_, r) => shortSlot o 1 (embCount o * recDim r * embBytes g)
       | none => []))
  | _ => lowest (faultAt (ext != 0) 3 ++ wrongKinds o [0, 0, 0] ++ faultAt (param o 170 86 != 0) 21)

/-- The table of an operation: its tenant's, or the operation ends (R320, R323). `free`: a free slot will do. -/
def embTableFor (o : Op) (free : Bool) : EngM Tbl := do
  let s ← get
  let x := tblOf s (embTable o)
  engNeed (x.owned || free) 0x2C 0 0
  engNeed (!x.owned || x.tenant == o.tenant) 0x0B 2 0
  pure x

/- Operand access: DETAIL is the list position (R323) -/

/-- The checks of R63 on [cursor + off, + n) of a slot. -/
def embCap (o : Op) (slot : Nat) (mask : BitVec 12) (off n detail : Nat) : EngM Unit := do
  let c := (opSlot o slot).cap
  let s ← get
  match capCheck c 0 (farMask s mask (slotAddr o slot off)) true ((capCursor c).toNat + off) n 1 with
  | some cause => engEnd 4 cause detail
  | none => pure ()

/-- Read bytes of a slot under the read kind, local or remote. -/
def embRead (o : Op) (slot off n detail : Nat) : EngM (List Byte) := do
  embCap o slot (rLD ||| rDMA) off n detail
  let a := slotAddr o slot off
  let mut out : List Byte := []
  for b in blocksOf a n do
    let bs ← engFetch o .embedding slot b (min (a + n) (alignDown b 64 + 64) - b) (fun _ => detail)
    out := out ++ bs
  pure out

/-- Write bytes of a slot under a kind, local or remote. -/
def embWrite (o : Op) (slot : Nat) (kinds : BitVec 5) (off : Nat) (bs : List Byte) (detail : Nat) : EngM Unit := do
  let a := slotAddr o slot off
  for b in blocksOf a bs.length do
    let m := min (a + bs.length) (alignDown b 64 + 64) - b
    engStore o .embedding slot kinds b ((bs.drop (b - a)).take m) (fun _ => detail)

/-- Write bytes of an output slot. -/
def embOut (o : Op) (slot off : Nat) (bs : List Byte) (detail : Nat) : EngM Unit := do
  embCap o slot (rST ||| rDMA) off bs.length detail
  embWrite o slot kWrite off bs detail

/-- The read half of an update (R315): under the engine and atomic kinds where local. -/
def embRmwRead (o : Op) (slot off n detail : Nat) : EngM (List Byte) := do
  embCap o slot (rLD ||| rST ||| rATOM ||| rDMA) off n detail
  let a := slotAddr o slot off
  let mut out : List Byte := []
  for b in blocksOf a n do
    let m := min (a + n) (alignDown b 64 + 64) - b
    let s ← get
    if localFabric s false b then
      let la := localPart b
      engRule o .embedding slot (kEngine ||| kAtomic) true la detail
      engReady la
      let s ← get
      engNeed (!poisonIn s la m) 6 0 detail
      out := out ++ memBytes s la m
    else
      if fabricDenied s false b && capHas (opSlot o slot).cap rGLOB then engDenied o .embedding slot kAtomic b detail
      let bs ← engFetch o .embedding slot b m (fun _ => detail)
      out := out ++ bs
  pure out

/-- An operation seen with the capabilities of a record in its slots: presence, replica, shards. -/
def onRecord (o : Op) (r : TblRec) : Op := { o with slots := r.slots }
/-- Slot and offset of a row's home (R302). -/
def rowHome (r : TblRec) (x : Nat) : Nat × Nat := (2 + x % r.shards, x / r.shards * r.rowBytes)

/-- Index `i` of a list as a number, none when negative. -/
def embIndex (o : Op) (i : Nat) : EngM (Option Nat) := do
  let w := embWidth o
  let bs ← embRead o 0 (i * w) w i
  let v := ofBytes bs
  pure (if w = 8 && decide (2 ^ 63 ≤ v) then none else some v)

/-- What an index comes to (R303): a row, or invalid, or absent. -/
inductive IndexIs where
  | row (x : Nat)
  | invalid
  | absent
  deriving DecidableEq, Repr

/-- Sort index `i` of the list. -/
def embSort (o : Op) (r : TblRec) (i : Nat) : EngM IndexIs := do
  match (← embIndex o i) with
  | none => pure .invalid
  | some x =>
    if r.rows ≤ x then pure .invalid
    else if (opSlot (onRecord o r) 0).kind != 1 then pure (.row x)
    else
      let bs ← embRead (onRecord o r) 0 (x / 8) 1 i
      pure (if natBit (ofBytes bs) (x % 8) then .row x else .absent)

/- Records (R321, R322) -/

/-- The record that a TABLE_DEFINE describes. -/
def defRecord (o : Op) : TblRec :=
  { gen := embGen o, rows := param o 176 40, rowBytes := 16 * (param o 216 8 + 1), elem := param o 224 2,
    writable := param o 169 1 == 1, migrate := param o 170 1 == 1, shards := defShards o,
    slots := o.slots.take (defShards o + 2) }

/-- A capability of a definition covers `n` bytes from its cursor; a failure gives the slot number (R321). -/
def defCap (o : Op) (slot : Nat) (mask : BitVec 12) (n : Nat) : EngM Unit := embCap o slot mask 0 n slot

/-- TABLE_DEFINE (R301, R321, R322). -/
def tableDefineBody (o : Op) : EngM Compl := do
  let x ← embTableFor o true
  engNeed (!(x.draining && x.active != embRec o)) 0x2E 0 0
  let r := defRecord o
  for i in List.range r.shards do
    defCap o (2 + i) (if r.writable then rLD ||| rDMA ||| rST ||| rATOM else rLD ||| rDMA) (cdiv r.rows r.shards * r.rowBytes)
  if slotKind o.desc 0 = 1 then defCap o 0 (rLD ||| rDMA) (cdiv r.rows 8)
  if r.migrate then defCap o 1 (rLD ||| rST ||| rDMA) r.rowBytes
  modify (fun s => setTbl (retireEntries s (embTable o) (embRec o)) (embTable o)
    (tblSetRec { x with owned := true, tenant := o.tenant } (embRec o) (some r)))
  pure (complOk 0)

/-- TABLE_DEFINE. -/
def execTableDefine (op : Nat) (s : State) : Host.Outcome State Fault Refusal :=
  .next (runOp s op 0x60 embFields tableDefineBody)

/-- A change set that has passed its step 2 switches the table: its entry and a TABLE_SWITCH apply one after the other (R324). -/
def csSwitches (s : State) (t : Nat) : Bool :=
  match s.changeSet with
  | some c => c.prepared && c.entries.any (fun e => e.kind == 3 && e.index == t)
  | none => false
/-- TABLE_SWITCH (R316, R317, R322): held, with SWITCH_PENDING set, while the former record drains, and while a change set is
about to switch the table. To the record that is active it has no effect. -/
def tableSwitchBody (o : Op) : EngM Compl := do
  let x ← embTableFor o false
  match tblRec x (embRec o) with
  | none => engEnd 0x2C 0 0
  | some r =>
    engNeed (r.gen == embGen o) 0x2D 0 (tblGen x)
    let s ← get
    if (x.draining || csSwitches s (embTable o)) && x.active != embRec o then
      modify (fun s => setTbl s (embTable o) { x with switchPending := true })
      throw .goOn
    else
      modify (fun s => tblSwitch s (embTable o) (embRec o))
      pure (compl 0 0 (if embRec o then 1 else 0) 0)

/-- TABLE_SWITCH. -/
def execTableSwitch (op : Nat) (s : State) : Host.Outcome State Fault Refusal :=
  .next (syncPending (runOp s op 0x61 embFields tableSwitchBody))

/-- With ALL, tenant 0 retires the slots of a tenant that is stopped: step 3 of a revocation comes after the STOP, under which that
tenant's own operations are refused (20 R541 against R320 and 07 R212; DESIGN CHOICE, log entry 20). -/
def platformRetires (s : State) (o : Op) : Bool :=
  let x := tblOf s (embTable o)
  param o 169 1 == 1 && o.tenant == 0 && x.owned && tenantStopped s x.tenant.toNat
/-- TABLE_RETIRE (R322): a record, or with ALL the slot once no lookup is bound to the table. -/
def tableRetireBody (o : Op) : EngM Compl := do
  let t := embTable o
  let s ← get
  let x ← if platformRetires s o then pure (tblOf s t) else embTableFor o false
  if param o 169 1 = 1 then
    if recBound s t false || recBound s t true then engWait .time
    else
      modify (fun s => setTbl (retireEntries (retireEntries s t false) t true) t tblFree)
      pure (complOk 0)
  else
    engNeed (tblRec x (embRec o) != none) 0x2C 0 0
    engNeed (!(x.draining && x.active != embRec o)) 0x2E 0 0
    modify (fun s => setTbl (retireEntries s t (embRec o)) t (tblSetRec x (embRec o) none))
    pure (complOk 0)

/-- TABLE_RETIRE. -/
def execTableRetire (op : Nat) (s : State) : Host.Outcome State Fault Refusal :=
  .next (runOp s op 0x64 embFields tableRetireBody)

/-- RECORD_DRAIN_END (R316): the last lookup bound to the former record has ended. Its directory entries retire, and the
switches that were held apply and complete, one after the other, as far as none drains the table anew. -/
def execRecordDrainEnd (table : BitVec 8) (s : State) : Host.Outcome State Fault Refusal :=
  let t := table.toNat
  let s0 := dropBound s
  let x := tblOf s0 t
  if !x.draining || recBound s0 t (!x.active) then .next s0
  else
    let s1 := retireEntries (setTbl s0 t { x with draining := false }) t (!x.active)
    let held := s1.ops.filter (fun o => o.opcode == 0x61 && o.phase == .running && embTable o == t)
    .next (syncPending (held.foldl (fun st o => runOp st o.id 0x61 embFields tableSwitchBody) s1))

/- Lookups (R304 to R308, R316) -/

/-- Coves whose online GE serves a tenant's lookups (R305). -/
def lookupCoves (s : State) (t : Byte) : List Nat :=
  (List.range 32).filter (fun c => coveOwnerOf s c == t && !engineOffline s (0x20 + c))

/-- A VALID directory entry of a row of a record. The entries of a slot's record are those of the record that stands in it now: one
that TABLE_DEFINE has replaced under its lookups has none (R316, R321). -/
def dirFind (s : State) (t : Nat) (no : Bool) (r : TblRec) (row : Nat) : Option (Nat × DirEntry) :=
  if tblRec (tblOf s t) no = some r then
    s.dir.find? (fun e => e.2.valid && e.2.table == t && e.2.recNo == no && e.2.row == row)
  else none

/-- Sixteen zeroed candidate pairs. -/
def pairsDflt (_ : Nat) : List (Nat × Nat) := List.replicate 16 (0, 0)
/-- Place of the pair with the lowest count, the lowest-numbered of equals. -/
def lowestPair (ps : List (Nat × Nat)) : Nat :=
  let m := ps.foldl (fun a p => min a p.2) (ps.headD (0, 0)).2
  ps.findIdx (fun p => p.2 == m)
/-- A home read of a row in its shard's candidate pairs (R308). -/
def pairsCount (ps : List (Nat × Nat)) (row : Nat) : List (Nat × Nat) :=
  match ps.findIdx? (fun p => p.1 == row && p.2 != 0) with
  | some i => ps.set i (row, (ps.getD i (0, 0)).2 + 1)
  | none =>
    let i := lowestPair ps
    ps.set i (row, (ps.getD i (0, 0)).2 + 1)
/-- Count a home read (R307, R308): measured when it reads the active record, with MIGRATE. -/
def skewCount (s : State) (t : Nat) (no : Bool) (r : TblRec) (row : Nat) : State :=
  if !r.migrate || (tblOf s t).active != no then s
  else
    let k := 32 * t + row % r.shards
    { s with skewNow := sset (fun _ => 0) s.skewNow k (sget (fun _ => 0) s.skewNow k + 1)
             skewPairs := sset pairsDflt s.skewPairs k (pairsCount (sget pairsDflt s.skewPairs k) row) }

/-- The GE that reads a row is one of the tenant's, the spec does not say which (log entry 20): a free value picks. -/
def countRowReads (o : Op) (bytes : Nat) : EngM Unit := do
  let s ← get
  let cs := lookupCoves s o.tenant
  let (v, s1) := freeNext s
  set s1
  modify (fun s => geCounted s (cs.getD (v.toNat % cs.length) 0) (cdiv bytes 64))

/-- The operation has begun to read a row of another device from home: that read completes from home (R324). -/
def homeBegun (o : Op) (r : TblRec) (row : Nat) : Bool :=
  let (slot, off) := rowHome r row
  let a := slotAddr (onRecord o r) slot off
  o.asked.contains a || o.fetched.any (fun f => f.1 == a)
/-- Deliver a row: from its replica when its entry is VALID as the read begins, else from home (R307, R310, R324). -/
def lookupRow (o : Op) (b : Bound) (row i : Nat) : EngM (List Byte) := do
  let s ← get
  let r := b.record
  countRowReads o r.rowBytes
  match (if homeBegun o r row then none else dirFind s b.table b.recNo r row) with
  | some (k, e) =>
    let bs ← embRead (onRecord o r) 1 (e.slot * r.rowBytes) r.rowBytes i
    modify (fun s => regWrapAdd { s with dir := sset (fun _ => dirNone) s.dir k { e with reads := e.reads + 1 } }
      (Reg.tblReplicaReads b.table) 1)
    pure bs
  | none =>
    let (slot, off) := rowHome r row
    let bs ← embRead (onRecord o r) slot off r.rowBytes i
    modify (fun s => skewCount s b.table b.recNo r row)
    pure bs

/-- Add to the drop counters of a table and a tenant (R304). -/
def dropCounts (s : State) (t tenant bad absent : Nat) : State :=
  let s1 := regSatAdd (regSatAdd s (Reg.tblInvalid t) 64 bad) (Reg.tblAbsent t) 64 absent
  if tenant = 0 then s1 else regSatAddFn (regSatAddFn s1 tenant Reg.tenInvalid 64 bad) tenant Reg.tenAbsent 64 absent

/-- SUCCESS of a LOOKUP or an UPDATE (R323). -/
def dropsDone (result bad absent : Nat) (no : Bool) : Compl :=
  compl 0 (if bad + absent = 0 then 0 else 1) (BitVec.ofNat 32 result)
    (bad % 2 ^ 24 + absent % 2 ^ 24 * 2 ^ 24 + (if no then 2 ^ 48 else 0))

/-- The LOOKUP of operation `id`, as far as it has come. -/
def boundOf (s : State) (id : Nat) : Option Bound := s.bound.find? (fun b => b.op == id)
/-- Replace it, and note the positions complete for a TIMEOUT (R323). -/
def setBound (o : Op) (b : Bound) : EngM Unit := do
  modify (fun s => { s with bound := s.bound.map (fun x => if x.op = o.id then b else x) })
  engProgress o b.next
/-- List position `i` of a LOOKUP (R304): the index is sorted and its row read, and the row delivered; each of the two stands once
it is done. -/
def lookupAt (o : Op) (b : Bound) (i : Nat) : EngM Bound := do
  let b1 ← if b.row.isSome then pure b else engStep (do
    match (← embSort o b.record i) with
    | .invalid => pure { b with bad := b.bad + 1, next := i + 1 }
    | .absent => pure { b with absent := b.absent + 1, next := i + 1 }
    | .row x => do
      let bs ← lookupRow o b x i
      pure { b with row := some bs })
  setBound o b1
  match b1.row with
  | none => pure b1
  | some bs =>
    engStep (do
      embOut o 1 (b1.delivered * b1.record.rowBytes) bs i
      if slotKind o.desc 2 = 1 then embOut o 2 (4 * b1.delivered) (toBytes 4 i) i)
    let b2 : Bound := { b1 with row := none, delivered := b1.delivered + 1, next := i + 1 }
    setBound o b2
    pure b2
/-- The list positions of a LOOKUP that are left, in order. -/
def lookupFrom (o : Op) : List Nat → Bound → EngM Bound
  | [], b => pure b
  | i :: rest, b => do
    let b1 ← lookupAt o b i
    lookupFrom o rest b1

/-- LOOKUP (R304). -/
def lookupBody (o : Op) : EngM Compl := do
  let _ ← embTableFor o false
  let s ← get
  match boundOf s o.id with
  | none => engEnd 0x2C 0 0
  | some b =>
    engNeed (!(lookupCoves s o.tenant).isEmpty) 9 0 0
    let e ← lookupFrom o ((List.range (embCount o)).drop b.next) b
    modify (fun s => dropCounts s b.table o.tenant.toNat e.bad e.absent)
    pure (dropsDone e.delivered e.bad e.absent b.recNo)

/-- A LOOKUP that begins now is bound to the active record (R316). -/
def bindLookup (s : State) (op : Nat) : State :=
  match findOp s op with
  | none => s
  | some o =>
    let t := embTable o
    let x := tblOf s t
    if o.opcode == 0x62 && o.phase == .waiting && mayBegin s o && x.owned && x.tenant == o.tenant then
      match tblActive x with
      | some r => { s with bound := s.bound ++ [⟨op, t, x.active, r, 0, 0, 0, 0, none⟩] }
      | none => s
    else s

/-- LOOKUP. -/
def execLookup (op : Nat) (s : State) : Host.Outcome State Fault Refusal :=
  .next (dropBound (runOp (bindLookup (dropBound s) op) op 0x62 embFields lookupBody))

/- Training updates (R313 to R315) -/

/-- fp32 addition, subtraction, multiplication, division, square root on encodings, to nearest even. -/
def f32Add (a b : Nat) : Nat := (fAdd fp32 0 a b).1
/-- a - b. -/
def f32Sub (a b : Nat) : Nat :=
  let (v, fl) := fAddVal 0 (fDecode fp32 a) (fNegVal (fDecode fp32 b))
  (fEncode fp32 0 false v fl).1
/-- a × b. -/
def f32Mul (a b : Nat) : Nat := (fMul fp32 0 a b).1
/-- a / b. -/
def f32Div (a b : Nat) : Nat := (fDiv fp32 0 (fDecode fp32 a) (fDecode fp32 b)).1
/-- Square root. -/
def f32Sqrt (a : Nat) : Nat := (fSqrt fp32 0 (fDecode fp32 a)).1
/-- An exact widening of an encoded element to fp32. -/
def f32Widen (f : FloatFmt) (x : Nat) : Nat := (fEncode fp32 0 false (fDecode f x) 0).1
/-- Back to an element format, overflow to ±∞. -/
def f32Narrow (f : FloatFmt) (x : Nat) : Nat := (fEncode f 0 false (fDecode fp32 x) 0).1
/-- 2^-27. -/
def f32Tiny : Nat := 0x32000000

/-- Merge one element over the positions that name a row (R313). -/
def mergeElem (exact : Bool) (fmt : Nat) (xs : List Nat) : Nat :=
  if exact then
    let l := xs.foldl (fun l x => laneAddExact l (fDecode (embFmt fmt) x, 0)) laneZero
    (convertFloat fp32 false (exaVal (laneExa l).1)).1
  else
    match xs.map (f32Widen (embFmt fmt)) with
    | [] => 0
    | x :: rest => rest.foldl f32Add x

/-- One update of a row (R314): the new elements, and the new a of rule 2. -/
def applyRule (rule lr a : Nat) (elem : Nat) (ws gs : List Nat) : List Nat × Nat :=
  let f := embFmt elem
  let wide := ws.map (f32Widen f)
  match rule with
  | 0 => (List.zipWith (fun w g => f32Narrow f (f32Add w g)) wide gs, a)
  | 1 => (List.zipWith (fun w g => f32Narrow f (f32Sub w (f32Mul lr g))) wide gs, a)
  | _ =>
    let q := gs.foldl (fun q g => f32Add q (f32Mul g g)) 0
    let a' := f32Add a (f32Div q (fEncode fp32 0 false (valOfInt gs.length) 0).1)
    let den := f32Add (f32Sqrt a') f32Tiny
    (List.zipWith (fun w g => f32Narrow f (f32Sub w (f32Div (f32Mul lr g) den))) wide gs, a')

/-- The gradient row of a list position. -/
def gradRow (o : Op) (d i : Nat) : EngM (List Nat) := do
  let e := embBytes (param o 212 2)
  let bs ← embRead o 1 (i * d * e) (d * e) i
  pure (splitElems e d bs)

/- One read-modify-write at a time (R315): a row, and under rule 2 its a value, are held from their read to their write. The
controller that holds them keeps those that another device is modifying, until that device's write or, once REQ_TIMEOUT has
passed, until the next update takes them; a write that comes after that is not performed (log entry 19). -/

/-- A fabric address as every device names it. -/
def holdAddr (s : State) (f : Nat) : Nat := if localFabric s false f then deviceNo s * 2 ^ 54 + localPart f else f
/-- A hold still counts. -/
def holdLive (s : State) (h : RowHold) : Bool :=
  match h.holder with
  | .op id => opInFlight s id
  | .device _ => decide (elapsed s h.since < 1000 * regFld s Reg.fabCfg 0 16)
/-- A hold meets [a, a + n). -/
def holdMeets (h : RowHold) (a n : Nat) : Bool := decide (a < h.addr + h.len) && decide (h.addr < a + n)
/-- Someone else is modifying a part of [a, a + n). -/
def heldByOther (s : State) (me : Holder) (a n : Nat) : Bool :=
  s.rowHolds.any (fun h => h.holder != me && holdLive s h && holdMeets h a n)
/-- Hold [a, a + n) from now on: a hold that has lapsed is lost where it meets the range. -/
def takeHold (s : State) (me : Holder) (a n : Nat) : State :=
  { s with rowHolds := s.rowHolds.filter (fun h => !(h.holder == me && h.addr == a) && (holdLive s h || !holdMeets h a n)) ++
      [⟨me, a, n, s.tbc⟩] }
/-- `me` holds all of [a, a + n): nobody else has updated a part of it since its read. -/
def holdsAll (s : State) (me : Holder) (a n : Nat) : Bool :=
  s.rowHolds.any (fun h => h.holder == me && decide (h.addr ≤ a) && decide (a + n ≤ h.addr + h.len))
/-- Give up what `me` holds of [a, a + n). -/
def dropHold (s : State) (me : Holder) (a n : Nat) : State :=
  { s with rowHolds := s.rowHolds.filter (fun h => !(h.holder == me && holdMeets h a n)) }
/-- Hold a range of a slot for an update, or wait. -/
def engHold (o : Op) (slot off n : Nat) : EngM Unit := do
  let s ← get
  let a := holdAddr s (slotAddr o slot off)
  if heldByOther s (.op o.id) a n then throw (.held .time) else modify (fun s => takeHold s (.op o.id) a n)
/-- Give up a range of a slot. -/
def engFree (o : Op) (slot off n : Nat) : EngM Unit :=
  modify (fun s => dropHold s (.op o.id) (holdAddr s (slotAddr o slot off)) n)

/-- The gradients of a row, merged over the positions `ps` that name it, ascending. -/
def mergedRow (o : Op) (r : TblRec) (ps : List Nat) : EngM (List Nat) := do
  let d := recDim r
  let mut grads : List (List Nat) := []
  for i in ps do
    let g ← gradRow o d i
    grads := grads ++ [g]
  let gr := grads
  pure ((List.range d).map (fun e => mergeElem (param o 211 1 == 0) (param o 212 2) (gr.map (fun g => g.getD e 0))))

/-- The blocks of bytes to be written at byte `off` of a slot: fabric address and bytes of each. -/
def rmwParts (o : Op) (slot off : Nat) (bs : List Byte) : List (Nat × List Byte) :=
  let a := slotAddr o slot off
  (blocksOf a bs.length).map (fun b => (b, (bs.drop (b - a)).take (min (a + bs.length) (alignDown b 64 + 64) - b)))
/-- The write half of an update whose reads have passed their checks: what lies here is written at once, and the writes to other
devices leave together, so that no end of the operation comes between them (R315, R324). -/
def rmwPut (parts : List (Nat × List Byte)) : EngM Unit := do
  let s ← get
  let (near, far) := parts.partition (fun p => localFabric s false p.1)
  if 65536 < s.reqs.length + far.length then engWait .time
  modify (fun s => near.foldl (fun st p => storeLocal st (localPart p.1) p.2) s)
  if far.isEmpty then pure () else throw (.held (.stores far))
/-- Other devices have answered the writes that were sent to them. -/
def rmwAnswered (x : Op) (slot : Nat) (far : List Nat) (detail : Nat) : EngM Unit := do
  for b in far do
    match x.fetched.find? (fun f => f.1 == storeKey b) with
    | none => throw (.held .time)
    | some (_, status, _) => engStatus slot status (b / 2 ^ 54) detail

/-- Update one row: `ps` are the positions that name it, ascending. Once its writes have left, only their answers are awaited. -/
def updateRow (o : Op) (r : TblRec) (row : Nat) (ps : List Nat) : EngM Unit := do
  let first := ps.headD 0
  let rec' := onRecord o r
  let (slot, off) := rowHome r row
  let adaptive := decide (embRule o = 2)
  let s ← get
  let far (x : Op) (n i len : Nat) : List Nat := (blocksOf (slotAddr x n i) len).filter (fun b => !localFabric s false b)
  let rows := far rec' slot off r.rowBytes
  let accs := if adaptive then far o 2 (4 * row) 4 else []
  let x ← engOp o
  if !(rows ++ accs).isEmpty && (rows ++ accs).all (storeSent x) then
    rmwAnswered x slot rows first
    rmwAnswered x 2 accs first
  else
    let gs ← engStep (mergedRow o r ps)
    engHold rec' slot off r.rowBytes
    if adaptive then engHold o 2 (4 * row) 4
    engStep (do
      let bs ← embRmwRead rec' slot off r.rowBytes first
      let a ← if adaptive then embRmwRead o 2 (4 * row) 4 first else pure []
      let lr := numAt (opSlot o 3).data 4 4
      let (ws, a') := applyRule (embRule o) lr (ofBytes a) r.elem (splitElems (embBytes r.elem) (recDim r) bs) gs
      rmwPut (rmwParts rec' slot off (ws.flatMap (toBytes (embBytes r.elem))) ++
        (if adaptive then rmwParts o 2 (4 * row) (toBytes 4 a') else [])))
  engFree rec' slot off r.rowBytes
  if adaptive then engFree o 2 (4 * row) 4

/-- The UPDATE of operation `id` in progress. -/
def updateOf (s : State) (id : Nat) : Option UpdateRun := s.updates.find? (fun u => u.op == id)
/-- A list position joins those that name a row; a row that none has named yet comes last. -/
def nameRow (rows : List (Nat × List Nat)) (y i : Nat) : List (Nat × List Nat) :=
  if rows.any (fun p => p.1 == y) then rows.map (fun p => if p.1 = y then (y, p.2 ++ [i]) else p) else rows ++ [(y, [i])]
/-- Replace the UPDATE of an operation, and note the positions complete for a TIMEOUT (R323). -/
def setUpdate (o : Op) (u : UpdateRun) : EngM Unit := do
  modify (fun s => { s with updates := s.updates.map (fun x => if x.op = o.id then u else x) })
  engProgress o u.positions
/-- An UPDATE begins, on the record that its GEN names (R322). -/
def updateBegin (o : Op) : EngM UpdateRun := do
  let x ← embTableFor o false
  match recByGen x (embGen o) with
  | none => engEnd 0x2D 0 (tblGen x)
  | some (no, r) =>
    engNeed r.writable 0x2F 0 0
    let u : UpdateRun := ⟨o.id, no, r, [], 0, 0, 0, 0, 0⟩
    modify (fun s => { s with updates := s.updates ++ [u] })
    pure u
/-- The positions of the list that are left are read and sorted: those that name each valid row are collected, the others
dropped (R313). -/
def updateSort (o : Op) : List Nat → UpdateRun → EngM UpdateRun
  | [], u => pure u
  | i :: rest, u => do
    let u1 : UpdateRun ← engStep (do
      match (← embSort o u.record i) with
      | .invalid => pure { u with next := i + 1, bad := u.bad + 1, positions := u.positions + 1 }
      | .absent => pure { u with next := i + 1, absent := u.absent + 1, positions := u.positions + 1 }
      | .row y => pure { u with next := i + 1, rows := nameRow u.rows y i })
    setUpdate o u1
    updateSort o rest u1
/-- Update the rows that are left; each stands once it is updated. -/
def updateRows (o : Op) : List (Nat × List Nat) → UpdateRun → EngM UpdateRun
  | [], u => pure u
  | (y, ps) :: rest, u => do
    updateRow o u.record y ps
    let u1 : UpdateRun := { u with rows := rest, updated := u.updated + 1, positions := u.positions + ps.length }
    setUpdate o u1
    updateRows o rest u1
/-- UPDATE (R313 to R315, R322). -/
def updateBody (o : Op) : EngM Compl := do
  let s ← get
  let u ← match updateOf s o.id with
    | some u => pure u
    | none => updateBegin o
  let u1 ← updateSort o ((List.range (embCount o)).drop u.next) u
  let v ← updateRows o u1.rows u1
  modify (fun s => dropCounts s (embTable o) o.tenant.toNat v.bad v.absent)
  pure (dropsDone v.updated v.bad v.absent v.recNo)

/-- UPDATE. -/
def execUpdate (op : Nat) (s : State) : Host.Outcome State Fault Refusal :=
  .next (dropBound (runOp (dropBound s) op 0x63 embFields updateBody))

/- Skew and migration (R307 to R312) -/

/-- EMB_POLICY's fields. -/
def hotPct (s : State) : Nat := regFld s Reg.embPolicy 0 8
/-- MIG_PER_WINDOW. -/
def migPerWindow (s : State) : Nat := regFld s Reg.embPolicy 8 8
/-- ROW_MIN. -/
def rowMin (s : State) : Nat := regFld s Reg.embPolicy 16 16

/-- The operation that a copy's accesses are checked as: the table's tenant, the record's capabilities. -/
def copyOp (s : State) (t : Nat) (r : TblRec) (e : DirEntry) : Op :=
  { id := 0, src := .core 0 0 capNull, tenant := (tblOf s t).tenant, queue := 0x45, opcode := 0, desc := [],
    slots := r.slots, phase := .running, compl := compl 0 0 0 0, ingest := 0, ended := 0, endSeq := 0, deadline := none,
    bank := e.bank, progress := 0, fetched := e.got, asked := e.asked, queued := true, listed := false, cq := 0, accepted := 0, beganAt := 0, readyAt := 0 }

/-- Step 2 of R310: read the home row, write the slot. -/
def copyBody2 (r : TblRec) (e : DirEntry) (o : Op) : EngM Compl := do
  let (slot, off) := rowHome r e.row
  let bs ← embRead o slot off r.rowBytes 0
  embOut o 1 (e.slot * r.rowBytes) bs 0
  pure (complOk 0)

/-- Ask for a block of a remote home row. -/
def copyAsks (s : State) (k : Nat) (e : DirEntry) (addr size : Nat) : State :=
  if e.asked.contains addr then s
  else
    match issueRequest s (.copy k addr) (addr / 2 ^ 54) (tblOf s e.table).tenant.toNat 1 (localPart addr) false 0 size [] with
    | .sent s1 => { s1 with dir := sset (fun _ => dirNone) s1.dir k { e with asked := e.asked ++ [addr] } }
    | .lost s1 => { s1 with dir := sset (fun _ => dirNone) s1.dir k { e with got := e.got ++ [(addr, 3, [])] } }
    | .stalls => s

/-- Carry a copy as far as it goes (R310): the entry turns VALID, is removed when the copy fails, or stays COPYING. -/
def copyStep (s : State) (k : Nat) (e : DirEntry) (finish : Bool) : State :=
  match tblRec (tblOf s e.table) e.recNo with
  | none => { s with dir := serase s.dir k }
  | some r =>
    match (copyBody2 r e (copyOp s e.table r e)).run.run s with
    | (.ok _, s1) =>
      if finish then
        regWrapAdd { s1 with dir := sset (fun _ => dirNone) s1.dir k { e with valid := true, got := [], asked := [] } }
          Reg.embMigrations 1
      else s
    | (.error (.fin _), s1) => if finish then { s1 with dir := serase s1.dir k } else s
    | (.error (.wait (.block a n)), _) => copyAsks s k e a n
    | (.error (.wait (.memory a)), _) => askSegment s a
    | (.error _, _) => s

/-- MIGRATION_COPY_DONE (R310). -/
def execMigrationCopyDone (entry : Nat) (s : State) : Host.Outcome State Fault Refusal :=
  match s.dir.find? (fun x => x.1 == entry) with
  | some (_, e) => .next (if e.valid then s else copyStep s entry e true)
  | none => .next s

/-- The lowest number that no entry of a list holds. -/
def lowestFree (used : List Nat) : Nat → Nat → Option Nat
  | 0, _ => none
  | n + 1, k => if used.contains k then lowestFree used n (k + 1) else some k

/-- Migrate one chosen row, or count it as deferred (R309, R310). -/
def migrateRow (t : Nat) (no : Bool) (r : TblRec) (s : State) (row : Nat) : State :=
  let room := slotRoom (copyOp s t r dirNone) 1 / r.rowBytes
  let used := (s.dir.filter (fun e => e.2.table == t && e.2.recNo == no)).map (fun e => e.2.slot)
  let slot := lowestFree used (min room (used.length + 1)) 0
  let entry := if s.dir.length < 65536 then lowestFree (s.dir.map (fun e => e.1)) (s.dir.length + 1) 0 else none
  match slot, entry with
  | some x, some k =>
    let e : DirEntry := { dirNone with table := t, recNo := no, row := row, slot := x, bank := s.acu.active }
    let s1 := { s with dir := sset (fun _ => dirNone) s.dir k e }
    copyStep s1 k e false
  | _, _ => regSatAdd s Reg.embDeferred 32 1

/-- The rows of a table to migrate at a window end, hottest first (R309). -/
def hotRows (s : State) (t : Nat) (no : Bool) (r : TblRec) : List Nat :=
  let count (i : Nat) : Nat := sget (fun _ => 0) s.skewNow (32 * t + i)
  let total := ((List.range r.shards).map count).sum
  let hot := (List.range r.shards).filter (fun i =>
    decide (hotPct s * total < count i * r.shards * 100) && decide (rowMin s ≤ count i))
  let rows := (hot.flatMap (fun i => sget pairsDflt s.skewPairs (32 * t + i))).filter (fun p =>
    decide (rowMin s ≤ p.2) && !s.dir.any (fun e => e.2.table == t && e.2.recNo == no && e.2.row == p.1))
  ((rows.mergeSort (fun a b => decide (b.2 < a.2) || (a.2 == b.2 && decide (a.1 ≤ b.1)))).map (fun p => p.1)).take (migPerWindow s)

/-- One table at a window end (R309, R312). -/
def windowTable (s : State) (t : Nat) : State :=
  let x := tblOf s t
  match tblActive x with
  | some r => if r.migrate && !r.writable && x.owned then (hotRows s t x.active r).foldl (migrateRow t x.active r) s else s
  | none => s

/-- SKEW_WINDOW_END (R307 to R312, R318): due at each TBC multiple of 1,000,000, and once at the last multiple when the first
alignment has moved the TBC back behind EMB_SKEW_AT (log entry 24). With MIGRATE_EN entries read too seldom
retire and hot rows begin to migrate; without it every entry is kept. The counters are copied and zeroed, and the candidate
pairs zeroed. -/
def execSkewWindowEnd (s : State) : Host.Outcome State Fault Refusal :=
  let due := alignDown s.tbc.toNat 1000000
  let at_ := (regGet s Reg.embSkewAt).toNat
  if due ≤ at_ && at_ ≤ s.tbc.toNat then .next s
  else
    let keep := rowMin s / 8
    let kept := if regBit s Reg.embCtrl 0 then s.dir.filter (fun e => !(e.2.valid && decide (e.2.reads < keep))) else s.dir
    let s1 := { s with dir := kept.map (fun e => (e.1, { e.2 with reads := 0 })) }
    let s2 := if regBit s1 Reg.embCtrl 0 then (s1.tables.map (fun e => e.1)).foldl windowTable s1 else s1
    .next (regSet { s2 with skewLast := s2.skewNow, skewNow := [], skewPairs := [] } Reg.embSkewAt (BitVec.ofNat 64 due))

/- Control (R318) -/

/-- EMB_CTRL.OFFLINE is set. -/
def embOfflineSet (s : State) : State := dropBound (abortRunning (regOr s Reg.embCtrl 2) 0x45 2)
/-- EMB_CTRL.RESET: the directory is emptied; the reset is done at ENGINE_RESET_DONE. -/
def embResetSet (s : State) : State :=
  let s1 := dropBound (abortRunning s 0x45 2)
  { s1 with dir := [], resetting := sset markDflt s1.resetting 0x45 true }

/-- EMB_OFFLINE. -/
def execEmbOffline (agent : Agent) (s : State) : Host.Outcome State Fault Refusal :=
  .next (if platformAgent s agent then embOfflineSet s else s)
/-- EMB_RESET. -/
def execEmbReset (agent : Agent) (s : State) : Host.Outcome State Fault Refusal :=
  .next (if platformAgent s agent then embResetSet s else s)

end Sys2Proof.Machine
end

