-- ==== Sys2Proof/Machine/Strand.lean ====
section
/-! DEFINITION. Strand cores (spec 08; edges 13 R362): registers, arithmetic, addressing, sequencing. -/

namespace Sys2Proof.Machine

/-- Strand core `n`. -/
def strandOf (s : State) (n : Nat) : StrandCore := sget (fun _ => strandReset) s.strands n
/-- Replace strand core `n`. -/
def setStrand (s : State) (n : Nat) (c : StrandCore) : State :=
  { s with strands := sset (fun _ => strandReset) s.strands n c }
/-- An unlisted strand register is 0. -/
def sreg0 (_ : Nat) : BitVec 16 := 0

/- Register numbers (R218) -/

/-- IPEND, IVEC, DSTAT, P0, O0, LC, LS, LE, ST, QB, IRA, IST, CID. -/
def SReg.ipend : Nat := 0x24
/-- IVEC. -/
def SReg.ivec : Nat := 0x25
/-- DSTAT. -/
def SReg.dstat : Nat := 0x26
/-- P0. -/
def SReg.p0 : Nat := 0x28
/-- O0. -/
def SReg.o0 : Nat := 0x30
/-- LC. -/
def SReg.lc : Nat := 0x38
/-- LS. -/
def SReg.ls : Nat := 0x39
/-- LE. -/
def SReg.le : Nat := 0x3A
/-- ST. -/
def SReg.st : Nat := 0x3B
/-- QB. -/
def SReg.qb : Nat := 0x3C
/-- IRA. -/
def SReg.ira : Nat := 0x3D
/-- IST. -/
def SReg.ist : Nat := 0x3E
/-- CID. -/
def SReg.cid : Nat := 0x3F

/-- The bits of a register that a write keeps: reserved bits of ST read 0. -/
def sregMask (r : Nat) : BitVec 16 :=
  if r = SReg.ivec || r = SReg.ls || r = SReg.le || r = SReg.ira then 0x1FFF
  else if SReg.p0 ≤ r && r < SReg.o0 then 0x7FFF
  else if r = SReg.st then 0x3FFF
  else if r = SReg.qb then 0x1F
  else 0xFFFF

/-- A plain register by number (0x20 to 0x3E). -/
def sreg (c : StrandCore) (r : Nat) : BitVec 16 := sget sreg0 c.regs r
/-- Set a plain register. -/
def sregSet (c : StrandCore) (r : Nat) (v : BitVec 16) : StrandCore :=
  { c with regs := sset sreg0 c.regs r (v &&& sregMask r) }
/-- The physical register of Qi (R230). -/
def qPhys (c : StrandCore) (i : Nat) : Nat := (i + 32 - (sreg c SReg.qb).toNat) % 32
/-- Bit `i` of ST. -/
def stBit (c : StrandCore) (i : Nat) : Bool := bitAt (sreg c SReg.st) i

/-- Read a register by its 6-bit number (R218). -/
def srRead (n : Nat) (c : StrandCore) (r : Nat) : BitVec 16 :=
  if r < 32 then sget sreg0 c.q (qPhys c r)
  else if r = SReg.dstat then BitVec.ofNat 16 c.dq.length
  else if r = SReg.cid then BitVec.ofNat 16 n
  else sreg c r
/-- Write a register by its 6-bit number. A Pn or On keeps its old value for the next instruction's addresses (R226). -/
def srWrite (c : StrandCore) (r : Nat) (v : BitVec 16) : StrandCore :=
  if r < 32 then { c with q := sset sreg0 c.q (qPhys c r) v }
  else if r = SReg.ipend then sregSet c r (sreg c r &&& ~~~v)
  else if SReg.p0 ≤ r && r < SReg.lc then
    let old := (sget (fun _ => (none : Option (BitVec 16))) c.agOld r).getD (sreg c r)
    sregSet { c with agOld := sset (fun _ => none) c.agOld r (some old) } r v
  else sregSet c r v

/- Arithmetic (R221 to R223) -/

/-- ST with Z and N. -/
def setZN (c : StrandCore) (z n : Bool) : StrandCore :=
  sregSet c SReg.st (setBit (setBit (sreg c SReg.st) 10 z) 11 n)
/-- Accumulator `d`. -/
def accOf (c : StrandCore) (d : Bool) : Int := (if d then c.a1 else c.a0).toInt
/-- Set accumulator `d`. -/
def setAcc (c : StrandCore) (d : Bool) (v : BitVec 40) : StrandCore := if d then { c with a1 := v } else { c with a0 := v }

/-- Reduce an exact result to 40 bits into accumulator `d`, with OVF, Z and N (R221). -/
def accReduce (c : StrandCore) (d : Bool) (x : Int) : StrandCore :=
  let out := decide (x < -(2 ^ 39 : Int)) || decide ((2 ^ 39 : Int) ≤ x)
  let v : BitVec 40 := BitVec.ofInt 40 (if out && stBit c 5 then satSigned 40 x else x)
  let c1 := if out then sregSet c SReg.st (setBit (sreg c SReg.st) 12 true) else c
  setZN (setAcc c1 d v) (v == 0) (bitAt v 39)

/-- MOVR's result with the flags it sets (R222). -/
def movrOf (c : StrandCore) (a : Int) (u : Bool) : BitVec 16 × StrandCore :=
  let sc := (fld (sreg c SReg.st) 0 4).toInt
  let r := Int.fdiv (if 0 ≤ sc then a * 2 ^ sc.toNat + 2 ^ 15 else a + 2 ^ (15 + (-sc).toNat)) (2 ^ (16 + (-sc).toNat))
  let lo : Int := if u then 0 else -32768
  let hi : Int := if u then 65535 else 32767
  let sat := stBit c 4 && (decide (r < lo) || decide (hi < r))
  let v : BitVec 16 := BitVec.ofInt 16 (if sat then max lo (min hi r) else r)
  let c1 := if sat then sregSet c SReg.st (setBit (sreg c SReg.st) 13 true) else c
  (v, setZN c1 (v == 0) (!u && bitAt v 15))

/-- A register operand times 2^16, signed or unsigned (R223). -/
def accExt (v : BitVec 16) (u : Bool) : Int := (if u then (v.toNat : Int) else v.toInt) * 2 ^ 16

/- Ending a RUN (R241) -/

/-- Cores whose RUN no longer runs are idle, their transfers dropped. -/
def dropStrands (s : State) : State :=
  { s with strands := s.strands.map (fun e =>
      match e.2.op with
      | some id => if s.ops.any (fun o => o.id == id && o.phase == .running) then e
          else (e.1, { e.2 with op := none, running := false, dq := [], wait := .none })
      | none => e) }

/-- An error of core `n` ends its RUN: RESULT [19:16] names the core within its group. -/
def strandFail (s : State) (n status reason : Nat) (detail : Nat) : State :=
  match (strandOf s n).op with
  | none => s
  | some id => dropStrands (endOp s id (compl status reason (BitVec.ofNat 32 (n % 16 * 2 ^ 16)) detail))

/-- A program error at the core's PC (R241); DETAIL has 13 bits, so a fetch beyond word 8191 reports 8191. -/
def strandError (s : State) (n reason : Nat) : State := strandFail s n 0x10 reason (min (strandOf s n).pc 8191)

/-- Class 3 payload of an operation's end (20 R532). -/
def opPayload (o : Op) (status detail : Nat) : List Byte :=
  let (sq, pos) := match o.src with
    | .host _ q p => (q, p.toNat)
    | .core _ p _ => (0, p.toNat)
  toBytes 8 (hdr o.desc 64 64) ++ toBytes 4 pos ++ toBytes 1 sq ++ toBytes 1 o.queue.toNat ++ toBytes 1 status ++ [0] ++
    toBytes 8 detail

/-- An uncorrectable word met by the core's own read or fetch (R245): STR_ERR.UE, POISON, and a record when none has told of that
word's error yet (20 R535). -/
def strandPoison (s : State) (n addr : Nat) : State :=
  let c := strandOf s n
  let payload := match c.op.bind (findOp s) with
    | some o => opPayload o 6 0
    | none => []
  let s0 := regOr s Reg.strErr 1
  let s1 := if sget markDflt s.wordsRecorded (unitOf addr).1 then s0
    else recordEvent { s0 with wordsRecorded := sset markDflt s0.wordsRecorded (unitOf addr).1 true }
    { cls := 3, source := 4, unit := n / 16, code := 1, tenant := c.tenant.toNat, action := 3, addr := addr, payload := payload }
  strandFail s1 n 6 0 0

/- Addressing (R224 to R226) -/

/-- Pn or On as address generation sees it: the old value at distance 1 of a write. -/
def agVal (old : SMap (Option (BitVec 16))) (c : StrandCore) (r : Nat) : BitVec 16 :=
  (sget (fun _ => (none : Option (BitVec 16))) old r).getD (sreg c r)
/-- The address through Pn, and `after` with the post-modify; `c` is the core before the instruction. A post-modify at distance
1 of a write of Pn is discarded, and one of the register that holds the instruction's own result, `own` (R225, R226). -/
def agen (old : SMap (Option (BitVec 16))) (c after : StrandCore) (own p mode : Nat) : Nat × StrandCore :=
  let r := SReg.p0 + p
  let base := agVal old c r
  let step : BitVec 16 := match mode with
    | 0 => 0
    | 1 => agVal old c (SReg.o0 + p)
    | 2 => 1
    | _ => 0xFFFF
  let c1 := if mode = 0 || r = own || (sget (fun _ => (none : Option (BitVec 16))) old r).isSome then after
    else sregSet after r (base + step)
  (base.toNat % 32768, c1)
/-- Local address of word `w` of the memory that pointer `p` selects. -/
def strandWord (n p w : Nat) : Nat := strandBase n + (if p < 4 then 0 else 0x10000) + 2 * (w % 32768)
/-- A memory word. -/
def strandLoadWord (s : State) (a : Nat) : BitVec 16 := BitVec.ofNat 16 (ofBytes (memBytes s a 2))

/-- Destination of the X lane. -/
def xDest : Nat → Nat
  | 1 => 0x20 | 2 => 0x21 | _ => 0
/-- Destination of the Y lane. -/
def yDest : Nat → Nat
  | 1 => 0x22 | 2 => 0x23 | 3 => 0x20 | 4 => 0x21 | _ => 1

/-- What a strand instruction comes to. -/
inductive SRes where
  /-- the core after it, before sequencing -/
  | ok (s : State) (c : StrandCore)
  /-- the core's program error -/
  | error (reason : Nat)
  /-- an uncorrectable word at a local address -/
  | poison (a : Nat)
  deriving DecidableEq, Repr

/-- One lane: the word loaded, and `after` with the post-modify. -/
def strandLane (s : State) (n : Nat) (old : SMap (Option (BitVec 16))) (c after : StrandCore) (own p mode : Nat) :
    Nat × BitVec 16 × StrandCore :=
  let (w, c1) := agen old c after own p mode
  let a := strandWord n p w
  (a, strandLoadWord s a, c1)

/-- The parallel moves of an instruction whose own result, to register `own`, the core `after` already holds: `qOf` is
the core its sources were read from (R225). -/
def strandMoves (s : State) (n : Nat) (old : SMap (Option (BitVec 16))) (qOf after : StrandCore) (m : BitVec 13) (own : Nat) :
    SRes :=
  let xd := (fld m 11 2).toNat
  let yd := (fld m 8 3).toNat
  let put (c : StrandCore) (r : Nat) (v : BitVec 16) : StrandCore :=
    if r = own then c
    else if r < 32 then { c with q := sset sreg0 c.q (qPhys qOf r) v }
    else srWrite c r v
  let (ax, vx, c1) := if xd = 0 then (0, 0, after) else strandLane s n old qOf after own (fld m 6 2).toNat (fld m 4 2).toNat
  let (ay, vy, c2) := if yd = 0 then (0, 0, c1) else strandLane s n old qOf c1 own (4 + (fld m 2 2).toNat) (fld m 0 2).toNat
  if xd != 0 && poisonAt s ax then .poison ax
  else if yd != 0 && poisonAt s ay then .poison ay
  else
    let c3 := if xd = 0 then c2 else put c2 (xDest xd) vx
    .ok s (if yd = 0 then c3 else put c3 (yDest yd) vy)

/- Sequencing (R226, R228, R229, R231) -/

/-- The active loop ends and the pushed one returns. -/
def popLoop (c : StrandCore) : StrandCore :=
  match c.stack with
  | [] => { c with loopActive := false }
  | (lc, ls, le, rot) :: rest =>
    sregSet (sregSet (sregSet { c with stack := rest, loopRot := rot } SReg.lc lc) SReg.ls ls) SReg.le le
/-- Completion of the instruction at `a`: the loop-back at LE, or the next address (R229). -/
def strandNext (c : StrandCore) (a : Nat) : StrandCore :=
  if c.loopActive && a == (sreg c SReg.le).toNat then
    let c1 := if c.loopRot then sregSet c SReg.qb (sreg c SReg.qb + 1) else c
    let lc := sreg c1 SReg.lc
    if 1 < lc.toNat then { sregSet c1 SReg.lc (lc - 1) with pc := (sreg c1 SReg.ls).toNat }
    else { popLoop c1 with pc := a + 1 }
  else { c with pc := a + 1 }
/-- After the second delay slot, at `a`. -/
def strandLand (c : StrandCore) (a : Nat) : StrandCore :=
  let c0 : StrandCore := { c with jump := .on }
  match c.jump with
  | .on => strandNext c0 a
  | .ret => { sregSet c0 SReg.st (sreg c SReg.ist) with pc := (sreg c SReg.ira).toNat }
  | .target t =>
    let inside := decide ((sreg c SReg.ls).toNat ≤ t) && decide (t ≤ (sreg c SReg.le).toNat)
    { (if c.loopActive && !inside then popLoop c0 else c0) with pc := t }
/-- Sequencing after an instruction of classes 001 to 101, or a NOP. -/
def strandStep (c : StrandCore) : StrandCore :=
  let a := c.pc
  if 1 < c.rep then { c with rep := c.rep - 1 }
  else
    let c1 : StrandCore := { c with rep := 0 }
    if c1.delay = 0 then strandNext c1 a
    else
      let c2 : StrandCore := { c1 with delay := c1.delay - 1 }
      if c2.delay = 0 then strandLand c2 a else { c2 with pc := a + 1 }

/-- An interrupt may be taken at this boundary (R232). -/
def strandMayInterrupt (c : StrandCore) : Bool :=
  let p := sreg c SReg.ipend
  stBit c 7 && ((bitAt p 0 && stBit c 8) || (bitAt p 1 && stBit c 9)) && c.delay == 0 && c.rep == 0 &&
    (match c.wait with | .none => true | .waitd _ => true | _ => false)
/-- The core executes its next instruction: running, not stalled, no interrupt goes first (R232, R243), the device not fenced. -/
def strandExecuting (s : State) (n : Nat) : Bool :=
  (strandOf s n).running && (strandOf s n).wait == .none && !strandMayInterrupt (strandOf s n) && !fenced s

/-- The word of program memory at PC. -/
def strandWordAt (s : State) (n : Nat) : W32 :=
  BitVec.ofNat 32 (ofBytes (memBytes s (strandBase n + 0x20000 + 4 * (strandOf s n).pc) 4))

/-- The fetch of the instruction at PC ends the RUN: beyond word 8191, an uncorrectable word, or a word that is no instruction
(R236, R245). -/
def strandFetch (s : State) (n : Nat) : Option State :=
  let pc := (strandOf s n).pc
  let a := strandBase n + 0x20000 + 4 * pc
  if 8191 < pc then some (strandError s n 6)
  else if poisonAt s a then some (strandPoison s n a)
  else if (decodeStrand (BitVec.ofNat 6 n) (strandWordAt s n)).isNone then some (strandError s n 1)
  else none

/-- Run an instruction of core `n`: `legal` is false for an illegal word; `body` gets the state, the core, and the old Pn
and On of the previous instruction. -/
def strandRun (s : State) (n : Nat) (legal : Bool)
    (body : State → StrandCore → SMap (Option (BitVec 16)) → SRes) : State :=
  if !strandExecuting s n then s
  else
    match strandFetch s n with
    | some s1 => s1
    | none =>
      if !legal then strandError s n 1
      else
        let c := strandOf s n
        match body s { c with agOld := [] } c.agOld with
        | .ok s1 c1 => setStrand s1 n (strandStep c1)
        | .error r => strandError s n r
        | .poison a => strandPoison s n a

/-- A control instruction stands where it may (R226, R227, R228): the reason of the program error, if not. `atLe1`: BR and
RETI also may not stand at LE − 1. -/
def controlFault (c : StrandCore) (atLe1 : Bool) : Option Nat :=
  let le := (sreg c SReg.le).toNat
  if c.delay != 0 || c.rep != 0 then some 2
  else if c.loopActive && (c.pc == le || (atLe1 && c.pc + 1 == le)) then some 3
  else none

/-- Run a control instruction: `body` does its own sequencing. -/
def strandControl (s : State) (n : Nat) (legal atLe1 : Bool) (body : State → StrandCore → SRes) : State :=
  if !strandExecuting s n then s
  else
    match strandFetch s n with
    | some s1 => s1
    | none =>
      if !legal then strandError s n 1
      else
        let c := strandOf s n
        match controlFault c atLe1 with
        | some r => strandError s n r
        | none =>
          match body s { c with agOld := [] } with
          | .ok s1 c1 => setStrand s1 n c1
          | .error r => strandError s n r
          | .poison a => strandPoison s n a

/- Interrupts (R232) -/

/-- STRAND_INTERRUPT (R232): entry at IVEC; a stalled WAITD is a boundary, so IRA points at it. -/
def execStrandInterrupt (core : BitVec 6) (s : State) : Host.Outcome State Fault Refusal :=
  let n := core.toNat
  let c := strandOf s n
  if c.running && !fenced s && strandMayInterrupt c then
    let c1 := sregSet (sregSet c SReg.ira (BitVec.ofNat 16 c.pc)) SReg.ist (sreg c SReg.st)
    .next (setStrand s n { sregSet c1 SReg.st (setBit (sreg c SReg.st) 7 false) with
      pc := (sreg c SReg.ivec).toNat, wait := .none })
  else .next s
/-- STR_ATTN (R237): GO sets IPEND.ATTN of the named core. -/
def strAttnSet (s : State) (v : Nat) : State :=
  if v.testBit 31 then
    let n := v % 64
    let c := strandOf s n
    setStrand s n { c with regs := sset sreg0 c.regs SReg.ipend (sreg c SReg.ipend ||| 2) }
  else s
/-- STR_ATTN. -/
def execStrAttn (agent : Agent) (value : W32) (s : State) : Host.Outcome State Fault Refusal :=
  .next (if platformAgent s agent then strAttnSet s value.toNat else s)

end Sys2Proof.Machine
end

