-- ==== Sys2Proof/Machine/StrandOps.lean ====
section
/-! DEFINITION. The strand instructions (spec 08 R221 to R236). -/

namespace Sys2Proof.Machine

/- Format M (R221) -/

/-- First operand's register. -/
def mulA (fa : BitVec 2) (qi : BitVec 5) : Nat :=
  match fa.toNat with | 0 => 0x20 | 1 => 0x21 | 2 => 0x22 | _ => qi.toNat
/-- Second operand's register. -/
def mulB (fb : BitVec 2) (qi : BitVec 5) : Nat :=
  match fb.toNat with | 0 => 0x22 | 1 => 0x23 | 2 => 0x20 | _ => qi.toNat
/-- The exact product: signed, unsigned by SG; doubled by FRAC. -/
def strandProduct (c : StrandCore) (x y : BitVec 16) (sg : BitVec 2) : Int :=
  let a : Int := if sg = 0 then x.toInt else x.toNat
  let b : Int := if sg = 2 then y.toNat else y.toInt
  a * b * (if stBit c 6 then 2 else 1)

/-- A multiply: `f` gives the exact result from the accumulator and the product. -/
def strandMul (f : Int → Int → Int) (core : BitVec 6) (d : Bool) (fa fb sg : BitVec 2) (qi : BitVec 5) (moves : BitVec 13)
    (s : State) : State :=
  let n := core.toNat
  strandRun s n (sg != 3 && movesOk moves && mulFieldsOk fa fb qi) (fun s c old =>
    let p := strandProduct c (srRead n c (mulA fa qi)) (srRead n c (mulB fb qi)) sg
    strandMoves (regWrapAdd s (Reg.strMacs (n / 16)) 1) n old c (accReduce c d (f (accOf c d) p)) moves 64)

/-- MPY: A := p. -/
def execMpy (core : BitVec 6) (d : Bool) (fa fb sg : BitVec 2) (qi : BitVec 5) (moves : BitVec 13) (s : State) :
    Host.Outcome State Fault Refusal :=
  .next (strandMul (fun _ p => p) core d fa fb sg qi moves s)
/-- MAC: A := A + p. -/
def execMac (core : BitVec 6) (d : Bool) (fa fb sg : BitVec 2) (qi : BitVec 5) (moves : BitVec 13) (s : State) :
    Host.Outcome State Fault Refusal :=
  .next (strandMul (fun a p => a + p) core d fa fb sg qi moves s)
/-- MSU: A := A - p. -/
def execMsu (core : BitVec 6) (d : Bool) (fa fb sg : BitVec 2) (qi : BitVec 5) (moves : BitVec 13) (s : State) :
    Host.Outcome State Fault Refusal :=
  .next (strandMul (fun a p => a - p) core d fa fb sg qi moves s)
/-- MOVE: the parallel moves only; flags are kept. -/
def execMove (core : BitVec 6) (d : Bool) (fa fb sg : BitVec 2) (qi : BitVec 5) (moves : BitVec 13) (s : State) :
    Host.Outcome State Fault Refusal :=
  .next (strandRun s core.toNat (movesOk moves && moveFieldsOk d fa fb sg qi) (fun s c old =>
    strandMoves s core.toNat old c c moves 64))

/- Format A (R223, R236) -/

/-- An accumulator result: `fits` says that the unused fields are zero, `f` gives the exact value from the core, the accumulator and the other one. -/
def strandAcc (fits uses : Bool) (f : StrandCore → Int → Int → Int) (core : BitVec 6) (d : Bool) (reg : BitVec 6) (moves : BitVec 13)
    (s : State) : State :=
  let n := core.toNat
  strandRun s n (movesOk moves && fits && !(uses && srIllegal reg.toNat false)) (fun s c old =>
    strandMoves s n old c (accReduce c d (f c (accOf c d) (accOf c (!d)))) moves 64)
/-- A register written from an accumulator: `f` gives the value and the core with its flags. -/
def strandFromAcc (fits : Bool) (f : StrandCore → Int → BitVec 16 × StrandCore) (core : BitVec 6) (d : Bool) (reg : BitVec 6)
    (moves : BitVec 13) (s : State) : State :=
  let n := core.toNat
  strandRun s n (movesOk moves && fits && !srIllegal reg.toNat true) (fun s c old =>
    let (v, c1) := f c (accOf c d)
    strandMoves s n old c (srWrite c1 reg.toNat v) moves reg.toNat)
/-- Bits of an accumulator set from a register; flags are kept. -/
def strandSetAcc (fits : Bool) (w lo : Nat) (core : BitVec 6) (d : Bool) (reg : BitVec 6) (moves : BitVec 13) (s : State) : State :=
  let n := core.toNat
  strandRun s n (movesOk moves && fits && !srIllegal reg.toNat false) (fun s c old =>
    let v := (srRead n c reg.toNat).setWidth w
    strandMoves s n old c (setAcc c d (setFld (BitVec.ofInt 40 (accOf c d)) lo v)) moves 64)

/-- CLR: A := 0. -/
def execClr (core : BitVec 6) (d : Bool) (reg : BitVec 6) (u : Bool) (imm : BitVec 4) (moves : BitVec 13) (s : State) :
    Host.Outcome State Fault Refusal :=
  .next (strandAcc (accFieldsOk 0 reg u imm) false (fun _ _ _ => 0) core d reg moves s)
/-- ADDA: A plus the other accumulator. -/
def execAdda (core : BitVec 6) (d : Bool) (reg : BitVec 6) (u : Bool) (imm : BitVec 4) (moves : BitVec 13) (s : State) :
    Host.Outcome State Fault Refusal :=
  .next (strandAcc (accFieldsOk 1 reg u imm) false (fun _ a b => a + b) core d reg moves s)
/-- SUBA: A minus the other accumulator. -/
def execSuba (core : BitVec 6) (d : Bool) (reg : BitVec 6) (u : Bool) (imm : BitVec 4) (moves : BitVec 13) (s : State) :
    Host.Outcome State Fault Refusal :=
  .next (strandAcc (accFieldsOk 2 reg u imm) false (fun _ a b => a - b) core d reg moves s)
/-- NEG: A := -A. -/
def execNeg (core : BitVec 6) (d : Bool) (reg : BitVec 6) (u : Bool) (imm : BitVec 4) (moves : BitVec 13) (s : State) :
    Host.Outcome State Fault Refusal :=
  .next (strandAcc (accFieldsOk 3 reg u imm) false (fun _ a _ => -a) core d reg moves s)
/-- ABS: the absolute value. -/
def execAbs (core : BitVec 6) (d : Bool) (reg : BitVec 6) (u : Bool) (imm : BitVec 4) (moves : BitVec 13) (s : State) :
    Host.Outcome State Fault Refusal :=
  .next (strandAcc (accFieldsOk 4 reg u imm) false (fun _ a _ => if a < 0 then -a else a) core d reg moves s)
/-- SHA: a left shift multiplies; a right shift truncates toward minus infinity. -/
def execSha (core : BitVec 6) (d : Bool) (reg : BitVec 6) (u : Bool) (imm : BitVec 4) (moves : BitVec 13) (s : State) :
    Host.Outcome State Fault Refusal :=
  .next (strandAcc (accFieldsOk 5 reg u imm) false (fun _ a _ => if 0 ≤ imm.toInt then a * 2 ^ imm.toInt.toNat else Int.fdiv a (2 ^ (-imm.toInt).toNat)) core d reg moves s)
/-- LDA: A := REG times 2^16. -/
def execLda (core : BitVec 6) (d : Bool) (reg : BitVec 6) (u : Bool) (imm : BitVec 4) (moves : BitVec 13) (s : State) :
    Host.Outcome State Fault Refusal :=
  .next (strandAcc (accFieldsOk 6 reg u imm) true (fun c _ _ => accExt (srRead core.toNat c reg.toNat) u) core d reg moves s)
/-- ADDR: A plus REG times 2^16. -/
def execAddr (core : BitVec 6) (d : Bool) (reg : BitVec 6) (u : Bool) (imm : BitVec 4) (moves : BitVec 13) (s : State) :
    Host.Outcome State Fault Refusal :=
  .next (strandAcc (accFieldsOk 7 reg u imm) true (fun c a _ => a + accExt (srRead core.toNat c reg.toNat) u) core d reg moves s)
/-- SUBR: A minus REG times 2^16. -/
def execSubr (core : BitVec 6) (d : Bool) (reg : BitVec 6) (u : Bool) (imm : BitVec 4) (moves : BitVec 13) (s : State) :
    Host.Outcome State Fault Refusal :=
  .next (strandAcc (accFieldsOk 8 reg u imm) true (fun c a _ => a - accExt (srRead core.toNat c reg.toNat) u) core d reg moves s)
/-- MOVR (R222). -/
def execMovr (core : BitVec 6) (d : Bool) (reg : BitVec 6) (u : Bool) (imm : BitVec 4) (moves : BitVec 13) (s : State) :
    Host.Outcome State Fault Refusal :=
  .next (strandFromAcc (accFieldsOk 9 reg u imm) (fun c a => movrOf c a u) core d reg moves s)
/-- MOVP: REG := A[15:0]; flags are kept. -/
def execMovp (core : BitVec 6) (d : Bool) (reg : BitVec 6) (u : Bool) (imm : BitVec 4) (moves : BitVec 13) (s : State) :
    Host.Outcome State Fault Refusal :=
  .next (strandFromAcc (accFieldsOk 10 reg u imm) (fun c a => (BitVec.ofInt 16 a, c)) core d reg moves s)
/-- MOVM: REG := A[31:16]; flags are kept. -/
def execMovm (core : BitVec 6) (d : Bool) (reg : BitVec 6) (u : Bool) (imm : BitVec 4) (moves : BitVec 13) (s : State) :
    Host.Outcome State Fault Refusal :=
  .next (strandFromAcc (accFieldsOk 11 reg u imm) (fun c a => (fld (BitVec.ofInt 40 a) 16 16, c)) core d reg moves s)
/-- MOVG: REG := A[39:32], sign-extended; flags are kept. -/
def execMovg (core : BitVec 6) (d : Bool) (reg : BitVec 6) (u : Bool) (imm : BitVec 4) (moves : BitVec 13) (s : State) :
    Host.Outcome State Fault Refusal :=
  .next (strandFromAcc (accFieldsOk 12 reg u imm) (fun c a => ((fld (BitVec.ofInt 40 a) 32 8).signExtend 16, c)) core d reg moves s)
/-- SETP: A[15:0] := REG. -/
def execSetp (core : BitVec 6) (d : Bool) (reg : BitVec 6) (u : Bool) (imm : BitVec 4) (moves : BitVec 13) (s : State) :
    Host.Outcome State Fault Refusal :=
  .next (strandSetAcc (accFieldsOk 13 reg u imm) 16 0 core d reg moves s)
/-- SETM: A[31:16] := REG. -/
def execSetm (core : BitVec 6) (d : Bool) (reg : BitVec 6) (u : Bool) (imm : BitVec 4) (moves : BitVec 13) (s : State) :
    Host.Outcome State Fault Refusal :=
  .next (strandSetAcc (accFieldsOk 14 reg u imm) 16 16 core d reg moves s)
/-- SETG: A[39:32] := REG[7:0]. -/
def execSetg (core : BitVec 6) (d : Bool) (reg : BitVec 6) (u : Bool) (imm : BitVec 4) (moves : BitVec 13) (s : State) :
    Host.Outcome State Fault Refusal :=
  .next (strandSetAcc (accFieldsOk 15 reg u imm) 8 32 core d reg moves s)

/- Formats L and I: Z and N are kept -/

/-- STRAND_LOAD (R224): REG := the word through Pn. -/
def execStrandLoad (core : BitVec 6) (p : BitVec 3) (mode : BitVec 2) (reg : BitVec 6) (s : State) :
    Host.Outcome State Fault Refusal :=
  let n := core.toNat
  .next (strandRun s n (!srIllegal reg.toNat true) (fun s c old =>
    let (a, v, c1) := strandLane s n old c c reg.toNat p.toNat mode.toNat
    if poisonAt s a then .poison a else .ok s (srWrite c1 reg.toNat v)))
/-- STRAND_STORE (R224): the word through Pn := REG. -/
def execStrandStore (core : BitVec 6) (p : BitVec 3) (mode : BitVec 2) (reg : BitVec 6) (s : State) :
    Host.Outcome State Fault Refusal :=
  let n := core.toNat
  .next (strandRun s n (!srIllegal reg.toNat false) (fun s c old =>
    let v := srRead n c reg.toNat
    let (w, c1) := agen old c c 64 p.toNat mode.toNat
    .ok (storeLocal s (strandWord n p.toNat w) (toBytes 2 v.toNat)) c1))
/-- LDI: REG := IMM16. -/
def execLdi (core : BitVec 6) (reg : BitVec 6) (imm : BitVec 16) (s : State) : Host.Outcome State Fault Refusal :=
  .next (strandRun s core.toNat (!srIllegal reg.toNat true) (fun s c _ => .ok s (srWrite c reg.toNat imm)))
/-- ADDI: REG := REG + IMM16. -/
def execStrandAddi (core : BitVec 6) (reg : BitVec 6) (imm : BitVec 16) (s : State) : Host.Outcome State Fault Refusal :=
  .next (strandRun s core.toNat (!srIllegal reg.toNat true) (fun s c _ =>
    .ok s (srWrite c reg.toNat (srRead core.toNat c reg.toNat + imm))))

/- Format R -/

/-- A register result; it wraps, and sets Z and N. -/
def strandReg (f : BitVec 16 → BitVec 16 → BitVec 16) (core : BitVec 6) (rd rs : BitVec 6) (moves : BitVec 13) (s : State) :
    State :=
  let n := core.toNat
  strandRun s n (movesOk moves && !srIllegal rd.toNat true && !srIllegal rs.toNat false) (fun s c old =>
    let v := f (srRead n c rd.toNat) (srRead n c rs.toNat)
    strandMoves s n old c (srWrite (setZN c (v == 0) (bitAt v 15)) rd.toNat v) moves rd.toNat)
/-- A compare; it sets Z and N alone. -/
def strandCmp (less : BitVec 16 → BitVec 16 → Bool) (core : BitVec 6) (rd rs : BitVec 6) (moves : BitVec 13) (s : State) :
    State :=
  let n := core.toNat
  strandRun s n (movesOk moves && !srIllegal rd.toNat false && !srIllegal rs.toNat false) (fun s c old =>
    let a := srRead n c rd.toNat
    let b := srRead n c rs.toNat
    strandMoves s n old c (setZN c (a == b) (less a b)) moves 64)

/-- MOV: RD := RS. -/
def execMov (core : BitVec 6) (rd rs : BitVec 6) (moves : BitVec 13) (s : State) : Host.Outcome State Fault Refusal :=
  .next (strandReg (fun _ b => b) core rd rs moves s)
/-- ADD. -/
def execStrandAdd (core : BitVec 6) (rd rs : BitVec 6) (moves : BitVec 13) (s : State) : Host.Outcome State Fault Refusal :=
  .next (strandReg (fun a b => a + b) core rd rs moves s)
/-- SUB. -/
def execStrandSub (core : BitVec 6) (rd rs : BitVec 6) (moves : BitVec 13) (s : State) : Host.Outcome State Fault Refusal :=
  .next (strandReg (fun a b => a - b) core rd rs moves s)
/-- AND. -/
def execStrandAnd (core : BitVec 6) (rd rs : BitVec 6) (moves : BitVec 13) (s : State) : Host.Outcome State Fault Refusal :=
  .next (strandReg (fun a b => a &&& b) core rd rs moves s)
/-- OR. -/
def execStrandOr (core : BitVec 6) (rd rs : BitVec 6) (moves : BitVec 13) (s : State) : Host.Outcome State Fault Refusal :=
  .next (strandReg (fun a b => a ||| b) core rd rs moves s)
/-- XOR. -/
def execStrandXor (core : BitVec 6) (rd rs : BitVec 6) (moves : BitVec 13) (s : State) : Host.Outcome State Fault Refusal :=
  .next (strandReg (fun a b => a ^^^ b) core rd rs moves s)
/-- CMP: signed. -/
def execCmp (core : BitVec 6) (rd rs : BitVec 6) (moves : BitVec 13) (s : State) : Host.Outcome State Fault Refusal :=
  .next (strandCmp (fun a b => decide (a.toInt < b.toInt)) core rd rs moves s)
/-- CMPU: unsigned. -/
def execCmpu (core : BitVec 6) (rd rs : BitVec 6) (moves : BitVec 13) (s : State) : Host.Outcome State Fault Refusal :=
  .next (strandCmp (fun a b => decide (a.toNat < b.toNat)) core rd rs moves s)

/- Control (class 000) -/

/-- NOP: it may stand in a delay slot, but is a control instruction at LE and under REPEAT (R226). -/
def execStrandNop (core : BitVec 6) (s : State) : Host.Outcome State Fault Refusal :=
  let c := strandOf s core.toNat
  if !strandExecuting s core.toNat || (strandFetch s core.toNat).isSome then
    .next (strandRun s core.toNat true (fun s c _ => .ok s c))
  else if c.rep != 0 then .next (strandError s core.toNat 2)
  else if c.loopActive && c.pc == (sreg c SReg.le).toNat then .next (strandError s core.toNat 3)
  else .next (strandRun s core.toNat true (fun s c _ => .ok s c))
/-- The conditions of BR. -/
def brTaken (c : StrandCore) : Nat → Bool
  | 0 => true
  | 1 => stBit c 10
  | 2 => !stBit c 10
  | 3 => stBit c 11
  | 4 => !stBit c 11
  | 5 => stBit c 10 || stBit c 11
  | 6 => !(stBit c 10 || stBit c 11)
  | _ => stBit c 13
/-- BR (R226): two delay slots, then the target when taken. -/
def execBr (core : BitVec 6) (cond : BitVec 4) (target : BitVec 13) (s : State) : Host.Outcome State Fault Refusal :=
  .next (strandControl s core.toNat (decide (cond.toNat < 8)) true (fun s c =>
    .ok s { c with delay := 2, jump := if brTaken c cond.toNat then .target target.toNat else .on, pc := c.pc + 1 }))
/-- RETI (R232). -/
def execReti (core : BitVec 6) (s : State) : Host.Outcome State Fault Refusal :=
  .next (strandControl s core.toNat true true (fun s c => .ok s { c with delay := 2, jump := .ret, pc := c.pc + 1 }))
/-- REPEAT (R231): n from the immediate or from REG; n = 0 skips the next instruction. The field that RSEL leaves unused is
reserved (R236; DEDUCED, log entry 39). -/
def execStrandRepeat (core : BitVec 6) (rsel : Bool) (reg : BitVec 6) (n : BitVec 11) (s : State) :
    Host.Outcome State Fault Refusal :=
  .next (strandControl s core.toNat (if rsel then n == 0 && !srIllegal reg.toNat false else reg == 0) false (fun s c =>
    let k := if rsel then (srRead core.toNat c reg.toNat).toNat else n.toNat
    if 1024 < k then .error 4
    else if k = 0 then .ok s (strandNext { c with pc := c.pc + 1 } (c.pc + 1))
    else .ok s { c with rep := k, pc := c.pc + 1 }))
/-- LOOP (R228). -/
def execLoop (core : BitVec 6) (rot : Bool) (reg : BitVec 6) (le : BitVec 13) (s : State) :
    Host.Outcome State Fault Refusal :=
  .next (strandControl s core.toNat (!srIllegal reg.toNat false) false (fun s c =>
    let k := srRead core.toNat c reg.toNat
    if k = 0 then .ok s { c with pc := le.toNat + 1 }
    else if le.toNat < c.pc + 1 then .error 3
    else if 4 ≤ c.stack.length + (if c.loopActive then 1 else 0) then .error 5
    else
      let st := if c.loopActive then (sreg c SReg.lc, sreg c SReg.ls, sreg c SReg.le, c.loopRot) :: c.stack else c.stack
      .ok s { (sregSet (sregSet (sregSet c SReg.lc k) SReg.ls (BitVec.ofNat 16 (c.pc + 1))) SReg.le (le.setWidth 16)) with
        stack := st, loopActive := true, loopRot := rot, pc := c.pc + 1 }))

/- DMA (R233 to R235) -/

/-- The 48-, 16- and 32-bit fields of a parameter block, and whether they are in range. -/
structure StrandParams where
  offset : Nat
  rowWords : Nat
  rows : Nat
  stride : Int
  step : Nat
  ok : Bool
  deriving DecidableEq, Repr

/-- Read the parameter block at word `w` of X memory. -/
def strandParams (s : State) (n w : Nat) : StrandParams :=
  let v (i : Nat) : Nat := (strandLoadWord s (strandWord n 0 (w + i))).toNat
  let rw := v 3
  let rows := v 4
  { offset := v 0 + v 1 * 2 ^ 16 + v 2 * 2 ^ 32, rowWords := rw, rows := rows,
    stride := (BitVec.ofNat 32 (v 5 + v 6 * 2 ^ 16)).toInt, step := v 7 % 256,
    ok := decide (1 ≤ rw) && decide (rw ≤ 32768) && decide (1 ≤ rows) && decide (rows ≤ 32768) && v 7 % 256 != 0 }

/-- What the check of a transfer's rows comes to: its rows, a program error, or an end of the RUN. -/
inductive RowsAre where
  | rows (l : List (Nat × Int))
  | error
  | fin (status reason : Nat) (detail : Int)
  deriving DecidableEq, Repr

/-- Check one block of a row against the rules; the offset of a deny. -/
def strandRuleRow (s : State) (o : Op) (sys write : Bool) (a n : Nat) : Option Nat × State :=
  (blocksOf a n).foldl (fun (r : Option Nat × State) b =>
    match r.1 with
    | some _ => r
    | none =>
      let (v, s1) := acuCheckIn r.2 o.bank .strandDma o.tenant.toNat (kEngine ||| (if write then kWrite else kRead)) sys write b
      (if v.ok then none else some (b - a), s1)) (none, s)

/-- Check the rows of a transfer in row order (R234). -/
def strandRows (o : Op) (cap : Cap) (ch : Nat) (outward : Bool) (p : StrandParams) :
    List Nat → List (Nat × Int) → State → RowsAre × State
  | [], acc, s => (.rows acc, s)
  | r :: rest, acc, s =>
    let rel : Int := r * p.stride
    let addr : Int := (capCursor cap).toNat + p.offset + rel
    let n := 2 * p.rowWords
    let mask := if outward then rDMA ||| rST else rDMA ||| rLD
    let cause := if addr < 0 then (if !cap.tag then some 3 else if capSealed cap then some 4 else if !capHas cap mask then some 6
        else some 7) else capCheck cap 0 mask true addr.toNat n 1
    match cause with
    | some k => (.fin 4 k rel, s)
    | none =>
      let a := addr.toNat
      if !localFabric s false a then
        if fabricDenied s false a then
          (.fin 3 (ch + 1) rel, acuDeny s .strandDma o.tenant.toNat (kEngine ||| (if outward then kWrite else kRead)) 0x1FF (localPart a))
        else (.fin 0x0B 3 rel, s)
      else
        let la := localPart a
        let plain (x : Nat) : Bool := regionOf x == .hbm || hasTags (regionOf x)
        if !(plain la && plain (la + n - 1)) then (.error, s)
        else
          match strandRuleRow s o (capHas cap rSYS) outward la n with
          | (some off, s1) => (.fin 3 (ch + 1) (rel + off), s1)
          | (none, s1) => strandRows o cap ch outward p rest (acc ++ [(la, rel)]) s1

/-- End a RUN from one of its cores with a byte offset. -/
def strandEnd (s : State) (n status reason : Nat) (detail : Int) : State :=
  strandFail s n status reason (BitVec.ofInt 64 detail).toNat

/-- Issue a DMA instruction of a core that has fewer than four transfers outstanding. -/
def dmaIssue (s : State) (n : Nat) (outward : Bool) (ch pb pl : Nat) : State :=
  let c := strandOf s n
  let old := c.agOld
  let w := (agVal old c (SReg.p0 + pb)).toNat
  let bad := (List.range 8).find? (fun i => poisonAt s (strandWord n 0 (w + i)))
  let p := strandParams s n w
  let loc := (agVal old c (SReg.p0 + pl)).toNat % 32768
  match bad with
  | some i => strandPoison s n (strandWord n 0 (w + i))
  | none =>
    if !p.ok || decide (32767 < loc + (p.rows * p.rowWords - 1) * p.step) then strandError s n 7
    else
      match c.op.bind (findOp s) with
      | none => s
      | some o =>
        match strandRows o (c.dc.getD ch capNull) ch outward p (List.range p.rows) [] s with
        | (.error, s1) => strandError s1 n 7
        | (.fin st r d, s1) => strandEnd s1 n st r d
        | (.rows rows, s1) =>
          let x : StrandXfer := ⟨outward, rows, p.rowWords, strandWord n pl 0, loc, p.step⟩
          setStrand s1 n (strandStep { c with agOld := [], dq := c.dq ++ [x], wait := .none })

/-- Where a control instruction that may stall stands, its checks, then what it does. -/
def strandGuard (s : State) (n : Nat) (legal : Bool) (go : State → State) : State :=
  if !strandExecuting s n then s
  else
    match strandFetch s n with
    | some s1 => s1
    | none =>
      if !legal then strandError s n 1
      else
        match controlFault (strandOf s n) false with
        | some r => strandError s n r
        | none => go s

/-- DMA (R233): PB names one of P0 to P3; with four transfers outstanding the instruction stalls. -/
def execDma (core : BitVec 6) (dir : Bool) (ch pb pl : BitVec 3) (s : State) : Host.Outcome State Fault Refusal :=
  let n := core.toNat
  .next (strandGuard s n true (fun s =>
    let c := strandOf s n
    if 3 < pb.toNat then strandError s n 7
    else if 4 ≤ c.dq.length then setStrand s n { c with wait := .dma dir ch.toNat pb.toNat pl.toNat }
    else dmaIssue s n dir ch.toNat pb.toNat pl.toNat))
/-- WAITD (R235): it stalls until DSTAT ≤ k. -/
def execWaitd (core : BitVec 6) (k : BitVec 2) (s : State) : Host.Outcome State Fault Refusal :=
  let n := core.toNat
  .next (strandGuard s n true (fun s =>
    let c := strandOf s n
    if c.dq.length ≤ k.toNat then setStrand s n (strandStep { c with agOld := [] })
    else setStrand s n { c with wait := .waitd k.toNat }))
/-- WAITD_RESUME (R233, R235): a stalled WAITD or DMA instruction goes on once enough transfers have completed. A stalled WAITD is a
boundary, and an interrupt that may be taken there goes first (R232). -/
def execWaitdResume (core : BitVec 6) (s : State) : Host.Outcome State Fault Refusal :=
  let n := core.toNat
  let c := strandOf s n
  if !c.running || fenced s then .next s
  else
    match c.wait with
    | .waitd k => .next (if c.dq.length ≤ k && !strandMayInterrupt c then setStrand s n (strandStep { c with agOld := [], wait := .none }) else s)
    | .dma d ch pb pl => .next (if c.dq.length < 4 then dmaIssue s n d ch pb pl else s)
    | _ => .next s

/- HALT and the end of a RUN (R241) -/

/-- Cores of a RUN's mask. -/
def runCores (o : Op) : List Nat :=
  ((List.range 16).filter (fun i => natBit (param o 160 16) i)).map (fun i => 16 * (o.queue.toNat - 0x40) + i)
/-- PC of the lowest-numbered running core of a RUN, or of its lowest core. -/
def runPc (s : State) (o : Op) : Nat × Nat :=
  let cores := runCores o
  let n := ((cores.filter (fun n => (strandOf s n).running)) ++ cores).headD 0
  (n, min (strandOf s n).pc 8191)
/-- A RUN whose cores have all executed HALT completes; where its deadline has passed by then, with TIMEOUT (07 R213). `before` is the
state before the last of them halted. -/
def runFinish (before s : State) (id : Nat) : State :=
  match findOp s id with
  | none => s
  | some o =>
    let cores := runCores o
    if cores.any (fun n => (strandOf s n).running) then s
    else if o.deadline.any (passed s) then
      let (n, pc) := runPc before o
      dropStrands (endOp s id (compl 5 0 (BitVec.ofNat 32 (n % 16 * 2 ^ 16)) pc))
    else
      let failing := cores.filter (fun n => (strandOf s n).code != 0)
      let code := match failing with
        | n :: _ => (strandOf s n).code.toNat
        | [] => 0
      dropStrands (endOp s id (compl 0 0 (BitVec.ofNat 32 code) ((failing.map (fun n => 2 ^ (n % 16))).sum)))
/-- A core's HALT takes effect: its transfers have completed. -/
def strandHalted (s : State) (n : Nat) (code : BitVec 16) : State :=
  let c := strandOf s n
  let s1 := setStrand s n { c with running := false, wait := .none, code := code }
  match c.op with
  | some id => runFinish s s1 id
  | none => s1
/-- STRAND_HALT (R235, R241). -/
def execStrandHalt (core : BitVec 6) (code : BitVec 16) (s : State) : Host.Outcome State Fault Refusal :=
  let n := core.toNat
  .next (strandGuard s n true (fun s =>
    let c := strandOf s n
    if c.dq.isEmpty then strandHalted s n code else setStrand s n { c with wait := .halt code }))

/-- Move the words of a transfer's rows; the byte offset of poison met, inward at the source, outward at either. -/
def strandMoveRows (x : StrandXfer) : List (Nat × (Nat × Int)) → State → Option Int × State
  | [], s => (none, s)
  | (r, la, rel) :: rest, s =>
    let word (i : Nat) : Nat := x.base + 2 * (x.loc + (r * x.rowWords + i) * x.step)
    let n := 2 * x.rowWords
    if x.outward then
      match (List.range x.rowWords).find? (fun i => poisonAt s (word i)) with
      | some i => (some (rel + 2 * i), s)
      | none =>
        let s1 := storeLocal s la ((List.range x.rowWords).flatMap (fun i => memBytes s (word i) 2))
        match firstPoison s1 la n with
        | some i => (some (rel + i), s1)
        | none => strandMoveRows x rest s1
    else
      match firstPoison s la n with
      | some i => (some (rel + i), s)
      | none =>
        let bs := memBytes s la n
        strandMoveRows x rest ((List.range x.rowWords).foldl (fun st i => storeLocal st (word i) ((bs.drop (2 * i)).take 2)) s)

/-- STRAND_DMA_DONE (R232, R235): the oldest transfer of a core completes: its data is in place, DSTAT falls, DMADONE is
set; a HALT that waits for the last one takes effect. -/
def execStrandDmaDone (core : BitVec 6) (s : State) : Host.Outcome State Fault Refusal :=
  let n := core.toNat
  let c := strandOf s n
  match c.dq with
  | [] => .next s
  | x :: rest =>
    if fenced s then .next s
    else
      match (x.rows.flatMap (fun r => blocksOf r.1 (2 * x.rowWords))).find? (fun b => !accessReady s b) with
      | some b => .next (askSegment s b)
      | none =>
        match strandMoveRows x (List.zip (List.range x.rows.length) x.rows) s with
        | (some d, s1) => .next (strandEnd s1 n 6 0 d)
        | (none, s1) =>
          let c1 := strandOf s1 n
          let s2 := setStrand s1 n { c1 with
            dq := rest, regs := sset sreg0 c1.regs SReg.ipend (sreg c1 SReg.ipend ||| 1) }
          match c1.wait with
          | .halt code => .next (if rest.isEmpty then strandHalted s2 n code else s2)
          | _ => .next s2

/- RUN and STOP (R239, R240, R242) -/

/-- Step 5 of R194 for RUN and STOP. DESIGN CHOICE (log entry 39): PARAMS bits that the opcode's table neither names nor shows
as — are reserved like the others, STOP [255:176]. -/
def strandFields (_ : State) (o : Op) : Option Nat :=
  let n := 3 * (hdrExt o.desc + 1)
  if o.opcode = 0x41 then
    lowest (faultAt (hdrExt o.desc != 0) 3 ++ wrongKinds o [0, 0, 0] ++ faultAt (param o 176 80 != 0) 22)
  else
    let load := param o 189 1 == 1
    let words := param o 192 14
    lowest ((List.range n).flatMap (fun i =>
        faultAt (slotKind o.desc i == 2 || (decide (8 < i) && slotKind o.desc i != 0)) (128 * (i / 3) + 2)) ++
      faultAt (load != (slotKind o.desc 0 == 1)) 2 ++ faultAt (param o 160 16 == 0) 20 ++ faultAt (param o 191 1 != 0) 23 ++
      faultAt (if load then words == 0 || decide (8192 < words) else words != 0) 24 ++ faultAt (param o 206 2 != 0) 25 ++
      faultAt (param o 221 3 != 0) 27)

/-- Zero a strand core's memories, with their check bits; headland copies of their lines go (05 R133). -/
def clearStrandMem (s : State) (n : Nat) : State :=
  dropLines { s with mem := sclear s.mem (strandBase n) 0x28000, poison := sclear s.poison (strandBase n) 0x28000 }
    none (strandBase n) 0x28000
/-- Load a program into program memory. -/
def loadProgram (s : State) (n : Nat) (bs : List Byte) : State := storeLocal s (strandBase n + 0x20000) bs
/-- A core as a RUN starts it (R240). -/
def strandStart (o : Op) : StrandCore :=
  let arg := param o 224 32
  { strandReset with
    tenant := o.tenant, running := true, op := some o.id, pc := param o 176 13
    q := sset sreg0 (sset sreg0 [] 30 (BitVec.ofNat 16 arg)) 31 (BitVec.ofNat 16 (arg / 2 ^ 16))
    regs := sset sreg0 [] SReg.ivec (BitVec.ofNat 16 (param o 208 13))
    dc := (List.range 8).map (fun i => if slotKind o.desc (1 + i) = 1 then (opSlot o (1 + i)).cap else capNull) }

/-- RUN begins (R240). -/
def runBody (o : Op) : EngM Compl := do
  let s ← get
  let cores := runCores o
  if cores.any (fun n => (strandOf s n).op == some o.id) then throw .goOn
  else
    let keep := param o 190 1 == 1
    for n in cores do
      modify (fun s => if keep && (strandOf s n).tenant == o.tenant then s else clearStrandMem s n)
    let load := param o 189 1 == 1
    let bytes := 4 * param o 192 14
    let prog ← if load then do
        engCapCheck o 0 (rLD ||| rDMA) 0 bytes 1
        let a ← engLocal o .strandDma 0 kRead
        engRead o .strandDma 0 a bytes (fun i => i)
      else pure []
    for n in cores do
      modify (fun s => setStrand (if load then loadProgram s n prog else s) n (strandStart o))
    throw .goOn

/-- A core of the mask is busy with another RUN. -/
def runBlocked (s : State) (o : Op) : Bool :=
  s.ops.any (fun x => x.id != o.id && x.opcode == 0x40 && x.phase == .running && x.queue == o.queue &&
    (runCores x).any (fun n => (runCores o).contains n))
/-- RUN: it begins once every core in its mask is idle. -/
def execRun (op : Nat) (s : State) : Host.Outcome State Fault Refusal :=
  match findOp s op with
  | some o => .next (if o.opcode == 0x40 && o.phase == .waiting && runBlocked s o then s
      else dropStrands (runOp s op 0x40 strandFields runBody))
  | none => .next s

/-- End a RUN with STRAND_STOPPED (R241, R242). -/
def runStop (s : State) (o : Op) : State :=
  let (n, pc) := runPc s o
  dropStrands (endOp s o.id (compl 0x11 0 (BitVec.ofNat 32 (n % 16 * 2 ^ 16)) pc))
/-- STOP (R242): every RUN of its tenant on a named core. -/
def stopBody (o : Op) : EngM Compl := do
  let s ← get
  let named := runCores o
  let runs := s.ops.filter (fun x => x.opcode == 0x40 && x.phase == .running && x.queue == o.queue && x.tenant == o.tenant &&
    named.any (fun n => (strandOf s n).running && (strandOf s n).op == some x.id))
  let stopped := (List.range 16).filter (fun i =>
    let c := strandOf s (16 * (o.queue.toNat - 0x40) + i)
    c.running && runs.any (fun x => c.op == some x.id))
  modify (fun s => runs.foldl runStop s)
  pure (compl 0 0 (BitVec.ofNat 32 (stopped.map (fun i => 2 ^ i)).sum) 0)
/-- STOP: it begins at ingest, ahead of waiting descriptors. -/
def execStrandStop (op : Nat) (s : State) : Host.Outcome State Fault Refusal :=
  .next (runOp s op 0x41 strandFields stopBody)

/- Control (R238, R244) -/

/-- Return a core to its reset state. -/
def strandToReset (s : State) (n : Nat) : State := { clearStrandMem s n with strands := serase s.strands n }
/-- Cores of a group. -/
def groupCores (g : Nat) : List Nat := (List.range 16).map (fun i => 16 * g + i)
/-- STR_GROUP_CTRLg.OFFLINE is set. -/
def groupOfflineSet (s : State) (g : Nat) : State := dropStrands (abortRunning (regOr s (Reg.strGroupCtrl g) 1) (0x40 + g) 2)
/-- STR_GROUP_CTRLg.RESET; the reset is done at ENGINE_RESET_DONE. -/
def groupResetSet (s : State) (g : Nat) : State :=
  let s1 := (groupCores g).foldl strandToReset (dropStrands (abortRunning s (0x40 + g) 2))
  { s1 with resetting := sset markDflt s1.resetting (0x40 + g) true }
/-- STRAND_GROUP_OFFLINE. -/
def execStrandGroupOffline (agent : Agent) (group : BitVec 2) (s : State) : Host.Outcome State Fault Refusal :=
  .next (if platformAgent s agent then groupOfflineSet s group.toNat else s)
/-- STRAND_GROUP_RESET. -/
def execStrandGroupReset (agent : Agent) (group : BitVec 2) (s : State) : Host.Outcome State Fault Refusal :=
  .next (if platformAgent s agent then groupResetSet s group.toNat else s)

end Sys2Proof.Machine
end

