-- ==== Sys2Proof/Machine/Video.lean ====
section
/-! DEFINITION. The video coding unit (spec 09): contexts, reference formats, scheduling, pictures. -/

namespace Sys2Proof.Machine

/-- Replace context `c`. -/
def setVctx (s : State) (c : Nat) (v : Vctx) : State := { s with vctxs := sset (fun _ => vctxReset) s.vctxs c v }
/-- Replace pipe `p`. -/
def setPipe (s : State) (p : Nat) (v : VidPipe) : State := { s with pipes := sset (fun _ => pipeReset) s.pipes p v }
/-- The offset of the lowest byte outside its range (R271); a decode context ignores bytes 9 to 21. -/
def setupFault (b : List Byte) : Option Nat :=
  let bd := vDepth b
  let low : Int := -6 * ((bd : Int) - 8)
  let qp (o : Nat) : Bool := decide (vsetS8 b o < low) || decide (51 < vsetS8 b o)
  let refs := vset b 3 1
  let size (v lo hi : Nat) : Bool := decide (v < lo) || decide (hi < v) || v % 8 != 0
  let range := vset b 18 2
  let wd := vset b 24 4
  lowest (faultAt (vCoding b == 3) 0 ++ faultAt (decide (bd < 8) || decide (16 < bd)) 1 ++ faultAt (decide (186 < vset b 2 1)) 2 ++
    faultAt (refs == 0 || decide (4 < refs)) 3 ++ faultAt (size (vWidth b) 64 8192) 4 ++ faultAt (size (vHeight b) 64 4352) 6 ++
    faultAt (decide (vBufs b < refs + 1) || decide (16 < vBufs b)) 8 ++
    (if vDecode b then [] else
      faultAt (qp 9 || decide (vsetS8 b 9 < vsetS8 b 10) || decide (vsetS8 b 11 < vsetS8 b 9)) 9 ++
      faultAt (qp 10) 10 ++ faultAt (qp 11) 11 ++ faultAt (vCoding b == 2 && vset b 12 4 == 0) 12 ++
      faultAt (if natBit (vset b 0 1) 5 then decide (range < 16) || decide (512 < range) || range % 4 != 0
        else range == 0 || decide (16 < range)) 18 ++
      faultAt (vset b 20 1 == 0 || decide (64 < vset b 20 1)) 20 ++ faultAt (vset b 21 1 == 0 || decide (4 < vset b 21 1)) 21) ++
    faultAt (wd != 0 && (decide (wd < 1000) || decide (10000000 < wd))) 24)

/- Compressed references (R257 to R259) -/

/-- Bits packed from bit 0 upward: their number value and how many. -/
abbrev BitPack := Nat × Nat
/-- Append `w` bits of `v`. -/
def packBits (p : BitPack) (v w : Nat) : BitPack := (p.1 + (v % 2 ^ w) * 2 ^ p.2, p.2 + w)
/-- The prediction of a sample from left, above, above-left. -/
def blockPredict (x y a b c : Nat) : Int :=
  if x = 0 then b else if y = 0 then a
  else if max a b ≤ c then (min a b : Nat) else if c ≤ min a b then (max a b : Nat) else (a : Int) + b - c
/-- The mapped residual of sample `i` of a block (R258). -/
def blockResidual (bd : Nat) (ss : List Nat) (i : Nat) : Nat :=
  let x := i % 8
  let y := i / 8
  let g (j : Nat) : Nat := ss.getD j 0
  let p := blockPredict x y (g (i - 1)) (g (i - 8)) (g (i - 9))
  let half : Int := 2 ^ (bd - 1)
  let e := Int.emod ((g i : Int) - p + half) (2 ^ bd) - half
  if 0 ≤ e then (2 * e).toNat else (-2 * e - 1).toNat
/-- Append a residual under parameter K. -/
def packResidual (bd k : Nat) (p : BitPack) (m : Nat) : BitPack :=
  let q := m / 2 ^ k
  if q < 24 then packBits (packBits (packBits p (2 ^ q - 1) q) 0 1) m k
  else packBits (packBits p (2 ^ 24 - 1) 24) m bd
/-- A predicted block under parameter K. -/
def packPredicted (bd k : Nat) (ss : List Nat) : BitPack :=
  (List.range 63).foldl (fun p i => packResidual bd k p (blockResidual bd ss (i + 1)))
    (packBits (packBits (0, 0) k 5) (ss.getD 0 0) bd)
/-- The predicted code with the K that gives the fewest bits, the lowest such K. -/
def bestPredicted (bd : Nat) (ss : List Nat) : BitPack :=
  (List.range 17).foldl (fun best k =>
    let p := packPredicted bd k ss
    if k = 0 || p.2 < best.2 then p else best) (0, 0)
/-- The header nibble of a block and its units (R257, R259). -/
def blockCode (bd : Nat) (ss : List Nat) : Nat × List Byte :=
  let units (p : BitPack) : Nat := cdiv p.2 256
  let bytes (p : BitPack) : List Byte := toBytes (32 * units p) p.1
  if ss.all (fun v => v == ss.getD 0 0) then (4, toBytes 32 (ss.getD 0 0))
  else
    let raw := ss.foldl (fun p v => packBits p v bd) (0, 0)
    let pred := bestPredicted bd ss
    if units pred < units raw then (8 + (units pred - 1), bytes pred) else (12 + (units raw - 1), bytes raw)

/-- Count one-bits from position `i`, at most `n`. -/
def countOnes (x : Nat) : Nat → Nat → Nat
  | 0, _ => 0
  | n + 1, i => if natBit x i then countOnes x n (i + 1) + 1 else 0
/-- Read a residual: its value and the position after it. -/
def readResidual (bd k x i : Nat) : Nat × Nat :=
  let q := countOnes x 24 i
  if q < 24 then (q * 2 ^ k + (x >>> (i + q + 1)) % 2 ^ k, i + q + 1 + k)
  else ((x >>> (i + 24)) % 2 ^ bd, i + 24 + bd)
/-- Reconstruct the samples after the first. -/
def readPredicted (bd k x : Nat) : Nat → Nat → List Nat → List Nat
  | 0, _, ss => ss
  | n + 1, pos, ss =>
    let i := ss.length
    let (m, pos') := readResidual bd k x pos
    let e : Int := if m % 2 = 0 then ((m / 2 : Nat) : Int) else -(((m + 1) / 2 : Nat) : Int)
    let g (j : Nat) : Nat := ss.getD j 0
    let p := blockPredict (i % 8) (i / 8) (g (i - 1)) (g (i - 8)) (g (i - 9))
    readPredicted bd k x n pos' (ss ++ [(Int.emod (p + e) (2 ^ bd)).toNat])
/-- The 64 samples of a stored block: mode 0 reads as mid-grey. -/
def blockSamples (bd nibble : Nat) (bs : List Byte) : List Nat :=
  let x := ofBytes bs
  match nibble / 4 with
  | 0 => List.replicate 64 (2 ^ (bd - 1))
  | 1 => List.replicate 64 (x % 2 ^ 16)
  | 2 => readPredicted bd (x % 32) x 63 (5 + bd) [(x >>> 5) % 2 ^ bd]
  | _ => (List.range 64).map (fun i => (x >>> (i * bd)) % 2 ^ bd)

/- Descriptors (R272, R273) -/

/-- Stride of the source or the output, in bytes. -/
def vidStride (o : Op) : Nat := 64 * param o 208 16
/-- LENGTH of an access unit. -/
def vidLength (o : Op) : Nat := param o 224 32
/-- PARAMS as bytes. -/
def vidParams (o : Op) : List Byte := bytesAt o.desc 20 12

/-- Step 5 of R194 for the VCU opcodes: an optional slot may be used or unused. -/
def vcuFields (_ : State) (o : Op) : Option Nat :=
  let opt (n : Nat) : Nat := if slotKind o.desc n = 0 then 0 else 1
  let want : List Nat := match o.opcode.toNat with
    | 0x50 => [1, 1, opt 2]
    | 0x51 => [1, 1, opt 2]
    | 0x52 => [1, 1, 1]
    | 0x53 => [0, opt 1, 0]
    | _ => [0, 0, 0]
  lowest (faultAt (hdrExt o.desc != 0) 3 ++ wrongKinds o want ++ faultAt (o.opcode == 0x52 && vidLength o == 0) 28)

/-- An operation with a context's areas in slots 1 and 2. -/
def onAreas (o : Op) (v : Vctx) : Op :=
  { o with slots := [⟨0, capNull, []⟩, ⟨1, v.refArea, []⟩, ⟨1, v.markArea, []⟩] }
/-- Rights of a VCU read and write. -/
def vRead : BitVec 12 := rLD ||| rDMA ||| rVID
/-- Rights of a VCU write. -/
def vWrite : BitVec 12 := rST ||| rDMA ||| rVID
/-- The checks of R63 over the extent a slot names, DETAIL 0, and the slot's local address. -/
def vidSlot (o : Op) (slot : Nat) (mask : BitVec 12) (extent : Nat) : EngM Nat := do
  match capCheck (opSlot o slot).cap 0 mask true (slotCur o slot) extent 1 with
  | some cause => engEnd 4 cause 0
  | none => engLocal o .vcu slot (if mask == vRead then kRead else kWrite)

/-- The context of an operation, configured and of the direction wanted (R273). -/
def vidContext (o : Op) (decode : Option Bool) : EngM Vctx := do
  let s ← get
  let v := vctxOf s (vidCtx o)
  engNeed (v.configured && (match decode with | none => true | some d => vDecode v.setup == d)) 0x20 0 0
  pure v

/-- Earlier operations of a context that must have entered its waiting list or begun (R264): pictures, configurations, flushes. -/
def vidEarlier (s : State) (o : Op) : Bool :=
  s.ops.any (fun x => decide (x.id < o.id) && x.queue == 0x44 && x.opcode != 0x54 && vidCtx x == vidCtx o && x.phase == .waiting &&
    !x.listed)
/-- Discard a context's references (R272, R276): the next picture is key. -/
def discardRefs (v : Vctx) : Vctx :=
  { v with refs := [], stale := v.stale ++ v.refs.map (fun r => r.1), fresh := true }

/- The waiting lists (R264) -/

/-- Pictures waiting in a context's list. -/
def vidWaiting (s : State) (c : Nat) : List Op :=
  s.ops.filter (fun x => x.listed && x.phase == .waiting && (x.opcode == 0x51 || x.opcode == 0x52) && vidCtx x == c)
/-- A VCU descriptor moves into its context's waiting list, unless that holds 8 pictures. -/
def vidList (s : State) (op opcode : Nat) : State :=
  match findOp s op with
  | none => s
  | some o =>
    if o.opcode.toNat != opcode || o.phase != .waiting || o.listed || !readyToBegin s o || vidEarlier s o ||
      decide (8 ≤ (vidWaiting s (vidCtx o)).length) then s
    else noteOps (putOp s { accept s o with listed := true })
/-- A VCU descriptor that is no picture: it waits in its context's list until the earlier ones have completed, and then runs. -/
def vidInOrder (s : State) (op opcode : Nat) (body : Op → EngM Compl) : State :=
  match findOp s op with
  | some o => if o.opcode.toNat == opcode && vidBefore s o then vidList s op opcode else runOp s op opcode vcuFields body
  | none => s

/- Marks of the frame-buffer pool (R260, R261) -/

/-- Local address of the mark record of a buffer. -/
def markAddr (v : Vctx) (i : Nat) : Nat := localPart (capCursor v.markArea).toNat + 32 * i
/-- STATE of a mark. -/
def markState (s : State) (v : Vctx) (i : Nat) : Nat := ofBytes (memBytes s (markAddr v i) 8)
/-- Reach the record of a buffer's mark, as an atomic or as a write: the device field (19 R505), the rule check, waiting, poison
(14 R371, R380). The compare-and-swap of R261 asks the kinds Engine and atomic, though R101 lists no video unit among the agents
that make atomics (DESIGN CHOICE, log entry 32). -/
def markReach (o : Op) (v : Vctx) (i : Nat) (kinds : BitVec 5) : EngM Unit := do
  let a := markAddr v i
  let _ ← engLocal (onAreas o v) .vcu 2 kinds
  engRule (onAreas o v) .vcu 2 (kEngine ||| kinds) true a (32 * i)
  engReady a
  let s ← get
  engNeed (!poisonIn s a 32) 6 0 (32 * i)
/-- Set USE of a mark by an atomic, keeping HOLD and GEN. -/
def markUse (o : Op) (v : Vctx) (i use : Nat) : EngM Unit := do
  markReach o v i kAtomic
  modify (fun s => storeLocal s (markAddr v i) (toBytes 8 (markState s v i / 4 * 4 + use)))
/-- Buffers whose picture ended without a result are free again: USE returns to 0 before the next claim (log entry 32). -/
def settleMarks (o : Op) (v : Vctx) : EngM Unit := do
  for i in v.freed do
    markUse o v i 0
  modify (fun s => setVctx s (vidCtx o) { vctxOf s (vidCtx o) with freed := [] })
/-- Claim a buffer (R261): the lowest whose USE is 0 or 2 and whose HOLD is 0. -/
def claimBuffer (o : Op) (v : Vctx) : EngM Nat := do
  settleMarks o v
  let mut found : Option Nat := none
  for i in List.range (vBufs v.setup) do
    if found.isNone then
      markReach o v i kAtomic
      let s ← get
      if markState s v i % 8 = 0 || markState s v i % 8 = 2 then found := some i
  match found with
  | none => engEnd 0x23 0 0
  | some i =>
    modify (fun s =>
      let st := markState s v i
      let gen := (st / 2 ^ 32 + 1) % 2 ^ 32
      storeLocal s (markAddr v i) (toBytes 8 (st % 2 ^ 32 / 4 * 4 + 3 + gen * 2 ^ 32)))
    pure i

/-- A context after a picture that changes nothing (R273, R274): its buffer is to be freed, and a KEY_REQUEST that it took is
pending again. -/
def pictureUndone (v : Vctx) (x : VidPic) : Vctx :=
  { v with keyPending := v.keyPending || x.tookKey, freed := if vPool v.setup then v.freed ++ [x.buffer] else v.freed }

/-- Pipes let go of pictures whose operation no longer runs. -/
def dropVideo (s : State) : State :=
  let runs (id : Nat) : Bool := s.ops.any (fun o => o.id == id && o.phase == .running)
  (List.range 4).foldl (fun st p =>
    let x := pipeOf st p
    let st1 := if x.starting.any (fun y => !runs y.op) then setPipe st p { x with starting := none } else st
    match x.pic with
    | none => st1
    | some y =>
      if runs y.op then st1
      else setPipe (setVctx st1 y.ctx (pictureUndone (vctxOf st1 y.ctx) y)) p { pipeOf st1 p with pic := none }) s

/- Configuration, flush, key request -/

/-- VCU_CONFIG (R271, R272). -/
def vcuConfigBody (o : Op) : EngM Compl := do
  let s ← get
  settleMarks o (vctxOf s (vidCtx o))
  let a ← vidSlot o 0 vRead 128
  let b ← engRead o .vcu 0 a 128 (fun i => i)
  match setupFault b with
  | some off => engEnd 0x24 0 off
  | none =>
    engNeed ((slotKind o.desc 2 == 1) == vPool b) 1 0 2
    let _ ← vidSlot o 1 (rLD ||| rST ||| rDMA ||| rVID) (vBufs b * vBufSize b)
    if vPool b then
      let _ ← vidSlot o 2 (rLD ||| rST ||| rATOM ||| rDMA ||| rVID) (32 * vBufs b)
    modify (fun s => setVctx s (vidCtx o) { vctxReset with
      configured := true, setup := b, refArea := (opSlot o 1).cap, markArea := (opSlot o 2).cap
      qp := vsetS8 b 9, meanQp := vsetS8 b 9 })
    pure (compl 0 0 (BitVec.ofNat 32 (vBufSize b / 4096)) 0)

/-- VCU_CONFIG: it begins after the context's waiting pictures complete. -/
def execVcuConfig (op : Nat) (s : State) : Host.Outcome State Fault Refusal := .next (vidInOrder s op 0x50 vcuConfigBody)

/-- FLUSH (R272). -/
def flushBody (o : Op) : EngM Compl := do
  let v ← vidContext o none
  if slotKind o.desc 1 = 1 then
    engNeed (!vDecode v.setup) 1 0 2
    let a ← vidSlot o 1 vWrite endOfSequence.length
    engWrite o .vcu 1 kWrite a endOfSequence (fun i => i)
  modify (fun s => setVctx s (vidCtx o) { discardRefs v with history := v.history ++ [⟨1, vidParams o, [], [], 0⟩] })
  pure (complOk 0)

/-- FLUSH: it begins in the order of its context. -/
def execFlush (op : Nat) (s : State) : Host.Outcome State Fault Refusal := .next (vidInOrder s op 0x53 flushBody)

/-- KEY_REQUEST (R263): at ingest. -/
def keyRequestBody (o : Op) : EngM Compl := do
  let v ← vidContext o (some false)
  modify (fun s => setVctx s (vidCtx o) { v with keyPending := true, history := v.history ++ [⟨2, vidParams o, [], [], 0⟩] })
  pure (complOk 0)

/-- A descriptor that takes effect at ingest does so: a STOP (08 R242), a KEY_REQUEST (09 R263, R264). -/
def runAtIngest (s : State) (id : Nat) : State :=
  match findOp s id with
  | some o =>
    if o.opcode = 0x41 then runOp s id 0x41 strandFields stopBody
    else if o.opcode = 0x54 then runOp s id 0x54 vcuFields keyRequestBody
    else s
  | none => s

/-- KEY_REQUEST: one that a change set held at its ingest. -/
def execKeyRequest (op : Nat) (s : State) : Host.Outcome State Fault Refusal :=
  .next (runOp s op 0x54 vcuFields keyRequestBody)

/-- ENCODE enters its context's waiting list. -/
def execEncode (op : Nat) (s : State) : Host.Outcome State Fault Refusal := .next (vidList s op 0x51)
/-- DECODE enters its context's waiting list. -/
def execDecode (op : Nat) (s : State) : Host.Outcome State Fault Refusal := .next (vidList s op 0x52)

/-- The source samples of an ENCODE, row by row. -/
def readSource (o : Op) (a : Nat) (b : List Byte) : EngM (List Byte) := do
  let mut out : List Byte := []
  for y in List.range (vHeight b) do
    let bs ← engRead o .vcu 0 (a + y * vidStride o) (2 * vWidth b) (fun i => y * vidStride o + i)
    out := out ++ bs
  pure out
/-- The access unit of a DECODE; poison is a syntax error at its position, no fault (R267). -/
def readUnit (o : Op) (a : Nat) : EngM (List Byte × List Nat) := do
  for b in blocksOf a (vidLength o) do
    engRule o .vcu 0 (kEngine ||| kRead) false b (b - a)
    engReady b
  let s ← get
  pure (memBytes s a (vidLength o), (List.range (vidLength o)).filter (fun i => poisonAt s (a + i)))

/-- Samples of a pane from its bytes, modulo 2^BIT_DEPTH (R251). -/
def paneSamples (b : List Byte) (data : List Byte) : List Nat := (splitElems 2 (data.length / 2) data).map (fun x => x % 2 ^ vDepth b)

/-- Why a picture is key (R263). -/
def isKey (o : Op) (v : Vctx) : Bool :=
  v.fresh || param o 165 1 == 1 || v.keyPending ||
  (vset v.setup 16 2 != 0 && (v.picture + 1) % 2 ^ 32 % vset v.setup 16 2 == 0)
/-- A buffer for a compressed picture: the lowest that holds no reference. -/
def compressedBuffer (v : Vctx) : Nat :=
  ((List.range (vBufs v.setup)).find? (fun i => !v.refs.any (fun r => r.1 == i))).getD 0

/-- An uncorrectable internal error or a poisoned source read (R276): the references are discarded. -/
def vidUpset (s : State) (o : Op) (record : Bool) : State :=
  let c := vidCtx o
  let s1 := regOr (setVctx s c (discardRefs (vctxOf s c))) Reg.vcuErr 1
  if record then recordEvent s1
    { cls := 3, source := 5, unit := c, code := 1, tenant := o.tenant.toNat, action := 3, addr := 0, payload := opPayload o 6 0 }
  else s1

/-- The watchdog's deadline of a picture that began at a TBC (R266). -/
def vidDeadline (since : W64) (b : List Byte) : W64 := since + BitVec.ofNat 64 (1000 * vWatchdog b)
/-- The picture that pipe `p` has taken begins its work. A DECODE whose watchdog has expired by then decodes nothing any more. -/
def startBody (p : Nat) (x : VidStart) (o : Op) : EngM Compl := do
  let decode := decide (2 ≤ p)
  let v ← vidContext o (some decode)
  let b := v.setup
  let (data, poison) ← if decode then do
      let a ← vidSlot o 0 vRead (vidLength o)
      let _ ← vidSlot o 1 vWrite (vidStride o * vHeight b)
      let _ ← vidSlot o 2 vWrite 32
      if x.expired then pure ([], []) else readUnit o a
    else do
      let a ← vidSlot o 0 vRead (max (vidStride o * vHeight b) ((vHeight b - 1) * vidStride o + 2 * vWidth b))
      let _ ← vidSlot o 1 vWrite 0
      if slotKind o.desc 2 = 1 then
        let _ ← vidSlot o 2 vWrite (4 * vRows b)
      let bs ← tryCatch (readSource o a b) (fun e => do
        match e with
        | .fin c => if c.status = 6 then modify (fun s => vidUpset s o false)
        | _ => pure ()
        throw e)
      pure (bs, [])
  let buf ← if vPool b then claimBuffer o v else pure (compressedBuffer v)
  let key := isKey o { v with keyPending := x.key }
  let kind := if !key then 2 else if natBit (vset b 0 1) 7 && v.picture != 0 then 1 else 0
  let isOver := !decode && (splitElems 2 (data.length / 2) data).any (fun x => decide (2 ^ vDepth b ≤ x))
  let pic : VidPic :=
    { op := o.id, ctx := vidCtx o, buffer := buf, kind := kind, poc := if kind = 0 then 0 else v.lastPoc + 1, data := data,
      poison := poison, isOver := isOver, past := x.past, tookKey := key && x.key, rows := [], coded := []
      watchdog := vidDeadline x.since b, expired := if x.expired then some 0 else none }
  modify (fun s =>
    let c := vctxOf s (vidCtx o)
    let s1 := if decode || !key then s
      else setVctx s (vidCtx o) { c with keyPending := (c.history.drop x.past).any (fun e => e.kind == 2) }
    setPipe s1 p { pic := some pic, starting := none, recent := ((!vLive b) :: (pipeOf s1 p).recent).take 8 })
  throw .goOn

/-- The picture that pipe `p` works on next: the one it has taken already, or the one it takes now. -/
def pipeStart (s : State) (p : Nat) : Option VidStart :=
  match (pipeOf s p).starting with
  | some x => some x
  | none => (pipeTakes s p).map (fun o =>
      let v := vctxOf s (vidCtx o)
      ⟨o.id, vidCtx o, s.tbc, v.keyPending, v.history.length, false⟩)

/-- PICTURE_START (R265): of two free pipes the lower-numbered chooses first. A pipe whose picture must wait for memory keeps it. -/
def execPictureStart (pipe : BitVec 2) (s : State) : Host.Outcome State Fault Refusal :=
  let p := pipe.toNat
  let lowerFree := p % 2 == 1 && !pipeBusy s (p - 1) && (pipeOf s p).starting.isNone
  if (pipeOf s p).pic.isSome || lowerFree then .next s
  else
    match pipeStart s p with
    | none => .next s
    | some x =>
      if (findOp s x.op).any (fun o => o.phase == .waiting && !mayBegin s o) then .next s
      else
      let s1 := setPipe s p { pipeOf s p with starting := some x }
      .next (dropVideo (runOp s1 x.op (if 2 ≤ p then 0x52 else 0x51) vcuFields (startBody p x)))

/- CTU rows and rate control (R254, R255) -/

/-- The start QP of a picture. -/
def qpStart (v : Vctx) (x : VidPic) : Int :=
  let b := v.setup
  if x.kind != 2 then vsetS8 b 9 else max (vsetS8 b 10) (min (vsetS8 b 11) v.meanQp)
/-- The QP of the next row. -/
def nextQp (v : Vctx) (x : VidPic) : Int :=
  let b := v.setup
  let r := x.rows.length
  if vCoding b != 2 then vsetS8 b 9
  else if r < 2 then qpStart v x
  else
    let per := vset b 12 4 / vRows b
    let done : Nat := 8 * ((x.rows.take (r - 1)).map (fun y => y.2.length)).sum
    let want : Nat := (r - 1) * per
    let full : Int := ((16 * per : Nat) : Int)
    let gain : Int := vset b 20 1
    let d : Int := if per = 0 then 0 else Int.fdiv (2 * (((done : Int) - (want : Int)) * gain) + full) (2 * full)
    let step : Int := vset b 21 1
    let q : Int := (x.rows.getD (r - 1) (0, [])).1 + max (-step) (min step d)
    max (vsetS8 b 10) (min (vsetS8 b 11) q)
/-- What a picture is to the coder (R253): a source sample above BIT_DEPTH counts modulo 2^BIT_DEPTH (R251). -/
def vidNow (o : Op) (b : List Byte) (x : VidPic) : VidStep :=
  ⟨0, vidParams o, if vDecode b then x.data else (paneSamples b x.data).flatMap (toBytes 2), [], 0⟩
/-- What a coded picture is to those after it: with its row QPs, and with its references where it is a P picture. -/
def vidCoded (o : Op) (v : Vctx) (x : VidPic) : VidStep :=
  { vidNow o v.setup x with qps := x.rows.map (fun y => y.1), refs := if x.kind = 2 then v.refs.length else 0 }
/-- What a picture's context had begun before it (R253). -/
def vidPast (v : Vctx) (x : VidPic) : List VidStep := v.history.take x.past
/-- What it has begun with the picture in its place. -/
def vidHistory (v : Vctx) (x : VidPic) (now : VidStep) : List VidStep := vidPast v x ++ [now] ++ v.history.drop x.past

/-- A reconstructed sample of a picture: in lossless coding the source's (R252, R260). -/
def reconSample (b : List Byte) (history : List VidStep) (now : VidStep) (i : Nat) : Nat :=
  if vLossless b then numAt now.data (2 * i) 2 else Config.encodeRecon b history now i % 2 ^ vDepth b
/-- The pictures that a context has coded, the last first, each with what was begun before it. -/
def pastPictures (history : List VidStep) : List (List VidStep × VidStep) :=
  (List.range history.length).reverse.filterMap (fun i =>
    (history[i]?).bind (fun st => if st.kind = 0 then some (history.take i, st) else none))
/-- The motion search (R262): the vector found for a prediction unit in reference `j`. `refs` and `qps` are the picture's references
and the QPs of its rows; the first argument bounds how far the search leans on earlier ones. The candidates are those that
H.265 derives from the vectors found for other units, spatial and temporal, and the vector found for the unit's place in the previous
picture (DESIGN CHOICE, log entry 32). -/
def motionVectors (b : List Byte) : Nat → List VidStep → VidStep → Nat → List Int → Pu → Nat → Int × Int
  | 0, _, _, _, _, _, _ => (0, 0)
  | n + 1, history, now, refs, qps, u, j =>
    match ((pastPictures history).take refs)[j]? with
    | none => (0, 0)
    | some (h, st) =>
      let found (k : Nat) (w : Pu) (r : Nat) : Int × Int :=
        if k = 0 then motionVectors b n history now refs qps w r
        else
          match (pastPictures history)[k - 1]? with
          | none => (0, 0)
          | some (h', st') => motionVectors b n h' st' st'.refs st'.qps w r
      let near := Config.mvCandidates b history now u j found
      let colocated := found 1 u j
      let plane (sample : Nat → Nat) : Plane := planeOf (vWidth b) (vHeight b) sample
      let src := plane (fun i => numAt now.data (2 * i) 2)
      let ref := plane (reconSample b h st)
      let at_ (f : Nat) (p : Plane) : Plane := if f = 1 then p else Config.downSample f p
      let cost (f : Nat) (mv : Int × Int) : Nat :=
        unitSad (vDepth b) (at_ f src) (at_ f ref) (puScaled u f) mv +
          motionLambda (vLossless b) (vDepth b) (qps.getD (u.y / 64) 0) * mvBits near (f * mv.1, f * mv.2)
      let gmv (k : Nat) : Int := (BitVec.ofNat 16 (numAt now.params k 2)).toInt
      if natBit (vset b 0 1) 5 then searchLevels cost (vset b 18 2)
      else searchRefine (cost 1) (vset b 18 2) (near ++ [(gmv 2, gmv 4), colocated])
/-- The searches that one can lean on: one for each 8 × 8 place of each picture of the context. -/
def searchDepth (b : List Byte) (history : List VidStep) : Nat := (history.length + 1) * (vWidth b / 8 * (vHeight b / 8) + 1)

/-- CTUs of a row of a pane. -/
def vCols (b : List Byte) : Nat := cdiv (vWidth b) 64
/-- The next row may begin (R254): the row above has two CTUs coded, and the one above that is complete. -/
def rowMayBegin (b : List Byte) (x : VidPic) : Bool :=
  let r := x.rows.length
  decide (r < vRows b) && (r == 0 || decide (min 2 (vCols b) ≤ x.coded.getD (r - 1) 0)) &&
    (decide (r < 2) || x.coded.getD (r - 2) 0 == vCols b)
/-- One CTU more of each row begun whose upper row is far enough ahead: the wavefront's order (R249, R254). -/
def codeCtus (b : List Byte) (x : VidPic) : VidPic :=
  { x with coded := (List.range x.coded.length).map (fun i =>
      let k := x.coded.getD i 0
      if k < vCols b && (i == 0 || decide (min (k + 2) (vCols b) ≤ x.coded.getD (i - 1) 0)) then k + 1 else k) }
/-- Rows of the picture that an ENCODE has completed. -/
def rowsDone (s : State) (op : Nat) : Nat :=
  match (List.range 2).findSome? (fun p => (pipeOf s p).pic.filter (fun x => x.op == op)) with
  | none => 0
  | some x => (x.coded.filter (fun k => k == vCols (vctxOf s x.ctx).setup)).length
/-- The encode pipes work on (R254): CTUs are coded while time passes. -/
def encodeTick (s : State) : State :=
  if fenced s then s
  else { s with pipes := s.pipes.map (fun e => (e.1,
    { e.2 with pic := if e.1 < 2 then e.2.pic.map (fun x => codeCtus (vctxOf s x.ctx).setup x) else e.2.pic })) }

/-- CTU_ROW_BEGIN (R254, R255): the next row of the picture on an encode pipe. -/
def execCtuRowBegin (pipe : BitVec 1) (s : State) : Host.Outcome State Fault Refusal :=
  let p := pipe.toNat
  match (pipeOf s p).pic with
  | none => .next s
  | some x =>
    match findOp s x.op with
    | none => .next s
    | some o =>
      let v := vctxOf s x.ctx
      let b := v.setup
      if !rowMayBegin b x || fenced s then .next s
      else
        let q := nextQp v x
        let now := vidNow o b x
        let qps := x.rows.map (fun y => y.1) ++ [q]
        let bs := Config.encodeRow b (vidPast v x) now x.kind qps x.rows.length
          (motionVectors b (searchDepth b (vidPast v x)) (vidPast v x) now (if x.kind = 2 then v.refs.length else 0) qps)
        .next (setPipe s p { pipeOf s p with pic := some { x with rows := x.rows ++ [(q, bs)], coded := x.coded ++ [0] } })

/- The end of a picture -/

/-- Samples of the picture that becomes a reference (R252, R260). -/
def encodeRecon (o : Op) (v : Vctx) (x : VidPic) : List Nat :=
  (List.range (vWidth v.setup * vHeight v.setup)).map (reconSample v.setup (vidPast v x) (vidCoded o v x))

/-- Store a picture of WIDTH × HEIGHT samples in a buffer of the reference area (R256 to R260). -/
def storePicture (o : Op) (v : Vctx) (buf : Nat) (ss : List Nat) : EngM Unit := do
  let b := v.setup
  let base ← engLocal (onAreas o v) .vcu 1 kWrite
  let off := buf * vBufSize b
  let w := vWidth b
  let put (at_ : Nat) (bs : List Byte) : EngM Unit :=
    engWrite (onAreas o v) .vcu 1 kWrite (base + off + at_) bs (fun i => off + at_ + i)
  if vPool b then
    for y in List.range (vHeight b) do
      put (y * vStride b) (((ss.drop (y * w)).take w).flatMap (toBytes 2))
  else
    let cols := w / 8
    let n := cols * (vHeight b / 8)
    let block (i : Nat) : List Nat := (List.range 64).map (fun j =>
      ss.getD ((i / cols * 8 + j / 8) * w + (i % cols * 8 + j % 8)) 0)
    let codes := (List.range n).map (fun i => blockCode (vDepth b) (block i))
    let nibble (i : Nat) : Nat := (codes.getD i (0, [])).1
    put 0 ((List.range (vHdr b)).map (fun i => BitVec.ofNat 8 (nibble (2 * i) + 16 * nibble (2 * i + 1))))
    for i in List.range n do
      put (vHdr b + 128 * i) (codes.getD i (0, [])).2

/-- Read a buffer of the reference area as samples. -/
def loadPicture (o : Op) (v : Vctx) (buf : Nat) : EngM (List Nat) := do
  let b := v.setup
  let base ← engLocal (onAreas o v) .vcu 1 kRead
  let off := buf * vBufSize b
  let w := vWidth b
  let take (at_ n : Nat) : EngM (List Byte) := engRead (onAreas o v) .vcu 1 (base + off + at_) n (fun i => off + at_ + i)
  let mut rows : List Nat := []
  if vPool b then
    for y in List.range (vHeight b) do
      let bs ← take (y * vStride b) (2 * w)
      rows := rows ++ splitElems 2 w bs
    pure rows
  else
    let cols := w / 8
    let mut blocks : List (List Nat) := []
    for i in List.range (cols * (vHeight b / 8)) do
      let h ← take (i / 2) 1
      let nib := ofBytes h / 16 ^ (i % 2) % 16
      let bs ← if nib / 4 = 0 then pure [] else take (vHdr b + 128 * i) (32 * (nib % 4 + 1))
      blocks := blocks ++ [blockSamples (vDepth b) nib bs]
    let all := blocks
    pure ((List.range (w * vHeight b)).map (fun i =>
      (all.getD (i / w / 8 * cols + i % w / 8) []).getD (i / w % 8 * 8 + i % w % 8) 0))

/-- The marks at the end of a picture (R261): the new buffer, and those that have left the reference list. -/
def endMarks (o : Op) (v : Vctx) (x : VidPic) (poc : Int) (isRef : Bool) (left : List Nat) : EngM Unit := do
  if vPool v.setup then
    markReach o v x.buffer kWrite
    modify (fun s => storeLocal s (markAddr v x.buffer + 8) (toBytes 4 (BitVec.ofInt 32 poc).toNat ++
      toBytes 4 ((v.picture + 1) % 2 ^ 32) ++ toBytes 8 s.tbc.toNat))
    markUse o v x.buffer (if isRef then 1 else 2)
    for i in left do
      if i != x.buffer then markUse o v i 2

/-- Mean of row QPs, rounded half up. -/
def meanQp (qs : List Int) : Int :=
  if qs.isEmpty then 0 else Int.fdiv (2 * qs.sum + qs.length) (2 * qs.length)

/-- An ENCODE ends (R252, R255, R261, R272). A P picture has read its references, under the checks of every access (04 R94); what it
makes of them depends only on what R253 names. -/
def encodeEnd (p : Nat) (x : VidPic) (o : Op) : EngM Compl := do
  let s ← get
  let v := vctxOf s x.ctx
  let b := v.setup
  let qs := x.rows.map (fun y => y.1)
  let now := vidNow o b x
  let recon := encodeRecon o v x
  let stream := streamHead b (vidPast v x) now x.kind (x.rows.map (fun y => y.2.length)) ++ x.rows.flatMap (fun y => y.2) ++
    (if vHash b then hashSei (vDepth b) recon else [])
  let a1 ← vidSlot o 1 vWrite 0
  engNeed (decide (stream.length ≤ slotRoom o 1)) 0x22 0 stream.length
  engWrite o .vcu 1 kWrite a1 stream (fun i => i)
  if slotKind o.desc 2 = 1 then
    let a2 ← vidSlot o 2 vWrite (4 * vRows b)
    engWrite o .vcu 2 kWrite a2 (x.rows.flatMap (fun y => toBytes 4 y.2.length)) (fun i => i)
  if x.kind = 2 then
    for r in v.refs do
      let _ ← loadPicture o v r.1
  storePicture o v x.buffer recon
  let old := if x.kind = 2 then v.refs else []
  let refs := ((x.buffer, x.poc) :: old).take (vset b 3 1)
  let left := (v.stale ++ v.refs.map (fun r => r.1)).filter (fun i => !refs.any (fun r => r.1 == i))
  endMarks o v x x.poc true left
  modify (fun s =>
    let s1 := setVctx s x.ctx { v with
      picture := (v.picture + 1) % 2 ^ 32, lastPoc := x.poc, qp := qs.getLastD v.qp, refs := refs, stale := [], fresh := false
      meanQp := meanQp qs, history := vidHistory v x (vidCoded o v x) }
    regWrapAdd (setPipe s1 p { pipeOf s1 p with pic := none }) Reg.vcuEncSamples (vWidth b * vHeight b))
  let lo := qs.foldl min (qs.headD 0)
  let hi := qs.foldl max (qs.headD 0)
  let u8 (q : Int) : Nat := (BitVec.ofInt 8 q).toNat
  pure (compl 0 (if x.isOver then 2 else 0) (BitVec.ofNat 32 stream.length)
    ((BitVec.ofInt 32 x.poc).toNat + x.kind * 2 ^ 32 + u8 lo * 2 ^ 40 + u8 hi * 2 ^ 48 +
      (if vPool b then x.buffer * 2 ^ 56 else 0)))

/-- What decoding a CTU has taken of its slice runs beyond LENGTH or meets a poisoned byte: a syntax error there (R266, R267). -/
def ctuBroken (v : Vctx) (now : VidStep) (x : VidPic) (i : Nat) : Bool :=
  (Config.ctuBytes v.setup (vidPast v x) now i).any (fun r =>
    decide (x.data.length < r.2) || x.poison.any (fun k => decide (r.1 ≤ k) && decide (k < r.2)))
/-- The code of each CTU, those the watchdog left undecoded being 4 (R266, R268). -/
def decodeCodes (v : Vctx) (now : VidStep) (x : VidPic) (n : Nat) : List Nat :=
  (List.range n).map (fun i =>
    if x.expired.any (fun k => decide (k ≤ i)) then 4
    else if ctuBroken v now x i then 1
    else (Config.decodeCode v.setup (vidPast v x) now x.poison (v.refs.map (fun r => r.2)) i).val)
/-- The NAL unit that makes a stream unsupported (R250, R271): the context's WIDTH, HEIGHT, BIT_DEPTH and NBUF are upper limits. -/
def unsupportedAt (b : List Byte) (d : Decoded) : Option Nat :=
  if d.chroma != 0 || decide (16 < d.depth) || decide (vDepth b < d.depth) || !d.monochrome || d.highTier || decide (186 < d.level) ||
    decide (vWidth b < d.width) || decide (vHeight b < d.height) || decide (vBufs b < d.dpb) then some d.sets
  else d.unsupported
/-- The error map (R268). -/
def errorMap (poc : Int) (cols rows : Nat) (d : Decoded) (expired : Bool) (codes : List Nat) : List Byte :=
  toBytes 4 (BitVec.ofInt 32 poc).toNat ++ toBytes 2 cols ++ toBytes 2 rows ++
  toBytes 4 (codes.filter (fun c => c != 0)).length ++
  toBytes 20 ((if d.hashPresent then 1 else 0) + (if d.hashMismatch then 2 else 0) + (if expired then 4 else 0)) ++
  codes.map (fun c => BitVec.ofNat 8 c)

/-- The picture of R267 that conceals: the reference with the highest POC below the current one. -/
def concealFrom (v : Vctx) (poc : Int) : Option Nat :=
  (v.refs.foldl (fun (a : Option (Nat × Int)) r =>
    if r.2 < poc then (match a with | some m => if m.2 < r.2 then some r else a | none => some r) else a) none).map (fun r => r.1)

/-- A DECODE ends (R250, R266 to R268, R272): it always completes. -/
def decodeEnd (p : Nat) (x : VidPic) (o : Op) : EngM Compl := do
  let s ← get
  let v := vctxOf s x.ctx
  let b := v.setup
  let now := vidNow o b x
  let d := Config.decodeUnit b (vidPast v x) now x.poison
  match unsupportedAt b d with
  | some off => engEnd 0x21 0 off
  | none =>
    if d.rasl then
      if vPool b then
        markUse o v x.buffer 0
      modify (fun s =>
        let s1 := setVctx s x.ctx { v with history := vidHistory v x now }
        setPipe s1 p { pipeOf s1 p with pic := none })
      pure (compl 0 16 0 (BitVec.ofInt 32 d.poc).toNat)
    else
      let w := d.width
      let h := d.height
      let ctu := 2 ^ max 4 (min 6 d.ctuLog)
      let cols := cdiv w ctu
      let rows := cdiv h ctu
      let codes := decodeCodes v now x (cols * rows)
      let bad (i : Nat) : Bool := let c := codes.getD i 0; c == 1 || c == 2 || c == 4
      let mut held : List (Nat × Int × List Nat) := []
      for r in v.refs do
        let ss ← loadPicture o v r.1
        held := held ++ [(r.1, r.2, ss)]
      let pictures := held
      let mid := 2 ^ (vDepth b - 1)
      let from_ (f : Nat × Int × List Nat → Bool) (i : Nat) : Nat := ((pictures.find? f).map (fun e => e.2.2.getD i mid)).getD mid
      let sample (xx yy : Nat) : Nat :=
        if bad (yy / ctu * cols + xx / ctu) then from_ (fun e => concealFrom v d.poc == some e.1) (yy * vWidth b + xx)
        else Config.decodeSample b (vidPast v x) now x.poison (fun poc => from_ (fun e => e.2.1 == poc)) (yy * w + xx) % 2 ^ d.depth
      let a1 ← vidSlot o 1 vWrite (vidStride o * vHeight b)
      for y in List.range h do
        let row := ((List.range w).flatMap (fun xx => toBytes 2 (sample xx y))).take (vidStride o)
        engWrite o .vcu 1 kWrite (a1 + y * vidStride o) row (fun i => y * vidStride o + i)
      let a2 ← vidSlot o 2 vWrite (32 + cols * rows)
      engWrite o .vcu 2 kWrite a2 (errorMap d.poc cols rows d x.expired.isSome codes) (fun i => i)
      storePicture o v x.buffer ((List.range (vWidth b * vHeight b)).map (fun i =>
        if i % vWidth b < w && i / vWidth b < h then sample (i % vWidth b) (i / vWidth b) else mid))
      let kept := v.refs.filter (fun r => d.keep.contains r.2)
      let refs := if d.isRef then (x.buffer, d.poc) :: kept else kept
      let left := (v.stale ++ v.refs.map (fun r => r.1)).filter (fun i => !refs.any (fun r => r.1 == i))
      endMarks o v x d.poc d.isRef left
      modify (fun s =>
        let s1 := setVctx s x.ctx { v with
          picture := (v.picture + 1) % 2 ^ 32, lastPoc := d.poc, refs := refs, stale := [], fresh := false
          history := vidHistory v x now }
        regWrapAdd (setPipe s1 p { pipeOf s1 p with pic := none }) Reg.vcuDecSamples (w * h))
      pure (compl 0 ((if codes.any (fun c => c != 0 && c != 3) then 1 else 0) + (if x.expired.isSome then 2 else 0) +
          (if codes.any (fun c => c == 3) then 4 else 0) + (if d.hashMismatch then 8 else 0))
        (BitVec.ofNat 32 (codes.filter (fun c => c != 0)).length)
        ((BitVec.ofInt 32 d.poc).toNat + x.buffer * 2 ^ 32))

/-- The picture on a pipe may end: an ENCODE once every row is complete, a DECODE before its watchdog, or after it expired. -/
def pictureReady (s : State) (p : Nat) (x : VidPic) : Bool :=
  let b := (vctxOf s x.ctx).setup
  if p < 2 then x.rows.length == vRows b && x.coded.all (fun k => k == vCols b)
  else x.expired.isSome || !reached s x.watchdog

/-- PICTURE_END (R261, R276). `upset`: an uncorrectable internal error ends it with POISON; one that strikes while the unit is being reset,
when no picture is left, leaves its record, which names no context (20 R543). -/
def execPictureEnd (pipe : BitVec 2) (upset : Bool) (s : State) : Host.Outcome State Fault Refusal :=
  let p := pipe.toNat
  match (pipeOf s p).pic with
  | none =>
    .next (if upset && sget markDflt s.resetting 0x44 then recordEvent (regOr s Reg.vcuErr 1)
        { cls := 3, source := 5, unit := 0, code := 1, tenant := 0xFF, action := 3, addr := 0, payload := [] }
      else s)
  | some x =>
    match findOp s x.op with
    | none => .next s
    | some o =>
      if upset then .next (noteOps (dropVideo (endOp (vidUpset s o true) x.op (compl 6 0 0 0))))
      else if !pictureReady s p x then .next s
      else .next (noteOps (dropVideo (runOp s x.op o.opcode.toNat vcuFields (if p < 2 then encodeEnd p x else decodeEnd p x))))

/-- DECODE_WATCHDOG (R266, R274): at the deadline decoding stops; how many CTUs were decoded is a free value, none where the access unit was
not yet at hand. -/
def execDecodeWatchdog (pipe : BitVec 1) (s : State) : Host.Outcome State Fault Refusal :=
  let p := 2 + pipe.toNat
  if fenced s then .next s
  else
    match (pipeOf s p).pic, (pipeOf s p).starting with
    | some x, _ =>
      if x.expired.isSome || !reached s x.watchdog then .next s
      else
        let (n, s1) := freeNext s
        .next (regOr (setPipe s1 p { pipeOf s1 p with pic := some { x with expired := some n.toNat } }) Reg.vcuErr 2)
    | none, some y =>
      if y.expired || !reached s (vidDeadline y.since (vctxOf s y.ctx).setup) then .next s
      else .next (regOr (setPipe s p { pipeOf s p with starting := some { y with expired := true } }) Reg.vcuErr 2)
    | none, none => .next s

/- Control (R270) and the status records (R269) -/

/-- VCU_CTRL.OFFLINE is set. -/
def vcuOfflineSet (s : State) : State := dropVideo (abortRunning (regOr s Reg.vcuCtrl 1) 0x44 2)
/-- VCU_CTRL.RESET: each context keeps its configuration and loses its references. -/
def vcuResetSet (s : State) : State :=
  let s1 := dropVideo (abortRunning s 0x44 2)
  let s2 := (List.range 32).foldl (fun st c => setVctx st c (discardRefs (vctxOf st c))) s1
  { s2 with resetting := sset markDflt s2.resetting 0x44 true }
/-- VCU_OFFLINE. -/
def execVcuOffline (agent : Agent) (s : State) : Host.Outcome State Fault Refusal :=
  .next (if platformAgent s agent then vcuOfflineSet s else s)
/-- VCU_RESET. -/
def execVcuReset (agent : Agent) (s : State) : Host.Outcome State Fault Refusal :=
  .next (if platformAgent s agent then vcuResetSet s else s)

/-- Current QP of a context: that of the last row begun of its picture in progress, else of its last picture. -/
def vctxQp (s : State) (c : Nat) : Int :=
  match (List.range 2).findSome? (fun p => (pipeOf s p).pic.filter (fun x => x.ctx == c && x.rows != [])) with
  | some x => (x.rows.getLastD (0, [])).1
  | none => (vctxOf s c).qp

/-- The 256-byte status record of a context (R269). -/
def vcuRecord (s : State) (c : Nat) : List Byte :=
  let v := vctxOf s c
  bytesAt v.setup 0 128 ++ toBytes 4 v.picture ++ toBytes 4 (BitVec.ofInt 32 v.lastPoc).toNat ++
  toBytes 1 (BitVec.ofInt 8 (vctxQp s c)).toNat ++ toBytes 1 ((if vctxBusy s c then 1 else 0) + (if v.keyPending then 2 else 0)) ++
  List.replicate 118 0
/-- VCTX_STATUSc (R270). -/
def vctxStatusWord (s : State) (c : Nat) : Nat :=
  let v := vctxOf s c
  (if v.configured then 1 else 0) + (if vDecode v.setup then 2 else 0) + (if vLive v.setup then 4 else 0) +
  (if vctxBusy s c then 8 else 0) + (if v.keyPending then 16 else 0) + (vctxOwnerOf s c).toNat * 2 ^ 8 + v.picture * 2 ^ 16

end Sys2Proof.Machine
end

