-- ==== Sys2Proof/Machine/Hbm.lean ====
section
/-! DEFINITION. Stacked memory (spec 14): check-code outcomes, zeroing, memory-side adds, temperature and thermal states,
and the PHYs. -/

namespace Sys2Proof.Machine

/- Records (R387; 20 R525) -/

/-- A stacked-memory record of class 4. -/
def stackRecord (s : State) (n code : Nat) : State :=
  recordEvent s { cls := 4, source := 9, unit := n, code := code, tenant := 0xFF, action := 4, addr := 0, payload := [] }

/- Segments (R374) -/

/-- The stack holds the whole segment, or every stack that does is offline: nothing of it remains to zero. -/
def segmentGone (s : State) (seg : Nat) : Bool :=
  let i := 8 * (24 - regFld s Reg.hbmConfig 8 5) * 16
  if seg < i then (List.range 8).all (fun n => stackOffline s n) else stackOffline s (stackOf s (seg * 0x4000000))
/-- Segments completed so far. -/
def segmentsDone (s : State) : Nat := s.zeroed.length
/-- HBM_ZERO shows the completed segments. -/
def showZeroed (s : State) : State :=
  let n := segmentsDone s
  readyCheck (regSet s Reg.hbmZero (BitVec.ofNat 64 (n + (if n = 3072 then 2 ^ 31 else 0))))
/-- A segment is complete: it holds zeros with clear tags and no poison. -/
def zeroSegment (s : State) (seg : Nat) : State :=
  let a := seg * 0x4000000
  { s with mem := sclear s.mem a 0x4000000, tags := sclear s.tags a 0x4000000, poison := sclear s.poison a 0x4000000
           zeroed := sset (fun _ => false) s.zeroed seg true, zeroFront := s.zeroFront.filter (fun x => x != seg) }
/-- Segments with nothing to zero are complete at once. -/
def zeroGone (s : State) : State :=
  let gone := (List.range 3072).filter (fun g => !sget (fun _ => false) s.zeroed g && segmentGone s g)
  showZeroed (gone.foldl zeroSegment s)
/-- The segment that is zeroed next: the front of the order, else the lowest left. -/
def nextSegment (s : State) : Option Nat :=
  match s.zeroFront with
  | g :: _ => some g
  | [] => (List.range 3072).find? (fun g => !sget (fun _ => false) s.zeroed g)

/-- Zeroing may write the segment: none of its units lies on a Critical stack, which takes no access of class N (R381, R382), nor on
one that relocks. -/
def segmentReady (s : State) (seg : Nat) : Bool :=
  (List.range 8).all (fun n => stackOffline s n || (stackState s n != 2 && !sget markDflt s.hbm.held n) ||
    (decide (8 * (24 - regFld s Reg.hbmConfig 8 5) * 16 ≤ seg) && stackOf s (seg * 0x4000000) != n))

/-- SEGMENT_ZEROED (R374). -/
def execSegmentZeroed (segment : BitVec 12) (s : State) : Host.Outcome State Fault Refusal :=
  if s.hbm.trained && nextSegment s == some segment.toNat && segmentReady s segment.toNat then .next (showZeroed (zeroSegment s segment.toNat))
  else .next s

/- Check code (R369 to R373) -/

/-- Multiply by the root of x^10 + x^3 + 1 in GF(2^10). -/
def gfTwice (x : BitVec 10) : BitVec 10 := if bitAt x 9 then (x <<< 1) ^^^ 9#10 else x <<< 1
/-- α^n times x. -/
def gfScale : Nat → BitVec 10 → BitVec 10
  | 0, x => x
  | n + 1, x => gfScale n (gfTwice x)
/-- One step of division by g(x) = (x − 1)(x − α)(x − α²): the remainder of x times a remainder (c0, c1, c2). The
coefficients of g are α³ at x⁰, 1·α + 1·α² + α³ at x¹, and 1 + α + α² at x². -/
def rsShift (r : BitVec 10 × BitVec 10 × BitVec 10) : BitVec 10 × BitVec 10 × BitVec 10 :=
  let t := r.2.2
  let g0 := gfScale 3 t
  let g1 := gfScale 1 t ^^^ gfScale 2 t ^^^ gfScale 3 t
  let g2 := t ^^^ gfScale 1 t ^^^ gfScale 2 t
  (g0, r.1 ^^^ g1, r.2.1 ^^^ g2)
/-- The remainder of e·x^i. -/
def rsError (e : BitVec 10) : Nat → BitVec 10 × BitVec 10 × BitVec 10
  | 0 => (e, 0, 0)
  | i + 1 => rsShift (rsError e i)
/-- The check symbols of the data symbols d_0 … (R369): the sum of d_i · x^(i+3) modulo g. -/
def rsCheck (ds : List (BitVec 10)) : BitVec 10 × BitVec 10 × BitVec 10 :=
  rsShift (rsShift (rsShift (ds.foldr (fun d r => let t := rsShift r; (t.1 ^^^ d, t.2.1, t.2.2)) (0, 0, 0))))
/-- The 26 data symbols of a unit: its 32 bytes, then the tags of its two granules (R369). -/
def unitSymbols (s : State) (u : Nat) : List (BitVec 10) :=
  let m := ofBytes (memBytes s u 32) + 2 ^ 256 * ((if tagAt s u then 1 else 0) + (if tagAt s (u + 16) then 2 else 0))
  (List.range 26).map (fun i => BitVec.ofNat 10 (m / 2 ^ (10 * i)))
/-- The three symbols of a syndrome. -/
def rsSymbols (x : BitVec 30) : BitVec 10 × BitVec 10 × BitVec 10 := (fld x 0 10, fld x 10 10, fld x 20 10)
/-- The poison pattern P (R371), which is its own syndrome. -/
def poisonSyndrome : BitVec 30 := 0x3FF#10 ++ 0x155#10 ++ 0x2AA#10
/-- The side-band word of the unit at `u` (R369, R371): the check symbols, XORed with P where the unit is poisoned, and its tags.
What the bits under a poison mark hold besides is the model's (log entry 40). -/
def sideBand (s : State) (u : Nat) : BitVec 32 :=
  let c := rsCheck (unitSymbols s u)
  let check : BitVec 30 := (c.2.2 ++ c.2.1 ++ c.1) ^^^ (if sget markDflt s.poison u then poisonSyndrome else 0)
  (if tagAt s (u + 16) then 1#1 else 0#1) ++ (if tagAt s u then 1#1 else 0#1) ++ check
/-- R370: an error confined to one symbol of the 29. Its value e follows from the position: the sum of the remainder's
symbols is e times 1 (the root 1 of g), so e is fixed. Bits 9 and 8 of the last symbol are not stored (R369). -/
def rsOneSymbol (x : BitVec 30) : Bool :=
  let r := rsSymbols x
  let e := r.1 ^^^ r.2.1 ^^^ r.2.2
  e != 0 && (List.range 29).any (fun i => rsError e i == r && !(i == 28 && (bitAt e 9 || bitAt e 8)))

/-- The unit of `u` is uncorrectable (R370): it is poisoned, counted and recorded. -/
def unitLost (s : State) (u : Nat) (x : BitVec 30) (how : Nat) : State :=
  let n := stackOf s u
  let s1 := regSet (regSatAdd (poisonUnit s u) (Reg.hbmUncorr n) 32 1) (Reg.hbmLastUe n) (BitVec.ofNat 64 u)
  recordEvent (regOr s1 Reg.hbmErr (2 ^ n))
    { cls := 2, source := 9, unit := n, code := 1, tenant := 0xFF, action := 2, addr := u,
      payload := toBytes 4 x.toNat ++ toBytes 1 (pseudoChannel s u) ++ toBytes 1 how }
/-- R370 at the unit of `a`: the outcome of a read whose syndrome is `x`. A poisoned unit never reads with a syndrome that a
correction would make clean (20 R530; log entry 40). -/
def unitRead (s : State) (a : Nat) (x : BitVec 30) (how : Nat) : State :=
  let u := alignDown a 32
  if x = 0 then s
  else if x = poisonSyndrome then poisonUnit s u
  else if rsOneSymbol x then (if poisonAt s u then s else correctedStack s (stackOf s u))
  else unitLost s u x how
/-- A read can find an error in the unit of `a` now: its stack is online and serves it. -/
def unitReadable (s : State) (a : Nat) : Bool :=
  regionOf a == .hbm && s.hbm.trained && accessReady s a && !stackOffline s (stackOf s a)

/-- PATROL_SCRUB (R370, R373): a scrub read, or a speculative one (R384), finds a syndrome at a unit. -/
def execPatrolScrub (addr : BitVec 38) (syndrome : BitVec 30) (speculative : Bool) (s : State) :
    Host.Outcome State Fault Refusal :=
  if !unitReadable s addr.toNat || (!speculative && regFld s Reg.hbmScrub 0 8 == 0) then .next s
  else .next (unitRead s addr.toNat syndrome (if speculative then 2 else 1))

/-- HBM_REFRESH (R366): refresh keeps every stored value. -/
def execHbmRefresh (_stack : BitVec 3) (_bank : BitVec 16) (s : State) : Host.Outcome State Fault Refusal := .next s

/- Memory-side adds (R375 to R377; 13 R360) -/

/-- The stored bytes of the sum. -/
def addResult (fmt m a : Nat) : List Byte := toBytes (addBytes fmt) (addElems fmt (m % 2 ^ (8 * addBytes fmt)) (a % 2 ^ (8 * addBytes fmt))).1

/-- Clear the tags that an add clears: both of an HBM unit, or those of the granules it touches. -/
def clearAddTags (s : State) (a n : Nat) : State :=
  match regionOf a with
  | .hbm => { s with tags := clearTags s.tags (alignDown a 32) 32 }
  | _ => { s with tags := clearTags s.tags a n }

/-- Perform an add at a local address that has tag storage: one read-modify-write of its unit. `false`: the unit is
poisoned and stays so, and no add is performed (R377). -/
def addInPlace (s : State) (fmt a addend : Nat) : Bool × State :=
  let n := addBytes fmt
  if poisonIn s a n then (false, s)
  else
    let m := ofBytes (memBytes s a n)
    let s1 := clearAddTags (storeLocal s a (addResult fmt m addend)) a n
    (true, if regionOf a = .hbm then regWrapAdd s1 (Reg.hbmAdds (stackOf s a)) 1 else s1)

/-- The rights that an engine's add needs of its slot (03 R56, R58). -/
def addRights : BitVec 12 := rATOM ||| rDMA
/-- The address of an add as slot `n` names it: the device is this one, whatever device the slot's cursor names (03 R63, R80). -/
def addAddress (s : State) (o : Op) (n a : Nat) : Nat :=
  let f := (capCursor (opSlot o n).cap).toNat
  (if localFabric s false f then f / 2 ^ 54 else deviceNo s) * 2 ^ 54 + a
/-- The checks of R63 of slot `n` for an add of `w` bytes at a local address: the cause that fails. -/
def addFault (s : State) (o : Op) (n w a : Nat) : Option Nat :=
  capCheck (opSlot o n).cap 0 addRights true (addAddress s o n a) w w
/-- The slot through which an operation adds at a local address: the first that permits it, else the first whose bounds hold the
address, else the first that holds a capability. The spec names no slot for an add (DESIGN CHOICE, log entry 24). -/
def addSlot (s : State) (o : Op) (w a : Nat) : Nat :=
  let l := (List.range o.slots.length).filter (slotCap o)
  ((l.find? (fun n => addFault s o n w a == none)).or
    ((l.find? (fun n => let b := capBounds (opSlot o n).cap
      let x := addAddress s o n a
      decide (b.1 ≤ (x : Int)) && decide ((x : Int) < b.2))).or l.head?)).getD 0
/-- The offset from the slot's cursor at which the add fails: that of its 64-byte block (04 R106). -/
def addOffset (o : Op) (n a : Nat) : Nat :=
  let start := localPart (slotCur o n)
  max (alignDown a 64) start - start

/-- MEMORY_SIDE_ADD (R375 to R377): an add of a running operation reaches the controller of its address: the capability checks of
R63, the rule check, and the add as one read-modify-write. -/
def execMemorySideAdd (op : Nat) (tenant : BitVec 8) (fmt : BitVec 3) (addr : BitVec 53) (addend : BitVec 192)
    (s : State) : Host.Outcome State Fault Refusal :=
  let a := addr.toNat
  match findOp s op with
  | none => .next s
  | some o =>
    if o.phase != .running || o.tenant != tenant || 4 < fmt.toNat || fenced s then .next s
    else
      let w := addBytes fmt.toNat
      let slot := addSlot s o w a
      let off := addOffset o slot a
      match addFault s o slot w a with
      | some cause => .next (endOp s op (compl 4 cause 0 off))
      | none =>
        let (v, s1) := acuCheckIn s o.bank .adder tenant.toNat (kEngine ||| kAtomic) (capHas (opSlot o slot).cap rSYS) true a
        if !v.ok then .next (endOp s1 op (compl 3 slot 0 off))
        else if !accessReady s a then .next (askSegment s1 a)
        else
          let (ok, s2) := addInPlace s1 fmt.toNat a addend.toNat
          .next (if ok then s2 else endOp s2 op (compl 6 0 0 off))

/- Temperature (R379 to R382) -/

/-- HBM_TEMPs.STATE and ALLOW. -/
def setStack (s : State) (n state allow : Nat) : State :=
  regSetFld (regSetFld s (Reg.hbmTemp n) 12 2 state) (Reg.hbmTemp n) 8 4 allow
/-- HBM_TEMPs.ALLOW. -/
def stackAllow (s : State) (n : Nat) : Nat := regFld s (Reg.hbmTemp n) 8 4

/-- A stack goes offline (R380) with HBM_ERR bit `bit` and record `code`: until power-on reset. -/
def stackFails (s : State) (n bit code : Nat) : State :=
  if stackOffline s n then s
  else
    let s1 := { (regSetFld s (Reg.hbmTemp n) 12 2 3) with
                hbm := { s.hbm with tripped := sset markDflt s.hbm.tripped n true, held := sset markDflt s.hbm.held n false } }
    zeroGone (stackRecord (regOr s1 Reg.hbmErr (2 ^ (bit + n))) n code)

/-- CATTRIP (R380): at any moment; during training too the stack stays offline. -/
def execCattrip (stack : BitVec 3) (s : State) : Host.Outcome State Fault Refusal :=
  .next (stackFails s stack.toNat 8 3)

/-- The thermal rules of R379 on a reading. -/
def thermalStep (s : State) (n t : Nat) : State :=
  let th := regFld s Reg.hbmTherm 0 8
  let cr := regFld s Reg.hbmTherm 8 8
  let hy := regFld s Reg.hbmTherm 16 4
  let a := stackAllow s n
  match stackState s n with
  | 0 =>
    if cr ≤ t then stackRecord (regOr (setStack s n 2 a) Reg.hbmErr (2 ^ (16 + n))) n 2
    else if th ≤ t then setStack s n 1 7 else s
  | 1 =>
    if cr ≤ t then stackRecord (regOr (setStack s n 2 a) Reg.hbmErr (2 ^ (16 + n))) n 2
    else if th ≤ t then setStack s n 1 (max (a - 1) 1)
    else if t + hy < th then (if 7 ≤ a then setStack s n 0 8 else setStack s n 1 (a + 1))
    else s
  | 2 => if t + hy < cr then setStack s n 1 1 else s
  | _ => s

/-- HBM_TEMP_READING (R379): due each time that the TBC reaches a multiple of 1,000,000; `none` is a reading that fails. -/
def execHbmTempReading (stack : BitVec 3) (reading : Option Byte) (s : State) : Host.Outcome State Fault Refusal :=
  let n := stack.toNat
  if s.tbc.toNat % 1000000 != 0 || !s.hbm.trained || stackOffline s n || sget (fun _ => none) s.hbm.readAt n == some s.tbc then .next s
  else
    let s1 := regSet { s with hbm := { s.hbm with readAt := sset (fun _ => none) s.hbm.readAt n (some s.tbc) } } (Reg.hbmTempAt n) s.tbc
    match reading with
    | none => .next (thermalStep (regSetFld s1 (Reg.hbmTemp n) 14 1 1) n (regFld s Reg.hbmTherm 0 8))
    | some t =>
      .next (thermalStep (regSetFld (regSetFld s1 (Reg.hbmTemp n) 14 1 0) (Reg.hbmTemp n) 0 8 t.toNat) n t.toNat)

/-- A write of HBM_THERM (R383): an inconsistent one leaves all three fields. -/
def hbmThermSet (s : State) (v : Nat) : State :=
  let s1 := regWriteFn s 0 Reg.hbmTherm (BitVec.ofNat 64 v)
  let th := regFld s1 Reg.hbmTherm 0 8
  let cr := regFld s1 Reg.hbmTherm 8 8
  let hy := regFld s1 Reg.hbmTherm 16 4
  if cr ≤ th || cr - th ≤ hy then s else s1

/-- HBM_THERM_WRITE (R383). -/
def execHbmThermWrite (agent : Agent) (value : W32) (s : State) : Host.Outcome State Fault Refusal :=
  .next (if platformAgent s agent then hbmThermSet s value.toNat else s)

/- The PHYs (R386) -/

/-- HBM_PHY_RELOCK (R386): the PHYs move between the reference and the internal oscillator; every online stack enters self
refresh and must relock within 1 ms. -/
def execHbmPhyRelock (s : State) : Host.Outcome State Fault Refusal :=
  if s.hbm.onRef = s.time.refclk || !s.hbm.trained then .next s
  else
    let on := (List.range 8).filter (fun n => !stackOffline s n)
    let due := s.tbc + 1000000
    .next { s with hbm := { s.hbm with onRef := s.time.refclk
                                       held := on.foldl (fun m n => sset markDflt m n true) s.hbm.held
                                       relockBy := on.foldl (fun m n => sset zDflt64 m n due) s.hbm.relockBy } }

/-- HBM_PHY_RELOCK_DONE (R386): the stack leaves self refresh with its contents unchanged; one that has not relocked within its
millisecond goes offline. -/
def execHbmPhyRelockDone (stack : BitVec 3) (s : State) : Host.Outcome State Fault Refusal :=
  let n := stack.toNat
  .next (if hbmStopped s || !sget markDflt s.hbm.held n then s
    else if passed s (sget zDflt64 s.hbm.relockBy n) then stackFails s n 24 4
    else { s with hbm := { s.hbm with held := sset markDflt s.hbm.held n false } })

/-- HBM_RELOCK_TIMEOUT (R386). -/
def execHbmRelockTimeout (stack : BitVec 3) (s : State) : Host.Outcome State Fault Refusal :=
  let n := stack.toNat
  if sget markDflt s.hbm.held n && !hbmStopped s && reached s (sget zDflt64 s.hbm.relockBy n) then
    .next (stackFails s n 24 4)
  else .next s

end Sys2Proof.Machine
end

