-- ==== Sys2Proof/Machine/Plan.lean ====
section
/-! DEFINITION. The cabling plan as text (spec 18 R491, R492) and what a device takes from it (15 R397, R399). -/

namespace Sys2Proof.Machine

/- Text -/

/-- The bytes of an ASCII text. -/
def ascii (t : String) : List Byte := t.toList.map (fun c => BitVec.ofNat 8 c.toNat)
/-- Split at every byte that `p` picks. -/
def splitBytes (p : Byte → Bool) : List Byte → List (List Byte)
  | [] => [[]]
  | b :: bs =>
    let r := splitBytes p bs
    if p b then [] :: r else (b :: r.headD []) :: r.tail
/-- The lines of a text whose every line ends in LF, and whether the last one does. -/
def textLines (t : List Byte) : List (List Byte) × Bool :=
  let l := splitBytes (fun b => b == 10) t
  (if l.getLastD [] = [] then l.dropLast else l, decide (l.getLastD [] = []))
/-- The tokens of a line: text from `#` on is a comment; spaces and tabs separate. -/
def lineTokens (l : List Byte) : List (List Byte) :=
  (splitBytes (fun b => b == 32 || b == 9) (l.takeWhile (fun b => b != 35))).filter (fun t => t != [])

/-- A decimal number. -/
def decimal (t : List Byte) : Option Nat :=
  if t != [] && t.all (fun b => decide (48 ≤ b.toNat) && decide (b.toNat ≤ 57)) then
    some (t.foldl (fun a b => 10 * a + (b.toNat - 48)) 0)
  else none
/-- A hexadecimal digit. -/
def hexDigit (b : Byte) : Option Nat :=
  let n := b.toNat
  if 48 ≤ n && n ≤ 57 then some (n - 48)
  else if 65 ≤ n && n ≤ 70 then some (n - 55)
  else if 97 ≤ n && n ≤ 102 then some (n - 87)
  else none
/-- A serial: 0x and hexadecimal digits, with underscores between them. -/
def hexSerial (t : List Byte) : Option W64 :=
  match t with
  | 48 :: 120 :: ds =>
    let d := ds.filter (fun b => b != 95)
    if d = [] || 16 < d.length then none
    else (d.mapM hexDigit).map (fun l => BitVec.ofNat 64 (l.foldl (fun a x => 16 * a + x) 0))
  | _ => none

/- Places and port ends -/

/-- The device number of a place. -/
def placeNumber (rack tray pos : Nat) : Nat := 128 * rack + 4 * tray + pos
/-- A place R.T.P within the system. -/
def placeToken (racks : Nat) (t : List Byte) : Option Nat :=
  match (splitBytes (fun b => b == 46) t).mapM decimal with
  | some [r, y, p] => if r < racks && y < 32 && p < 4 then some (placeNumber r y p) else none
  | _ => none
/-- A port end R.T.P.PORT. -/
def endToken (racks : Nat) (t : List Byte) : Option (Nat × Nat) :=
  match (splitBytes (fun b => b == 46) t).mapM decimal with
  | some [r, y, p, q] => if r < racks && y < 32 && p < 4 && q < 12 then some (placeNumber r y p, q) else none
  | _ => none
/-- A device in the direction of a port (15 R399). -/
def torusFar (racks d port : Nat) : Nat :=
  let c := coordsOf d
  let n := (shapeOf racks).getD (port / 4) 1
  let x := c.getD (port / 4) 0
  deviceAt (c.set (port / 4) (if port / 2 % 2 = 0 then (x + 1) % n else (x + n - 1) % n))
/-- The torus partner of a port end (R492): port 4d + k and port 4d + 2 + k of the next device. -/
def torusPartner (racks : Nat) (e : Nat × Nat) : Nat × Nat := (torusFar racks e.1 e.2, if e.2 / 2 % 2 = 0 then e.2 + 2 else e.2 - 2)
/-- A tray-board port (15 R389). -/
def boardPort (e : Nat × Nat) : Bool :=
  (decide (e.2 < 2) && e.1 % 4 != 3) || (decide (2 ≤ e.2) && decide (e.2 < 4) && e.1 % 4 != 0)

/- Lines (R491) -/

/-- A line of a plan. -/
inductive PlanLine where
  | blank
  | version
  | racks (n : Nat)
  | master (d : Nat)
  | device (d : Nat) (serial : Option W64)
  | link (a b : Nat × Nat)
  | unused (a : Nat × Nat)
  deriving DecidableEq, Repr

/-- A serial token: `*` or a number. -/
def serialToken (t : List Byte) : Option (Option W64) := if t = [42] then some none else (hexSerial t).map some

/-- Read a line's tokens; `none` when malformed or out of range. -/
def planLine (racks : Nat) (t : List (List Byte)) : Option PlanLine :=
  match t with
  | [] => some .blank
  | [k, a] =>
    if k = ascii "vesol-plan" then (if a = [49] then some .version else none)
    else if k = ascii "racks" then
      match decimal a with
      | some n => if n = 1 || n = 2 || n = 4 || n = 8 then some (.racks n) else none
      | none => none
    else if k = ascii "master" then (placeToken racks a).map .master
    else if k = ascii "unused" then (endToken racks a).map .unused
    else none
  | [k, a, b] =>
    if k = ascii "device" then
      match placeToken racks a, serialToken b with
      | some d, some x => some (.device d x)
      | _, _ => none
    else if k = ascii "link" then
      match endToken racks a, endToken racks b with
      | some x, some y => some (.link x y)
      | _, _ => none
    else none
  | _ => none

/-- The number that the plan's `racks` line gives. -/
def planRacks (ls : List (List (List Byte))) : Nat :=
  (ls.findSome? (fun t => match planLine 8 t with | some (.racks n) => some n | _ => none)).getD 0

/-- Port ends that the plan has named. -/
def planEnds (p : Plan) : List (Nat × Nat) := p.links.flatMap (fun l => [l.1, l.2]) ++ p.unused

/-- Take one line into the plan. `full` adds the checks of R492 that a line can fail. -/
def planTake (full : Bool) (racks n : Nat) (p : Plan) (t : List (List Byte)) : Option Plan :=
  match planLine racks t with
  | none => none
  | some l =>
    if n = 1 then (if l = .version then some p else none)
    else
      match l with
      | .blank => some p
      | .version => none
      | .racks k => if p.racks = 0 then some { p with racks := k } else none
      | .master d => if p.master.isNone then some { p with master := some d } else none
      | .device d x => if p.devices.any (fun e => e.1 == d) then none else some { p with devices := p.devices ++ [(d, x)] }
      | .link a b =>
        if full && (torusPartner racks a != b || boardPort a || boardPort b || (planEnds p).contains a || (planEnds p).contains b) then
          none
        else if p.links.contains (a, b) || p.links.contains (b, a) then none
        else some { p with links := p.links ++ [(a, b)] }
      | .unused a => if full && (planEnds p).contains a then none else some { p with unused := p.unused ++ [a] }

/-- Take the lines from number `n` on; the first that fails is named. -/
def planGo (full : Bool) (racks : Nat) (p : Plan) : Nat → List (List (List Byte)) → Plan ⊕ Nat
  | _, [] => .inl p
  | n, t :: ts =>
    match planTake full racks n p t with
    | none => .inr n
    | some q => planGo full racks q (n + 1) ts

/-- A plan without lines. -/
def planEmpty : Plan := ⟨0, none, [], [], []⟩

/-- The tokens of a line of the file; a line with a byte beyond ASCII is malformed (R491). -/
def asciiTokens (l : List Byte) : List (List Byte) := if l.any (fun b => decide (128 ≤ b.toNat)) then [l] else lineTokens l

/-- Parse a plan's text under R491; the number of the first failing line otherwise, 0 when a line is missing or the file exceeds
1 MiB (log entry 21). -/
def planParse (full : Bool) (text : List Byte) : Plan ⊕ Nat :=
  let (ls, ended) := textLines text
  let ts := ls.map asciiTokens
  match planGo full (planRacks ts) planEmpty 1 ts with
  | .inr n => .inr n
  | .inl p => if !ended then .inr ls.length else if p.racks = 0 || 1048576 < text.length then .inr 0 else .inl p

/-- R492 over the whole plan: every device has a line, and every port that is neither a board port nor unused, nor the
partner of an unused end, is in a link. -/
def planComplete (p : Plan) : Bool :=
  (List.range (128 * p.racks)).all (fun d =>
    p.devices.any (fun e => e.1 == d) &&
    (List.range 12).all (fun q =>
      boardPort (d, q) || p.unused.contains (d, q) || p.unused.contains (torusPartner p.racks (d, q)) ||
        p.links.any (fun l => l.1 == (d, q) || l.2 == (d, q))))

/- A device's part -/

/-- The far end that the plan gives port `q` of device `d`; none when the port is unused. -/
def planFar (p : Plan) (d q : Nat) : Option (Nat × Nat) :=
  if p.unused.contains (d, q) || p.unused.contains (torusPartner p.racks (d, q)) then none
  else
    match p.links.find? (fun l => l.1 == (d, q) || l.2 == (d, q)) with
    | some l => some (if l.1 = (d, q) then l.2 else l.1)
    | none => if boardPort (d, q) then some (torusPartner p.racks (d, q)) else none
/-- A plan is what the TMC delivers of the committed one to device `me` (21 R551): its shape and master, every device line, and the
link and unused lines that name a port end of this device, in file order. -/
def planDelivers (all p : Plan) (me : Nat) : Bool :=
  p == { all with links := all.links.filter (fun l => l.1.1 == me || l.2.1 == me), unused := all.unused.filter (fun e => e.1 == me) }
/-- The serial that the plan gives a device: none accepts every serial. -/
def planSerial (p : Plan) (d : Nat) : Option W64 := ((p.devices.find? (fun e => e.1 == d)).map (fun e => e.2)).getD none

end Sys2Proof.Machine
end

