-- ==== Sys2Proof/Machine/Coll.lean ====
section
/-! DEFINITION. Collectives (spec 15 R410 to R420): barrier objects, joins, chains along the dimensions of a box, and the
write-back. -/

namespace Sys2Proof.Machine

/- PARAMS (R418) -/

/-- BAR. -/
def collBar (o : Op) : Nat := param o 160 6
/-- FMT as MSADD codes formats: int32, int64, fp32, bf16, EXA144. -/
def collFmt (o : Op) : Nat := if param o 166 3 = 0 then 4 else param o 166 3 - 1
/-- OUT_FP32. -/
def collFp32 (o : Op) : Bool := param o 169 1 == 1
/-- ORIGIN. -/
def collOrigin (o : Op) : Nat := param o 172 10
/-- Extents of the box. -/
def collExt (o : Op) : List Nat := [param o 182 3 + 1, param o 185 3 + 1, param o 188 4 + 1]
/-- Members. -/
def collSize (o : Op) : Nat := (collExt o).foldl (· * ·) 1
/-- ROOT. -/
def collRoot (o : Op) : Nat := param o 192 10
/-- COUNT. -/
def collCount (o : Op) : Nat := param o 208 24
/-- Offset of a device from the origin in each dimension, modulo the shape. -/
def collOffOf (s : State) (o : Op) (d : Nat) : List Nat :=
  let a := coordsOf d
  let b := coordsOf (collOrigin o)
  (List.range 3).map (fun i =>
    let n := (shapeOf (racksOf s)).getD i 1
    (a.getD i 0 + n - b.getD i 0) % n)
/-- Rank of the member at an offset. -/
def rankOf (off ext : List Nat) : Nat := off.getD 0 0 + ext.getD 0 1 * (off.getD 1 0 + ext.getD 1 1 * off.getD 2 0)
/-- This member's rank. -/
def collRank (s : State) (o : Op) : Nat := rankOf (collOffOf s o (deviceNo s)) (collExt o)
/-- The opcode. -/
def collOp (o : Op) : Nat := o.opcode.toNat
/-- This member reads IN: everyone but in BARRIER, and in BROADCAST the root alone. -/
def collReads (s : State) (o : Op) : Bool := collOp o != 0x74 && (collOp o != 0x73 || collRank s o == collRoot o)
/-- Elements of IN. -/
def collIn (o : Op) : Nat := if collOp o = 0x71 then collSize o * collCount o else collCount o
/-- Elements of the result. -/
def collOut (o : Op) : Nat := if collOp o = 0x72 then collSize o * collCount o else collCount o
/-- Bytes of an input element. -/
def collWidth (o : Op) : Nat := addBytes (collFmt o)
/-- Bytes of an output element. -/
def collOutWidth (o : Op) : Nat := if collFp32 o then 4 else collWidth o
/-- Slots used, with extents: IN, OUT, STAGE. -/
def collSlots (s : State) (o : Op) : List (Nat × Nat × Bool) :=
  (if collReads s o then [(0, collIn o * collWidth o, false)] else []) ++
  (if collOp o = 0x74 then []
   else [(1, collOut o * collOutWidth o, true), (2, collOut o * collWidth o + 0x100000, true)])

/-- STAGE lies in the memory of one cove that the tenant owns, or in HBM with STAGE_HBM. -/
def stageFits (s : State) (o : Op) : Bool :=
  let n := collOut o * collWidth o + 0x100000
  let addr := slotCur o 2
  !localFabric s false addr ||
  (let a := localPart addr
   match regionOf a with
   | .cove c => coveOwnerOf s c == o.tenant && decide (a + n ≤ coveBase c + 0x1800000)
   | .hbm => param o 170 1 == 1 && decide (a + n ≤ 0x3000000000)
   | _ => false)

/-- Step 5 of R194 for the collectives (R418, R419). The device is in the box; before VALID that is not asked of a group
of several (R419 completes it DESTINATION_LOST). -/
def collFields (s : State) (o : Op) : Option Nat :=
  let k (n : Nat) : Nat := if (collSlots s o).any (fun x => x.1 == n) then 1 else 0
  let shape := shapeOf (racksOf s)
  let ext := collExt o
  let off := collOffOf s o (deviceNo s)
  let inBox := (collSize o != 1 && !placeValid s) ||
    (decide (collOrigin o < 128 * racksOf s) && (List.range 3).all (fun i => decide (off.getD i 0 < ext.getD i 1)))
  lowest (faultAt (hdrExt o.desc != 0) 3 ++ wrongKinds o [k 0, k 1, k 2] ++
    faultAt (decide (4 < param o 166 3)) 20 ++
    faultAt ((collFp32 o && param o 166 3 != 0) || param o 171 1 != 0 || !inBox) 21 ++
    faultAt (decide (shape.getD 0 1 < ext.getD 0 1)) 22 ++
    faultAt (decide (shape.getD 1 1 < ext.getD 1 1) || decide (shape.getD 2 1 < ext.getD 2 1)) 23 ++
    faultAt (decide (collSize o ≤ collRoot o)) 24 ++ faultAt (param o 202 6 != 0) 25 ++
    faultAt ((collOp o == 0x74) != (collCount o == 0)) 26 ++ faultAt (param o 232 24 != 0) 29 ++
    uncovered o ((collSlots s o).map (fun x => (x.1, x.2.1))) ++ overlapping o (collSlots s o) ++
    faultAt (collOp o != 0x74 && !stageFits s o) (slotOff 2))

/- Objects (R410) -/

/-- Object `b`. -/
def objOf (s : State) (b : Nat) : CollObj := sget (fun _ => collObjReset) s.objects b
/-- Replace an object. -/
def setObj (s : State) (b : Nat) (x : CollObj) : State := { s with objects := sset (fun _ => collObjReset) s.objects b x }
/-- FAB_BARb.TENANT. -/
def objTenant (s : State) (b : Nat) : Nat := regFld s (Reg.fabBar b) 0 8
/-- FAB_BARb.BUSY. -/
def objBusy (s : State) (b : Nat) : Bool := regBit s (Reg.fabBar b) 8
/-- FAB_BARb.GEN. -/
def objGen (s : State) (b : Nat) : Nat := regFld s (Reg.fabBar b) 16 16

/-- A write of FAB_BARb (R417). -/
def fabBarSet (s : State) (b v : Nat) : State :=
  if objBusy s b || 128 < v % 256 then s else regSetFld s (Reg.fabBar b) 0 8 (v % 256)

/-- FAB_BAR_WRITE (R417): TENANT is stored, or discarded while BUSY. -/
def execFabBarWrite (agent : Agent) (object : BitVec 6) (value : W32) (s : State) : Host.Outcome State Fault Refusal :=
  .next (if platformAgent s agent then fabBarSet s object.toNat value.toNat else s)

/- Messages -/

/-- The port by which a collective message goes in a direction, chosen as R401 chooses one; none: both ports are fenced. -/
def collPort (s : State) (dir : Nat) : Option Nat :=
  match [2 * dir, 2 * dir + 1].filter (fun p => !portFenced s p) with
  | [] => none
  | q :: rest =>
    some (if q % 2 == 0 && ((deviceNo s + neighbourOf s (deviceNo s) dir) % 2 == 0 || rest == []) then q else rest.headD q)
/-- A collective message (R406): object, generation and flit index in ADDR, and, of a data message, the flags raised so far in OP
(log entry 22). -/
def collMsg (s : State) (dir : Nat) (type : BitVec 6) (tenant : Byte) (b gen index flags : Nat) (payload : List Byte)
    (poison : Bool) : Msg :=
  let me := deviceNo s
  { dest := BitVec.ofNat 10 (neighbourOf s me dir), src := BitVec.ofNat 10 me, tenant := tenant, type := type, dirs := 0,
    addr := BitVec.ofNat 54 (b + 64 * (gen % 256) + 2 ^ 14 * index), tag := false, poison := poison, rid := 0, status := 0,
    op := BitVec.ofNat 5 flags, len := BitVec.ofNat 7 payload.length, payload := payload }
/-- Send a collective message to the neighbour in a direction, on channel 4 (R402); nothing goes where both ports are fenced. -/
def collSend (s : State) (dir : Nat) (type : BitVec 6) (tenant : Byte) (b gen index flags : Nat) (payload : List Byte)
    (poison : Bool) : State :=
  match collPort s dir with
  | some p => enqueueMsg s p 4 (collMsg s dir type tenant b gen index flags payload poison)
  | none => s

/-- The bytes of a join's fields (R411), in the order in which it lists them. -/
def joinBytes (j : Join) : List Byte :=
  toBytes 1 j.tenant.toNat ++ toBytes 2 j.generation.toNat ++ toBytes 1 j.opcode.toNat ++ toBytes 1 j.fmt.toNat ++
  toBytes 1 (if j.outFp32 then 1 else 0) ++ toBytes 3 j.count.toNat ++ toBytes 2 j.origin.toNat ++ toBytes 1 j.nxM1.toNat ++
  toBytes 1 j.nyM1.toNat ++ toBytes 1 j.nzM1.toNat ++ toBytes 2 j.root.toNat ++ toBytes 1 (if j.rejected then 1 else 0)
/-- The join of an operation for a generation. -/
def joinOf (o : Op) (gen : Nat) : Join :=
  { tenant := o.tenant, generation := BitVec.ofNat 16 gen, opcode := o.opcode, fmt := BitVec.ofNat 3 (param o 166 3),
    outFp32 := collFp32 o, count := BitVec.ofNat 24 (collCount o), origin := BitVec.ofNat 10 (collOrigin o),
    nxM1 := BitVec.ofNat 3 (param o 182 3), nyM1 := BitVec.ofNat 3 (param o 185 3), nzM1 := BitVec.ofNat 4 (param o 188 4),
    root := BitVec.ofNat 10 (collRoot o), rejected := false }

/-- Directions (2 × dimension + sign) in which this member has a neighbour in the box. -/
def runDirs (r : CollRun) : List Nat :=
  (List.range 3).flatMap (fun d =>
    (if r.off.getD d 0 + 1 < r.ext.getD d 1 then [2 * d] else []) ++ (if 0 < r.off.getD d 0 then [2 * d + 1] else []))
/-- Both ports toward a neighbour of the box are fenced: the neighbour's device. -/
def runLost (s : State) (r : CollRun) : Option Nat :=
  ((runDirs r).find? (fun dir => portFenced s (2 * dir) && portFenced s (2 * dir + 1))).map (neighbourOf s (deviceNo s))
/-- The network phase has ended. -/
def runDone (r : CollRun) : Bool := r.dim == 3

/- Ending (R410, R416) -/

/-- What an abort says: the device that ended first, or the lost device. -/
def abortOf (s : State) (o : Option Op) : Nat × Bool :=
  match o with
  | some x =>
    if x.compl.status = 7 then (x.compl.detail.toNat, true)
    else if x.compl.status = 0x36 then (x.compl.detail.toNat, false)
    else (deviceNo s, false)
  | none => (deviceNo s, false)

/-- The member on object `b` is over: an unfinished one sends COLL_ABORT along its chains; the object is free, its
generation one more, and what was held for earlier generations is dropped. -/
def closeRun (s : State) (b : Nat) (r : CollRun) (o : Option Op) : State :=
  let (dev, lost) := abortOf s o
  let s1 := if runDone r then s else
    (runDirs r).foldl (fun st dir => collSend st dir 0x22 (BitVec.ofNat 8 (objTenant s b)) b r.gen.toNat 0 0
      (toBytes 2 dev ++ toBytes 1 (if lost then 1 else 0)) false) s
  let gen := (r.gen.toNat + 1) % 65536
  let s2 := regSetFld (regSetFld s1 (Reg.fabBar b) 8 1 0) (Reg.fabBar b) 16 16 gen
  let x := objOf s2 b
  setObj s2 b { x with run := none, latched := x.latched.filter (fun l => decide ((l.2.1 + 256 - gen % 256) % 256 < 128)) }

/-- Close every member whose operation has ended. -/
def dropColl (s : State) : State :=
  (List.range 64).foldl (fun st b =>
    match (objOf st b).run with
    | none => st
    | some r =>
      match findOp st r.op with
      | some o => if o.phase = .done then closeRun st b r (some o) else st
      | none => closeRun st b r none) s

/-- End members whose neighbour is lost (R416). -/
def collLost (s : State) : State :=
  dropColl ((List.range 64).foldl (fun st b =>
    match (objOf st b).run with
    | none => st
    | some r => if runDone r then st else
      match runLost st r with
      | some d => endOp st r.op (compl 7 0 0 d)
      | none => st) s)

/-- End the members one of whose neighbours in the box device `d` is, which has become unreachable (R416; 15 R400). -/
def collUnreachable (s : State) (d : Nat) : State :=
  dropColl ((List.range 64).foldl (fun st b =>
    match (objOf st b).run with
    | none => st
    | some r =>
      if !runDone r && (runDirs r).any (fun dir => neighbourOf st (deviceNo st) dir == d) then endOp st r.op (compl 7 0 0 d)
      else st) s)

/- Data flits (R413, R415) -/

/-- Elements in one flit: 24 of int32 and fp32, 12 of int64, 48 of bf16, 5 of EXA144 (R415). -/
def flitElems (fmt : Nat) : Nat :=
  match fmt with | 1 => 12 | 3 => 48 | 4 => 5 | _ => 24
/-- Elements as a flit carries them: their bytes one after another, or, for EXA144, 146 bits each: bits [143:0] of the word and the
2-bit class above them (R415; 12 R334). -/
def packElems (fmt : Nat) (l : List Nat) : List Byte :=
  if fmt = 4 then
    let one (x : Nat) : Nat := x % 2 ^ 144 + (match (exaRead (x % 2 ^ 192)).1 with
      | .fin _ => 0 | .inf false => 1 | .inf true => 2 | .nan => 3) * 2 ^ 144
    toBytes ((146 * l.length + 7) / 8) ((l.zipIdx.map (fun e => one e.1 * 2 ^ (146 * e.2))).sum)
  else l.flatMap (toBytes (addBytes fmt))
/-- The elements of a flit's payload. -/
def unpackElems (fmt : Nat) (bs : List Byte) : List Nat :=
  if fmt = 4 then
    let one (x : Nat) : Nat :=
      if x / 2 ^ 144 = 0 then exaWord (.fin (BitVec.ofNat 144 x).toInt) else x
    (List.range (8 * bs.length / 146)).map (fun i => one (ofBytes bs / 2 ^ (146 * i) % 2 ^ 146))
  else splitElems (addBytes fmt) (bs.length / addBytes fmt) bs
/-- Elements in the flits that carry them: at most `k` in one, and either all of one flit poisoned or none (log entry 22). No
element at all goes as one empty flit. -/
def flitGroups (k : Nat) (l : List (Nat × Bool)) : List (List Nat × Bool) :=
  let add (acc : List (List Nat × Bool)) (e : Nat × Bool) : List (List Nat × Bool) :=
    match acc with
    | g :: gs => if g.2 == e.2 && decide (g.1.length < k) then (g.1 ++ [e.1], g.2) :: gs else ([e.1], e.2) :: acc
    | [] => [([e.1], e.2)]
  let gs := (l.foldl add []).reverse
  if gs = [] then [([], false)] else gs

/- Receiving (R411, R416) -/

/-- What has been received from a neighbour. -/
def inboxOf (r : CollRun) (dir : Nat) : CollIn := (r.inbox.find? (fun e => e.dir == dir)).getD ⟨dir, 0, 0, [], [], 0⟩
/-- A data flit joins what has come from its neighbour. One out of its index cannot come while links keep their order (R394), and
is dropped. -/
def inboxTakes (o : Op) (r : CollRun) (dir index flags : Nat) (payload : List Byte) (poison : Bool) : CollRun :=
  let e := inboxOf r dir
  if e.flits != index then r
  else
    let w := collWidth o
    let new := unpackElems (collFmt o) payload
    let at_ := e.taken + e.bytes.length / w
    let e' : CollIn := { e with
      flits := index + 1, bytes := e.bytes ++ new.flatMap (toBytes w)
      poison := e.poison ++ (if poison then (List.range new.length).map (fun i => at_ + i) else []), flags := e.flags ||| flags }
    { r with inbox := r.inbox.filter (fun x => x.dir != dir) ++ [e'] }

/-- What a message of the present generation does to a member that has not ended. A join that differs ends both members: a sender
outside this member's box, which has had no join from here, is answered with one. Data and aborts of another tenant, or of a
device that is no neighbour in the box, are not of this group (R411, R416). -/
def runTakes (s : State) (b : Nat) (r : CollRun) (dir : Nat) (m : CollMsg) : State :=
  let x := objOf s b
  let far := neighbourOf s (deviceNo s) dir
  match m with
  | .join j =>
    match findOp s r.op with
    | none => s
    | some o =>
      if j.rejected then endOp s r.op (compl 0x34 2 0 far)
      else if joinOf o j.generation.toNat = j then setObj s b { x with run := some { r with joined := r.joined ++ [dir] } }
      else
        let s1 := if (runDirs r).contains dir then s
          else collSend s dir 0x20 o.tenant b r.gen.toNat 0 0 (joinBytes (joinOf o r.gen.toNat)) false
        endOp s1 r.op (compl 0x34 1 0 far)
  | .data tenant index flags payload poison =>
    match findOp s r.op with
    | none => s
    | some o => if tenant = o.tenant then setObj s b { x with run := some (inboxTakes o r dir index flags payload poison) } else s
  | .abort tenant dev lost =>
    let mine := (runDirs r).contains dir && tenant.toNat == objTenant s b
    if runDone r || !mine then s else endOp s r.op (if lost then compl 7 0 0 dev else compl 0x36 0 0 dev)

/-- A message for object `b`: taken by the member of its generation, held for a later one, or dropped when its
generation is over. -/
def collReceive (s : State) (b dir gen : Nat) (m : CollMsg) : State :=
  let x := objOf s b
  let here := match x.run with
    | some r => r.gen.toNat % 256
    | none => objGen s b % 256
  let ahead := (gen + 256 - here) % 256
  match x.run with
  | some r =>
    if ahead = 0 then runTakes s b r dir m
    else if ahead < 128 then setObj s b { x with latched := x.latched ++ [(dir, gen, m)] } else s
  | none => if ahead < 128 then setObj s b { x with latched := x.latched ++ [(dir, gen, m)] } else s

/- Values -/

/-- The operation reduces (R412). -/
def collReduces (o : Op) : Bool := collOp o == 0x70 || collOp o == 0x71
/-- Its elements are read as numbers: those of a reduction, and every EXA144 word (12 R334). -/
def collArith (o : Op) : Bool := collReduces o || collFmt o == 4
/-- An element of IN as it enters a reduction: every NaN is the canonical one (13 R353), and a malformed EXA144 word is NaN and
raises invalid (12 R334). -/
def collEnter (fmt x : Nat) : Nat × FFlags :=
  match fmt with
  | 2 => (if (fDecode fp32 x) matches .nan _ then fmtNaN fp32 else x, 0)
  | 3 => (if (fDecode bf16 x) matches .nan _ then fmtNaN bf16 else x, 0)
  | 4 => let (v, fl) := exaRead (x % 2 ^ 192)
    (exaWord v, fl)
  | _ => (x, 0)
/-- An element of a reduction as the result holds it. -/
def collLeave (fmt x : Nat) : Nat := if fmt = 4 then exaWord (laneExa (partialLane x)).1 else x
/-- Combine two elements of a reduction (13 R361). -/
def collAdd (fmt a b : Nat) : Nat × FFlags := if fmt = 4 then partialAdd a b else addElems fmt a b

/-- Elements given with their flags, those at poisoned places as zero and without any: a poisoned operand never enters
arithmetic (13 R365). -/
def collElems (w : Nat) (bad : List Nat) (l : List (Nat × FFlags)) : List Byte × FFlags :=
  let l' := l.zipIdx.map (fun x => if bad.contains x.2 then ((0 : Nat), (0 : FFlags)) else x.1)
  (l'.flatMap (fun x => toBytes w x.1), l'.foldl (fun f x => f ||| x.2) 0)
/-- Combine an element that came with the own one; a poisoned one makes the result poisoned (R416). -/
def joinElem (o : Op) (a b : Nat × Bool) : (Nat × Bool) × FFlags :=
  if a.2 || b.2 then ((0, true), 0)
  else
    let (v, fl) := collAdd (collFmt o) a.1 b.1
    ((v, false), fl)

/-- Send elements of the run to a neighbour: data flits, each with its index and the flags raised so far. -/
def sendElems (o : Op) (r : CollRun) (dir : Nat) (l : List (Nat × Bool)) : EngM CollRun := do
  let gs := flitGroups (flitElems (collFmt o)) l
  let at_ := sget (fun _ => 0) r.outs dir
  modify (fun s => gs.zipIdx.foldl (fun st g =>
    collSend st dir 0x21 o.tenant (collBar o) r.gen.toNat (at_ + g.2) r.flags (packElems (collFmt o) g.1.1) g.1.2) s)
  pure { r with outs := sset (fun _ => 0) r.outs dir (at_ + gs.length) }

/-- The offset of BROADCAST's root. -/
def rootOffset (o : Op) : List Nat :=
  let e := collExt o
  let n := collRoot o
  [n % e.getD 0 1, n / e.getD 0 1 % e.getD 1 1, n / (e.getD 0 1 * e.getD 1 1)]
/-- Elements of the partial of dimension `d` over the members whose offset in it is below `n` (R412, R414). -/
def partialLen (o : Op) (r : CollRun) (d n : Nat) : Nat :=
  let below := ((List.range d).map (fun i => r.ext.getD i 1)).foldl (· * ·) 1
  let rootHere := (List.range 3).all (fun i => decide (i ≤ d) || (rootOffset o).getD i 0 == r.off.getD i 0)
  match collOp o with
  | 0x72 => collCount o * below * n
  | 0x73 => if rootHere && decide ((rootOffset o).getD d 0 < n) then collCount o else 0
  | 0x74 => 0
  | _ => collIn o
/-- Where this member's value on entering dimension `d` stands among the elements of the result: ALL_GATHER puts each block at its
rank. -/
def valueBase (o : Op) (r : CollRun) (d : Nat) : Nat :=
  if collOp o = 0x72 then collCount o * rankOf ((List.range 3).map (fun i => if i < d then 0 else r.off.getD i 0)) r.ext else 0
/-- The chain of dimension `d` is the first of the network phase: the member's value is IN. -/
def firstChain (r : CollRun) (d : Nat) : Bool := (List.range d).all (fun i => r.ext.getD i 1 == 1)

/-- Elements for which STAGE has room (R418). -/
def stageRoom (o : Op) : Nat := (collOut o * collWidth o + 0x100000) / collWidth o
/-- Elements `i` to `i + n` of the member's value, which stands in STAGE as far as that has room (R414; log entry 22). -/
def stageGet (o : Op) (r : CollRun) (i n : Nat) : EngM (List (Nat × Bool)) := do
  let w := collWidth o
  let stage := localPart (slotCur o 2)
  for b in blocksOf (stage + i * w) (min n (stageRoom o - i) * w) do
    engRule o .collective 2 (kEngine ||| kRead) false b (b - stage)
    engReady b
  let s ← get
  pure ((List.range n).map (fun k =>
    let a := stage + (i + k) * w
    if i + k < stageRoom o then (ofBytes (memBytes s a w), r.poison.contains (i + k) || poisonIn s a w)
    else (sget (fun _ => 0) r.spill (i + k), r.poison.contains (i + k))))
/-- Elements from `i` on become part of the member's value. -/
def stagePut (o : Op) (r : CollRun) (i : Nat) (l : List (Nat × Bool)) : EngM CollRun := do
  let near := l.take (stageRoom o - i)
  let w := collWidth o
  engWrite o .collective 2 kWrite (localPart (slotCur o 2) + i * w) (near.flatMap (fun e => toBytes w e.1)) (fun k => i * w + k)
  let marks := l.zipIdx.filterMap (fun e => if e.1.2 then some (i + e.2) else none)
  pure { r with
    poison := r.poison.filter (fun k => decide (k < i) || decide (i + l.length ≤ k)) ++ marks
    spill := (l.zipIdx.drop near.length).foldl (fun m e => sset (fun _ => 0) m (i + e.2) e.1.1) r.spill }

/-- Elements `i` to `i + n` of IN, read as they are needed; a poisoned one is marked, and ends nothing yet (R414, R416). The elements
of a reduction enter it. -/
def collLoad (o : Op) (i n : Nat) : EngM (List (Nat × Bool) × FFlags) := do
  let w := collWidth o
  let a := localPart (slotCur o 0)
  for b in blocksOf (a + i * w) (n * w) do
    engRule o .collective 0 (kEngine ||| kRead) false b (b - a)
    engReady b
  let s ← get
  let es := (List.range n).map (fun k =>
    let x := a + (i + k) * w
    if poisonIn s x w then ((0, true), (0 : FFlags))
    else if collArith o then
      let (v, fl) := collEnter (collFmt o) (ofBytes (memBytes s x w))
      ((v, false), fl)
    else ((ofBytes (memBytes s x w), false), 0))
  pure (es.map (fun e => e.1), es.foldl (fun f e => f ||| e.2) 0)
/-- Elements of this member's own value on entering dimension `d`. -/
def collOwn (o : Op) (r : CollRun) (d i n : Nat) : EngM (List (Nat × Bool) × FFlags) := do
  if firstChain r d then collLoad o i n
  else
    let l ← stageGet o r (valueBase o r d + i) n
    pure (l, 0)
/-- The first `n` elements that have come from a neighbour and have not been passed on. -/
def inboxElems (o : Op) (r : CollRun) (dir n : Nat) : List (Nat × Bool) :=
  let e := inboxOf r dir
  ((splitElems (collWidth o) (e.bytes.length / collWidth o) e.bytes).zipIdx.map (fun x => (x.1, e.poison.contains (e.taken + x.2)))).take n
/-- Elements that have come from a neighbour. -/
def inboxCount (o : Op) (r : CollRun) (dir : Nat) : Nat := (inboxOf r dir).taken + (inboxOf r dir).bytes.length / collWidth o
/-- Elements of a neighbour have been passed on. -/
def inboxDrop (o : Op) (r : CollRun) (dir n : Nat) : CollRun :=
  let e := inboxOf r dir
  let e' : CollIn := { e with
    taken := e.taken + n, bytes := e.bytes.drop (n * collWidth o), poison := e.poison.filter (fun i => decide (e.taken + n ≤ i)) }
  { r with inbox := r.inbox.filter (fun x => x.dir != dir) ++ [e'], flags := r.flags ||| e.flags }

/-- Elements of the partial of this dimension that can be passed on by now. -/
def partialReady (o : Op) (r : CollRun) : Nat :=
  let d := r.dim
  let i := r.off.getD d 0
  let all := partialLen o r d (i + 1)
  let came := inboxCount o r (2 * d + 1)
  let below := partialLen o r d i
  if i = 0 then all
  else if (inboxOf r (2 * d + 1)).flits = 0 then 0
  else if collReduces o || came < below then min came all
  else all
/-- The partial of this dimension goes on in the + direction, and at the last offset turns and becomes the result (R413, R414): the
elements that can be passed on by now, each joined with the own one. -/
def passPartial (o : Op) (r : CollRun) : EngM CollRun := do
  let d := r.dim
  let i := r.off.getD d 0
  let down := 2 * d + 1
  let last := i + 1 == r.ext.getD d 1
  let dir := if last then down else 2 * d
  let n := partialReady o r
  let came := i == 0 || (inboxOf r down).flits != 0
  if r.sent || !r.joined.contains dir || !came || (n == r.passed && partialLen o r d (i + 1) != 0) then pure r
  else
    let below := if i = 0 then 0 else partialLen o r d i
    let (l, fl, used) ←
      if collReduces o then do
        let (own, fl) ← collOwn o r d r.passed (n - r.passed)
        if i = 0 then pure (own, fl, 0)
        else
          let js := List.zipWith (joinElem o) (inboxElems o r down (n - r.passed)) own
          pure (js.map (fun x => x.1), js.foldl (fun f x => f ||| x.2) fl, n - r.passed)
      else do
        let theirs := inboxElems o r down (min n below - r.passed)
        let from_ := max r.passed below
        let (own, fl) ← if from_ < n then collOwn o r d (from_ - (if collOp o = 0x72 then below else 0)) (n - from_) else pure ([], 0)
        pure (theirs ++ own, fl, theirs.length)
    let r1 := if i = 0 then r else inboxDrop o r down used
    let r2 := { r1 with flags := r1.flags ||| fl.toNat, passed := n, sent := n == partialLen o r d (i + 1) }
    let r3 ← if last then stagePut o r2 (valueBase o r (d + 1) + r.passed) l else pure r2
    sendElems o r3 dir l
/-- The result of this dimension returns in the − direction (R414): what has come of it is put into STAGE and sent on. -/
def passResult (o : Op) (r : CollRun) : EngM CollRun := do
  let d := r.dim
  let i := r.off.getD d 0
  let up := 2 * d
  let all := partialLen o r d (r.ext.getD d 1)
  let l := inboxElems o r up (min (inboxCount o r up) all - r.back)
  let token := r.sent && (inboxOf r up).flits != 0 && all == 0
  if i + 1 = r.ext.getD d 1 || (l = [] && !token) then pure r
  else
    let r1 := { inboxDrop o r up l.length with back := r.back + l.length }
    let r2 ← stagePut o r1 (valueBase o r (d + 1) + r.back) l
    if i = 0 then pure r2 else sendElems o r2 (2 * d + 1) l
/-- What can be done now in the dimension in progress; once its result is whole, the next begins. -/
def chainMove (o : Op) (r : CollRun) : EngM CollRun := do
  let d := r.dim
  let m := r.ext.getD d 1
  if m = 1 then pure { r with dim := d + 1 }
  else
    let r1 ← passPartial o r
    let r2 ← passResult o r1
    let whole := r.off.getD d 0 + 1 == m || ((inboxOf r2 (2 * d)).flits != 0 && decide (partialLen o r d m ≤ r2.back))
    pure (if r2.sent && whole then { r2 with dim := d + 1, passed := 0, sent := false, back := 0 } else r2)

/- The operation -/

/-- Check that the capabilities of the used slots hold their rights over their extents, and that they are local (R419). -/
def collAccess (o : Op) : List (Nat × Nat × Bool) → EngM Unit
  | [] => pure ()
  | (n, ext, _) :: rest => do
    let rights := if n = 0 then rLD ||| rDMA else if n = 1 then rST ||| rDMA else rLD ||| rST ||| rDMA
    engCapCheck o n rights 0 ext 1
    let _ ← engLocal o .collective n (if n = 0 then kRead else if n = 1 then kAtomic else kWrite)
    collAccess o rest

/-- Begin on the object: BUSY, the joins, and what was held for this generation (R410, R411, R419). -/
def collBegin (o : Op) : EngM Compl := do
  let s ← get
  collAccess o (collSlots s o)
  let b := collBar o
  engNeed (objTenant s b == o.tenant.toNat) 0x0B 2 0
  engNeed (!objBusy s b) 0x35 0 0
  engNeed (collSize o == 1 || placeValid s) 7 0 0
  let gen := objGen s b
  let r : CollRun :=
    { op := o.id, gen := BitVec.ofNat 16 gen, off := collOffOf s o (deviceNo s), ext := collExt o, joined := [], inbox := [],
      dim := 0, passed := 0, sent := false, back := 0, outs := [], poison := [], spill := [], flags := 0, staged := false, written := 0,
      late := [] }
  let x := objOf s b
  let mine := x.latched.filter (fun l => l.2.1 == gen % 256)
  let s1 := regSetFld (setObj s b { latched := x.latched.filter (fun l => l.2.1 != gen % 256), run := some r }) (Reg.fabBar b) 8 1 1
  let s2 := (runDirs r).foldl (fun st dir => collSend st dir 0x20 o.tenant b gen 0 0 (joinBytes (joinOf o gen)) false) s1
  let s3 := mine.foldl (fun st l =>
    match (objOf st b).run with
    | some r' => runTakes st b r' l.1 l.2.2
    | none => st) s2
  set s3
  throw .goOn

/-- Moves until the member waits or its network phase ends; each stands once it is made. -/
def chainMoves (o : Op) : Nat → CollRun → EngM Unit
  | 0, _ => pure ()
  | n + 1, r => do
    if runDone r then pure ()
    else
      let r1 ← engStep (chainMove o r)
      modify (fun s => setObj s (collBar o) { objOf s (collBar o) with run := some r1 })
      if r1.dim = r.dim then pure () else chainMoves o n r1
/-- The network phase, as far as it goes. In a group of one the member's value is the result. -/
def collNetwork (o : Op) (r : CollRun) : EngM Compl := do
  if collSize o = 1 && collReads (← get) o then
    let (l, fl) ← collLoad o 0 (collIn o)
    let r1 ← stagePut o r 0 l
    modify (fun s => setObj s (collBar o) { objOf s (collBar o) with run := some { r1 with dim := 3, flags := fl.toNat } })
  else chainMoves o 4 r
  throw .goOn

/-- The member's result: its elements and which of them are poisoned (R412). -/
def collResult (o : Op) (r : CollRun) : EngM (List Byte × List Nat) := do
  let w := collWidth o
  let l ← stageGet o r (if collOp o = 0x71 then rankOf r.off r.ext * collCount o else 0) (collOut o)
  pure (l.flatMap (fun e => toBytes w (if collArith o then collLeave (collFmt o) e.1 else e.1)),
    l.zipIdx.filterMap (fun e => if e.1.2 then some e.2 else none))

/-- The value of an EXA144 element, converted once to fp32 (R414; 12 R336 with OVF = 0). -/
def collToFp32 (o : Op) (bad : List Nat) (v : List Byte) : List Byte × FFlags :=
  collElems 4 bad ((splitElems (collWidth o) (v.length / collWidth o) v).map (fun x =>
    let (e, fl) := exaRead (x % 2 ^ 192)
    let (y, fl') := convertFloat fp32 false (exaVal e)
    (y, fl ||| fl')))

/-- The stacks in Throttle or Critical that hold units of [a, a + n). -/
def lateStacks (s : State) (a n : Nat) : List Nat :=
  ((blocksOf a n).filterMap (fun b =>
    let k := stackState s (stackOf s b)
    if regionOf b = .hbm && (k == 1 || k == 2) then some (stackOf s b) else none)).eraseDups

/-- Poison those units of elements `bad`, of `w` bytes each from a local address, that lie in [lo, hi). -/
def poisonElems (s : State) (a w : Nat) (bad : List Nat) (lo hi : Nat) : State :=
  bad.foldl (fun st i => ((unitsOf (a + i * w) w).filter (fun u => decide (lo ≤ u.1) && decide (u.1 < hi))).foldl
    (fun st' u => poisonUnit st' u.1) st) s

/-- The member of the operation, as it stands. -/
def collRun (o : Op) : EngM (Option CollRun) := do
  let s ← get
  pure (objOf s (collBar o)).run
/-- Replace it. -/
def collSetRun (o : Op) (f : CollRun → CollRun) : EngM Unit :=
  modify (fun s => let x := objOf s (collBar o)
    setObj s (collBar o) { x with run := x.run.map f })

/-- The final result stands at the start of STAGE (R414); an element derived from poison poisons its units there. -/
def collStage (o : Op) (r : CollRun) : EngM Unit := do
  if r.staged || collOp o = 0x74 then pure ()
  else
    let stage := localPart (slotCur o 2)
    engStep (do
      let (v, bad) ← collResult o r
      engWrite o .collective 2 kWrite stage v (fun i => i)
      modify (fun s => poisonElems s stage (collWidth o) bad stage (stage + v.length)))
    collSetRun o (fun r => { r with staged := true })

/-- The elements of the result as they stand in STAGE, and which of them are poisoned. -/
def collStaged (o : Op) : EngM (List Byte × List Nat) := do
  let stage := localPart (slotCur o 2)
  let n := collOut o * collWidth o
  engStep (do
    for b in blocksOf stage n do
      engRule o .collective 2 (kEngine ||| kRead) false b (b - stage)
      engReady b)
  let s ← get
  pure (memBytes s stage n, (List.range (collOut o)).filter (fun i => poisonIn s (stage + i * collWidth o) (collWidth o)))

/-- The write-back (R414, R416, R420): the result goes from STAGE to OUT block by block, and stands as far as it has come while it
waits for a stack; an element derived from poison poisons its units. The time it took is a free value (log entry 22). -/
def collWriteBack (o : Op) (r : CollRun) : EngM Compl := do
  if collOp o = 0x74 then
    pure (compl 0 0 (BitVec.ofNat 32 (rankOf r.off r.ext)) 0)
  else
    collStage o r
    let (v, bad) ← collStaged o
    let (out, fl) := if collFp32 o then collToFp32 o bad v else (v, (0 : FFlags))
    let a := localPart (slotCur o 1)
    let w := collOutWidth o
    for b in (blocksOf a out.length).filter (fun b => decide (r.written ≤ b - a)) do
      let m := min (a + out.length) (alignDown b 64 + 64) - b
      engStep (do
        engRule o .collective 1 (kEngine ||| kAtomic) true b (b - a)
        engReady b
        modify (fun s => poisonElems (storeLocal s b ((out.drop (b - a)).take m)) a w bad b (b + m)))
      collSetRun o (fun r => { r with written := b - a + m })
      engProgress o (b - a + m)
      modify (fun s =>
        let x := objOf s (collBar o)
        setObj s (collBar o) { x with run := x.run.map (fun r => { r with late := (r.late ++ lateStacks s b m).eraseDups }) })
    let s ← get
    match firstPoison s a out.length with
    | some i => engEnd 6 0 i
    | none =>
      let late := ((objOf s (collBar o)).run.map (fun r => r.late)).getD []
      let flags : FFlags := BitVec.ofNat 5 r.flags ||| fl
      let (t, s1) := freeNext s
      set s1
      let reason := (if bitAt flags 2 || bitAt flags 4 then 1 else 0) + (if late = [] then 0 else 2)
      pure (compl 0 reason (BitVec.ofNat 32 (rankOf r.off r.ext))
        (flagBits flags + (late.map (fun n => 2 ^ (8 + n))).sum + (fld t 0 32).toNat * 2 ^ 32))

/-- Carry a collective on: begin, network phase, write-back. -/
def collBody (o : Op) : EngM Compl := do
  let s ← get
  match (objOf s (collBar o)).run with
  | none => collBegin o
  | some r =>
    if r.op != o.id then collBegin o
    else if !runDone r then collNetwork o r
    else
      let c ← collWriteBack o r
      modify (fun s => regWrapAdd s Reg.fabColls 1)
      pure c

/-- Carry operation `id` as far as it goes: it begins, runs its network phase and writes back; an ended member is closed. -/
def collGo (s : State) (id opcode : Nat) : State :=
  let step (st : State) : State := runOp st id opcode collFields collBody
  dropColl (step (collLost (step (collLost (step s)))))

/-- Carry on the member of object `b`. -/
def collContinue (s : State) (b : Nat) : State :=
  let s0 := dropColl s
  match (objOf s0 b).run with
  | none => s0
  | some r =>
    match findOp s0 r.op with
    | none => s0
    | some o => collGo s0 o.id (collOp o)

/-- ALL_REDUCE (R412). -/
def execAllReduce (op : Nat) (s : State) : Host.Outcome State Fault Refusal := .next (collGo s op 0x70)
/-- REDUCE_SCATTER (R412). -/
def execReduceScatter (op : Nat) (s : State) : Host.Outcome State Fault Refusal := .next (collGo s op 0x71)
/-- ALL_GATHER (R412). -/
def execAllGather (op : Nat) (s : State) : Host.Outcome State Fault Refusal := .next (collGo s op 0x72)
/-- BROADCAST (R412). -/
def execBroadcast (op : Nat) (s : State) : Host.Outcome State Fault Refusal := .next (collGo s op 0x73)
/-- BARRIER (R412). -/
def execBarrier (op : Nat) (s : State) : Host.Outcome State Fault Refusal := .next (collGo s op 0x74)

/- Arrival -/

/-- COLL_JOIN (R411): matched, held for a later generation, or answered by a rejection when the object belongs to another
tenant. -/
def execCollJoin (link : Link) (object : BitVec 6) (join : Join) (s : State) : Host.Outcome State Fault Refusal :=
  let b := object.toNat
  let dir := portDir link.port.toNat
  .next (recvMsg s link (fun s1 => (true,
    if !join.rejected && objTenant s1 b != join.tenant.toNat then
      collSend s1 dir 0x20 join.tenant b join.generation.toNat 0 0 (joinBytes { join with rejected := true }) false
    else collContinue (collReceive s1 b dir (join.generation.toNat % 256) (.join join)) b)))

/-- COLL_DATA (R413, R414): a flit of a partial from the − neighbour, of a result from the + neighbour. -/
def execCollData (link : Link) (object : BitVec 6) (generation : BitVec 8) (index : BitVec 40) (flags : BitVec 5)
    (payload : List Byte) (poison : Bool) (tenant : Byte) (s : State) : Host.Outcome State Fault Refusal :=
  .next (recvMsg s link (fun s1 => (true,
    collContinue (collReceive s1 object.toNat (portDir link.port.toNat) generation.toNat
      (.data tenant index.toNat flags.toNat payload poison)) object.toNat)))

/-- COLL_ABORT (R416). -/
def execCollAbort (link : Link) (object : BitVec 6) (generation : BitVec 8) (device : BitVec 10) (lost : Bool)
    (tenant : Byte) (s : State) : Host.Outcome State Fault Refusal :=
  .next (recvMsg s link (fun s1 => (true,
    collContinue (collReceive s1 object.toNat (portDir link.port.toNat) generation.toNat
      (.abort tenant device.toNat lost)) object.toNat)))

end Sys2Proof.Machine
end

