-- ==== Sys2Proof/Machine/Link.lean ====
section
/-! DEFINITION. Fabric ports (spec 15 R388 to R398, R408; 01 R25; 21 R565): lanes, flits, replay, retraining, training with
identity, fencing. -/

namespace Sys2Proof.Machine

/- Port state -/

/-- Set STATE and FENCE_REASON of a port. -/
def setPortState (s : State) (p state reason : Nat) : State :=
  regSetFld (regSetFld s (Reg.portStatus p) 0 3 state) (Reg.portStatus p) 8 4 reason
/-- FENCE_REASON. -/
def fenceReason (s : State) (p : Nat) : Nat := regFld s (Reg.portStatus p) 8 4
/-- PORT_STATUS.SPARE. -/
def spareLane (s : State) (p : Nat) : Nat := regFld s (Reg.portStatus p) 4 3
/-- The plan leaves the port unused (R397, reason 4). -/
def portUnused (s : State) (p : Nat) : Bool := portState s p == 0 && fenceReason s p == 4
/-- The number of the place that the TMC delivered (18 R467). -/
def myNumber (s : State) : Option Nat := s.place.map (fun x => placeNumber x.2.2 x.2.1 x.1)

/-- ID_PLACE rises once the plan is loaded and every link has matched or been fenced (01 R25). -/
def placeSettle (s : State) : State :=
  match s.place with
  | none => s
  | some (pos, tray, rack) =>
    if planLoaded s && !placeValid s && !fenced s &&
        (List.range 12).all (fun p => portUnused s p || portUp s p || portState s p == 4) then
      regSet s Reg.idPlace (BitVec.ofNat 64 (placeNumber rack tray pos + pos * 2 ^ 10 + tray * 2 ^ 12 + rack * 2 ^ 17 + 2 ^ 31))
    else s

/-- FAB_COORD (R399), once the plan is loaded. -/
def coordWord (s : State) : Nat :=
  match myNumber s with
  | some d => if planLoaded s then
      let c := coordsOf d
      c.getD 0 0 + c.getD 1 0 * 8 + c.getD 2 0 * 64 else 0
  | none => 0
/-- FAB_STATUS as it reads: UP and FENCED by port, PLAN and SHAPE (R417). -/
def fabStatusWord (s : State) : Nat :=
  ((List.range 12).map (fun p => (if portUp s p then 2 ^ p else 0) + (if portState s p = 4 then 2 ^ (12 + p) else 0))).sum +
    regFld s Reg.fabStatus 24 3 * 2 ^ 24
/-- ID_RESOURCES.PORTS_UP (01 R24). -/
def portsUp (s : State) : Nat := ((List.range 12).filter (fun p => portUp s p)).length

/- Holdover (02 R43) -/

/-- Hops that a port's neighbour last told. -/
def pathHops (s : State) (p : Nat) : Nat := sget (fun _ => 31) s.time.paths p
/-- The port leads to a neighbour that has a path to the master. -/
def hasPath (s : State) (p : Nat) : Bool := (portState s p == 2 || portUp s p) && pathHops s p != 31
/-- A device that has lost every path to the master enters holdover. -/
def holdoverCheck (s : State) : State := if (List.range 12).any (hasPath s) then s else enterHoldover s

/-- What a port's neighbour told of the master is forgotten: the link to it is lost or new. -/
def dropPath (s : State) (p : Nat) : State :=
  { s with time := { s.time with paths := sset (fun _ => 31) s.time.paths p 31, told := sset (fun _ => 1024) s.time.told p 1024 } }

/- Time flits (02 R41, R50) -/

/-- TB_CONTROL.ALIGN_EN. -/
def alignEn (s : State) : Bool := regBit s Reg.tbControl 1
/-- TB_STATUS.MASTER. -/
def isMaster (s : State) : Bool := regBit s Reg.tbStatus 2
/-- The lowest candidate this device knows of: those it was told, and itself with MASTER_EN (R50). -/
def knownCandidate (s : State) : Option Nat :=
  let own := if regBit s Reg.tbControl 0 then myNumber s else none
  match s.time.candidate.map BitVec.toNat, own with
  | some a, some b => some (min a b)
  | some a, none => some a
  | none, b => b
/-- The master that the plan names, or the lowest candidate. -/
def offered (s : State) : Option Nat :=
  match s.plan.bind (fun p => p.master) with
  | some m => some m
  | none => knownCandidate s
/-- The master of the first alignment (R50): the plan's, else the lowest candidate, else device 0. -/
def chosenMaster (s : State) : Nat := (offered s).getD 0
/-- The MASTER field of this device's time flits (R50): once aligned, the master it follows. -/
def flitMaster (s : State) : Nat := if s.time.aligned1 then (s.time.candidate.map BitVec.toNat).getD 0 else chosenMaster s
/-- MASTER that a port's neighbour last told. -/
def toldMaster (s : State) (p : Nat) : Nat := sget (fun _ => 1024) s.time.told p
/-- HOPS of this device's time flits: its hops to the device that MASTER names; 0 on that device, 31 without a path. Before the
first alignment only the neighbours that name the same candidate lead to it (R50; log entry 24). -/
def flitHops (s : State) : Nat :=
  if isMaster s || (!s.time.aligned1 && (offered s).isSome && myNumber s == offered s) then 0
  else
    let h := ((List.range 12).filter (fun p => hasPath s p && (s.time.aligned1 || toldMaster s p == flitMaster s))).foldl
      (fun m p => min m (pathHops s p)) 31
    if h = 31 then 31 else h + 1
/-- Bytes 8 to 25 of the time flit of a port (15 R392): TX_TBC, RX_TBC, MASTER, HOPS and ALIGNED. -/
def timeBody (s : State) (p : Nat) : List Byte :=
  toBytes 8 s.tbc.toNat ++ toBytes 8 (portOf s p).rxTime.toNat ++
    toBytes 2 (flitMaster s % 2 ^ 10 + flitHops s % 2 ^ 5 * 2 ^ 10 + (if alignedNow s then 2 ^ 15 else 0))
/-- Send a time flit by a port; during a retrain it waits for its end (15 R421). -/
def sendTime (s : State) (p : Nat) : State :=
  if !portLinked s p then s
  else if retraining s p then setPort s p { portOf s p with timeDue := true }
  else sendFlit s p 2 0 0 (timeBody s p)

/- Fencing (R398, R408) -/

/-- A request held where it can no longer go is answered lost (R401, R408); a response is discarded. -/
def answerLost (s : State) (m : Msg) : State :=
  if isResponse m.type then regOr s Reg.fabErr 1
  else if m.src.toNat = deviceNo s then loseRequest s m.rid.toNat
  else replyTo s m.src m.tenant m.type m.addr m.rid 3 false []
/-- The message is a request. -/
def isRequest (type : BitVec 6) : Bool := decide (1 ≤ type.toNat) && decide (type.toNat ≤ 6)
/-- Own requests that leave by another port now. -/
def movePort (s : State) (m : Msg) (p : Nat) : State :=
  { s with reqs := s.reqs.map (fun e => if e.1 = m.rid.toNat && m.src.toNat == deviceNo s then (e.1, { e.2 with port := p }) else e) }
/-- A message that waits at a port that is fenced takes its way anew (R421). -/
def rerouteMsg (s : State) (dir vc : Nat) (m : Msg) : State :=
  if vc = 4 then
    match [2 * dir, 2 * dir + 1].find? (fun q => !portFenced s q) with
    | some q => enqueueMsg s q 4 m
    | none => s
  else
    match routeMsg s m.dest.toNat m.src.toNat m.dirs m.type (vc % 2 == 1) with
    | .port q vc' dirs => movePort (enqueueMsg s q vc' { m with dirs := dirs }) m q
    | .lost mis => answerLost (if mis then regOr s Reg.fabErr 1 else s) m
    | .deliver => s

/-- A prepared lane move is dropped, and the codeword headers read normal again (R391). -/
def dropMove (s : State) (p : Nat) : State :=
  let x := portOf s p
  if x.moving then emit (setPort s p { x with moving := false }) (.codeword p 0) else s
/-- Fence a port with a reason (R398): the record, the withdraw flit, then what the port held. An operator fence takes over
a fence of another reason. -/
def fencePort (s : State) (p reason : Nat) : State :=
  if portUnused s p then s
  else if portState s p = 4 then (if reason = 3 then setPortState s p 4 3 else s)
  else
    let x := portOf s p
    let far := farDevice s p
    let s0 := setPortState (regSetFld (dropMove s p) (Reg.portStatus p) 7 1 0) p 4 reason
    let s1 := recordEvent s0
      { cls := 4, source := 0x0A, unit := p, code := 1, tenant := 0xFF, action := 4, addr := 0,
        payload := toBytes 1 p ++ toBytes 1 reason ++ toBytes 1 (x.subst.getD 0xFF) ++ [0] ++
          toBytes 8 (regGet s (Reg.portFarSerial p)).toNat ++ toBytes 4 (regGet s (Reg.portFarPlace p)).toNat }
    let s2 := dropPath (if portState s p = 0 then s1 else sendFlit s1 p 6 0 0 []) p
    let s3 := setPort s2 p { portOf s2 p with
      queue := [], replay := [], replays := [], subst := none, clkLost := false, timeDue := false, parked := [] }
    let held := x.replay.map (fun e => (e.2.1, e.2.2))
    let s4 := (held.filter (fun e => e.1 != 4)).foldl (fun st e => answerLost st e.2) s3
    let waiting := (held.filter (fun e => e.1 == 4)) ++ x.queue.flatMap (fun q => q.2.map (fun m => (q.1, m)))
    let s5 := waiting.foldl (fun st e => rerouteMsg st (portDir p) e.1 e.2) s4
    let s6 := loseRequests s5 (fun r => r.port == p && r.msg.dest.toNat == far)
    holdoverCheck (placeSettle (collLost s6))

/-- WITHDRAW (R398): the far end withdraws; this end is fenced with reason 5. -/
def execWithdraw (link : Link) (s : State) : Host.Outcome State Fault Refusal :=
  let p := link.port.toNat
  if p < 12 && portState s p != 0 && s.fabClk && !phyStopped s && !fenced s then .next (fencePort s p 5) else .next s

/- Training and identity (R397) -/

/-- A planned port begins to train: its link state is new. -/
def beginTraining (s : State) (p : Nat) : State :=
  let x := portOf s p
  setPortState (setPort (dropPath s p) p { portReset with
    queue := x.queue, spareSince := x.spareSince, lastMove := x.lastMove, clkLost := !s.fabClk }) p 1 0
/-- Load the plan into the ports: the unused ones stay down with reason 4, those that an operator has fenced stay fenced (R398),
the others train (R397). -/
def planPorts (s : State) (plan : Plan) (me : Nat) : State :=
  (List.range 12).foldl (fun st p =>
    if (planFar plan me p).isNone then setPortState st p 0 4
    else if regBit st (Reg.portCtrl p) 0 then setPortState st p 4 3
    else beginTraining st p) s

/-- Vertical eye margins, measured at training: free values (log entry 23). -/
def measureEyes (s : State) (p : Nat) : State :=
  (List.range 5).foldl (fun st l =>
    let (v, s1) := freeNext st
    regSetFld s1 (Reg.laneInfo (8 * p + l)) 0 8 (fld v 0 8).toNat) s

/-- Bytes 8 to 23 of this device's identity flit by a port (R392): SERIAL, PORT, and the tray position, tray and rack that the T4
reports. -/
def identityBody (s : State) (p : Nat) : List Byte :=
  let at_ := s.place.getD (0, 0, 0)
  toBytes 8 Config.serial.toNat ++ toBytes 1 (p % 16) ++ toBytes 1 (at_.1 % 4) ++ toBytes 1 (at_.2.1 % 32) ++ toBytes 1 (at_.2.2 % 8)
/-- The identity flit goes out. -/
def sendIdentity (s : State) (p : Nat) : State := sendFlit s p 3 0 0 (identityBody s p)

/-- LINK_TRAINING_DONE (R397, 20 R540): the electrical layer is trained and the identity flit goes out. A port that the far
end had withdrawn trains again when training begins there. Nothing trains without the fabric clock (21 R565). -/
def execLinkTrainingDone (port : BitVec 4) (s : State) : Host.Outcome State Fault Refusal :=
  let p := port.toNat
  if p < 12 && (portState s p == 1 || (portState s p == 4 && fenceReason s p == 5)) && s.fabClk && !phyStopped s && !fenced s then
    let s1 := if portState s p = 4 then beginTraining s p else s
    .next (sendIdentity (measureEyes (setPortState s1 p 2 0) p) p)
  else .next s

/-- IDENTITY_FLIT (R397): the far identity is recorded, and compared with the plan's entry for this device and port. -/
def execIdentityFlit (link : Link) (serial : W64) (farPort : BitVec 4) (trayPos : BitVec 2) (tray : BitVec 5)
    (rack : BitVec 3) (s : State) : Host.Outcome State Fault Refusal :=
  let p := link.port.toNat
  if 12 ≤ p || portState s p != 2 || !s.fabClk || phyStopped s || fenced s then .next s
  else
    let s1 := regSet (regSet (takeLink s link) (Reg.portFarSerial p) serial) (Reg.portFarPlace p)
      (BitVec.ofNat 64 (farPort.toNat + trayPos.toNat * 2 ^ 4 + tray.toNat * 2 ^ 6 + rack.toNat * 2 ^ 11))
    let far := (placeNumber rack.toNat tray.toNat trayPos.toNat, farPort.toNat)
    let ok := match s.plan, myNumber s with
      | some pl, some me => planFar pl me p == some far && (planSerial pl far.1).all (fun x => x == serial)
      | _, _ => false
    .next (if ok then placeSettle (setPortState (setPort s1 p { portOf s1 p with clkLost := false }) p 3 0) else fencePort s1 p 1)

/- Flits (R392 to R394) -/

/-- FLIT_TRANSMIT (R393, R394, R397): the oldest message of a channel is sent when a credit is held and the replay buffer
has room. -/
def execFlitTransmit (port : BitVec 4) (vc : BitVec 3) (s : State) : Host.Outcome State Fault Refusal :=
  let p := port.toNat
  let c := vc.toNat
  let x := portOf s p
  match sget (fun _ => []) x.queue c with
  | [] => .next s
  | m :: rest =>
    let credit := sget creditDflt x.credits c
    if !portCarries s p || 4 < c || credit == 0 || decide (1024 ≤ x.replay.length) then .next s
    else
      let x1 : Port := { x with
        queue := sset (fun _ => []) x.queue c rest, credits := sset creditDflt x.credits c (credit - 1)
        replay := x.replay ++ [(x.txSeq, c, m)], replays := x.replays ++ [0], txSeq := (x.txSeq + 1) % 4096 }
      .next (sendFlit (setPort s p x1) p 1 x.txSeq c (msgBytes m))

/-- IDLE_FLIT (R392, R393): an ACK and returned credits. -/
def execIdleFlit (link : Link) (s : State) : Host.Outcome State Fault Refusal :=
  .next (if portLinked s link.port.toNat then takeLink s link else s)

/-- BAD_FLIT (R391, R394): the flit is discarded, with all message flits after it, and a NAK names the last good SEQ. -/
def execBadFlit (port : BitVec 4) (uncorrectable : Bool) (s : State) : Host.Outcome State Fault Refusal :=
  let p := port.toNat
  if !portLinked s p then .next s
  else .next (sendNak (if uncorrectable then regSatAdd s (Reg.portFecUncorr p) 32 1 else s) p)

/- Retraining (R395) -/

/-- A retrain begins: buffers, credits and SEQ are kept; a prepared lane move begins again later (R421). -/
def beginRetrain (s : State) (p : Nat) (clk : Bool) : State :=
  if !portUp s p || fenced s then s
  else
    let s0 := dropMove s p
    let x := portOf s0 p
    let s1 := setPort s0 p { x with clkLost := x.clkLost || clk }
    if retraining s p then s1
    else regSatAdd (regSetFld (setPort s1 p { portOf s1 p with subst := none }) (Reg.portStatus p) 7 1 1) (Reg.portRetrains p) 32 1

/-- Everything in the replay buffer goes out again, which is one replay (R394). -/
def resend (s : State) (p : Nat) : State :=
  let r := (portOf s p).replay
  if r = [] then s
  else r.foldl (fun st e => sendFlit st p 1 e.1 e.2.1 (msgBytes e.2.2)) (regSatAdd s (Reg.portReplays p) 32 1)

/-- NAK (R394), whose ACK names a SEQ: every flit after that is sent again; one replayed for the eighth time in succession causes a
retrain, which the far end is asked for. -/
def execNak (link : Link) (s : State) : Host.Outcome State Fault Refusal :=
  let p := link.port.toNat
  if !portLinked s p || retraining s p then .next s
  else
    let s0 := takeLink s link
    let x := portOf s0 p
    if x.replay = [] then .next s0
    else
      let s1 := resend (setPort s0 p { x with replays := x.replays.map (· + 1) }) p
      if x.replays.any (fun n => decide (8 ≤ n + 1)) then .next (sendFlit (beginRetrain s1 p false) p 5 0 0 []) else .next s1

/-- RETRAIN_REQUEST (R395). -/
def execRetrainRequest (link : Link) (s : State) : Host.Outcome State Fault Refusal :=
  let p := link.port.toNat
  .next (if portLinked s p then beginRetrain (takeLink s link) p false else s)

/-- LANE_LOCK_LOSS (R395): the far end is asked for a retrain. -/
def execLaneLockLoss (port : BitVec 4) (s : State) : Host.Outcome State Fault Refusal :=
  let p := port.toNat
  if p < 12 && portUp s p && !retraining s p && !fenced s then .next (sendFlit (beginRetrain s p false) p 5 0 0 []) else .next s

/-- A write of PORT_CTRL (R398, R417): FENCE is stored; RETRAIN starts a retrain. -/
def portCtrlSet (s : State) (p v : Nat) : State :=
  let was := regBit s (Reg.portCtrl p) 0
  let s1 := regSet s (Reg.portCtrl p) (BitVec.ofNat 64 (v % 2))
  let s2 :=
    if v.testBit 0 then (if was then s1 else fencePort s1 p 3)
    else if was && portState s1 p == 4 then beginTraining s1 p
    else s1
  if v.testBit 1 && portUp s2 p && !retraining s2 p && !fenced s2 then sendFlit (beginRetrain s2 p false) p 5 0 0 [] else s2

/-- PORT_RETRAIN (R395): PORT_CTRL written with RETRAIN set, FENCE as it stands. -/
def execPortRetrain (agent : Agent) (port : BitVec 4) (s : State) : Host.Outcome State Fault Refusal :=
  let p := port.toNat
  .next (if p < 12 && platformAgent s agent then portCtrlSet s p ((regGet s (Reg.portCtrl p)).toNat % 2 + 2) else s)
/-- PORT_FENCE (R398). -/
def execPortFence (agent : Agent) (port : BitVec 4) (s : State) : Host.Outcome State Fault Refusal :=
  let p := port.toNat
  .next (if p < 12 && platformAgent s agent then portCtrlSet s p 1 else s)
/-- PORT_UNFENCE (R398). -/
def execPortUnfence (agent : Agent) (port : BitVec 4) (s : State) : Host.Outcome State Fault Refusal :=
  let p := port.toNat
  .next (if p < 12 && platformAgent s agent then portCtrlSet s p 0 else s)

/-- Whole hours. -/
def hoursOf (ns : Nat) : Nat := ns / 3600000000000
/-- The lane that has been the spare is it no longer: its hours stand in LANE_INFO (R417). -/
def spareEnds (s : State) (p : Nat) : State :=
  let off := Reg.laneInfo (8 * p + spareLane s p)
  regSetFld s off 16 16 (min (regFld s off 16 16 + hoursOf (elapsed s (portOf s p).spareSince)) 0xFFFF)

/-- RETRAIN_COMPLETE (R395, R421): replay resumes, the first of a new succession, after a time flit that came due meanwhile; or the spare is substituted for the named lane and the port retrains once more;
or the port is fenced with reason 2. While the fabric clock is lost no retrain completes (21 R565). -/
def execRetrainComplete (port : BitVec 4) (ok : Bool) (badLane : Option (BitVec 3)) (s : State) :
    Host.Outcome State Fault Refusal :=
  let p := port.toNat
  let x := portOf s p
  if 12 ≤ p || !portUp s p || !retraining s p || !s.fabClk || phyStopped s || fenced s then .next s
  else if ok then
    let s1 := setPort (measureEyes (regSetFld s (Reg.portStatus p) 7 1 0) p) p
      { x with replays := x.replays.map (fun _ => 1), subst := none, clkLost := false, timeDue := false }
    .next (resend (if x.timeDue && alignEn s then sendTime s1 p else s1) p)
  else
    match badLane.filter (fun l => decide (l.toNat < 5) && l.toNat != spareLane s p && x.subst.isNone) with
    | none => .next (fencePort s p 2)
    | some l =>
      let s1 := regSetFld (setPort (spareEnds s p) p { x with subst := some l.toNat, spareSince := s.tbc }) (Reg.portStatus p) 4 3 l.toNat
      .next (recordEvent (regSatAdd s1 (Reg.portRetrains p) 32 1)
        { cls := 1, source := 0x0A, unit := p, code := 5, tenant := 0xFF, action := 1, addr := 0, payload := [] })

/- The rotating spare (R390) -/

/-- LANE_ROTATION (R390, R391, R421): the copy check begins once the period has passed and the link is quiet; the codeword headers
tell that a move is prepared. -/
def execLaneRotation (port : BitVec 4) (s : State) : Host.Outcome State Fault Refusal :=
  let p := port.toNat
  let x := portOf s p
  if p < 12 && portUp s p && !retraining s p && !x.moving && x.replays.all (· == 0) && !phyStopped s && !fenced s &&
      decide (regFld s Reg.fabCfg 16 8 ≤ hoursOf (elapsed s x.lastMove)) then
    .next (emit (setPort s p { x with moving := true }) (.codeword p 1))
  else .next s

/-- LANE_MOVE (R390, R391): the spare role moves after the one codeword that says so, or the move is abandoned until the next period. -/
def execLaneMove (port : BitVec 4) (clean : Bool) (s : State) : Host.Outcome State Fault Refusal :=
  let p := port.toNat
  let x := portOf s p
  if 12 ≤ p || !x.moving || phyStopped s || fenced s then .next s
  else if clean then
    .next (emit (emit (regSetFld (setPort (spareEnds s p) p { x with moving := false, lastMove := s.tbc, spareSince := s.tbc })
      (Reg.portStatus p) 4 3 ((spareLane s p + 1) % 5)) (.codeword p 2)) (.codeword p 0))
  else .next (emit (regOr (setPort s p { x with moving := false, lastMove := s.tbc }) Reg.fabErr 8) (.codeword p 0))

/- The fabric reference clock (21 R565) -/

/-- A port loses lock with the fabric clock: one that is up retrains, one that trains or compares identities trains anew. -/
def losesClock (s : State) (p : Nat) : State :=
  if portUp s p then beginRetrain s p true
  else if (portState s p == 1 || portState s p == 2) && !fenced s then
    setPort (setPortState s p 1 0) p { portOf s p with clkLost := true }
  else s
/-- FAB_CLK_LOSS: every port loses lock. -/
def execFabClkLoss (s : State) : Host.Outcome State Fault Refusal :=
  if !s.fabClk then .next s
  else .next ((List.range 12).foldl losesClock { s with fabClk := false, fabClkLostAt := s.tbc })

/-- FAB_CLK_RETURN: retrains can complete again. -/
def execFabClkReturn (s : State) : Host.Outcome State Fault Refusal := .next { s with fabClk := true }

/-- FAB_CLK_LOSS_TIMEOUT: 5 ms after the loss, ports still down are fenced with reason 2. -/
def execFabClkLossTimeout (s : State) : Host.Outcome State Fault Refusal :=
  if decide (5000000 ≤ elapsed s s.fabClkLostAt) then
    .next ((List.range 12).foldl (fun st p => if (portOf st p).clkLost && portState st p != 4 then fencePort st p 2 else st) s)
  else .next s

end Sys2Proof.Machine
end

