-- ==== Sys2Proof/Machine/Fabric.lean ====
section
/-! DEFINITION. Tideway messages at this device (spec 15 R401, R405 to R409; 14 R377; 03 R66 to R68): forwarding, remote
accesses performed at their home, and responses. -/

namespace Sys2Proof.Machine

/- Accesses at their home -/

/-- An atomic at a local address with tag storage (05 R127): the old value, or none at a poisoned unit, and the state. -/
def atomicInPlace (s : State) (a func : Nat) (wide : Bool) (operand compare : Nat) : Option Nat × State :=
  let n := if wide then 8 else 4
  if poisonIn s a n then (none, s)
  else
    let old := ofBytes (memBytes s a n)
    match atomicNew func wide old operand compare with
    | some v => (some old, storeLocal s a (toBytes n v))
    | none => (some old, dropLines s none a n)

/-- The rule check of an arrival over every block it touches (04 R95, R101). -/
def arrivalCheck (s : State) (tenant : Nat) (kinds : BitVec 5) (write : Bool) (a n : Nat) : Bool × State :=
  (blocksOf a n).foldl (fun (r : Bool × State) b =>
    if r.1 then
      let (v, s1) := acuCheck r.2 .tideway tenant kinds false write b
      (v.ok, s1)
    else r) (true, s)

/-- Every block of an access can be reached now. -/
def arrivalReady (s : State) (a n : Nat) : Bool := (blocksOf a n).all (fun b => accessReady s b)

/-- A request arrives and is performed: `act` gives the status, the tag, the payload and the state of a permitted one, and the
response goes out after that (16 R425). One that must wait for its memory, or is `busy` (11 R315), stays in its receive buffer,
whose credit is withheld till then (02 R36), and is presented again. -/
def arrive (s : State) (link : Link) (src : BitVec 10) (tenant : Byte) (type : BitVec 6) (addr : BitVec 54) (rid : BitVec 16)
    (kinds : BitVec 5) (write busy : Bool) (n : Nat) (act : State → Nat × Bool × List Byte × State) : State :=
  recvMsg s link (fun s0 =>
    let a := addr.toNat
    let (ok, s1) := arrivalCheck s0 tenant.toNat kinds write a n
    if !ok then (true, replyTo s1 src tenant type addr rid 1 false [])
    else if busy || !arrivalReady s1 a n then (false, askSegment s1 a)
    else
      let (status, tag, payload, s2) := act s1
      (true, replyTo s2 src tenant type addr rid status tag payload))

/-- Kinds of a data access as its issuer's agent makes it (04 R101): the `access` operand tells what the header does not. -/
def arrivalKinds (write : Bool) : Access → BitVec 5
  | .headland => if write then kWrite else kRead
  | .engine => kEngine ||| (if write then kWrite else kRead)
  | .update => kEngine ||| kAtomic

/-- READ (R406). The read of an UPDATE waits while another modifies the row, and holds what it reads (11 R315). -/
def execRead (link : Link) (src : BitVec 10) (tenant : BitVec 8) (addr : BitVec 54) (rid : BitVec 16) (len : BitVec 7)
    (access : Access) (s : State) : Host.Outcome State Fault Refusal :=
  let a := addr.toNat
  let me := Holder.device src.toNat
  let held := deviceNo s * 2 ^ 54 + a
  .next (arrive s link src tenant 1 addr rid (arrivalKinds false access) (access == .update)
    (access == .update && heldByOther s me held len.toNat) len.toNat (fun st =>
      if poisonIn st a len.toNat then (2, false, [], st)
      else (0, false, memBytes st a len.toNat, if access = .update then takeHold st me held len.toNat else st)))

/-- WRITE (R406; 14 R371). The write of an UPDATE ends its hold; when another update has taken the range since its hold lapsed it
is not performed, and answered as lost (11 R315, log entry 19). -/
def execWrite (link : Link) (src : BitVec 10) (tenant : BitVec 8) (addr : BitVec 54) (rid : BitVec 16)
    (payload : List Byte) (access : Access) (s : State) : Host.Outcome State Fault Refusal :=
  let a := addr.toNat
  let me := Holder.device src.toNat
  let held := deviceNo s * 2 ^ 54 + a
  .next (arrive s link src tenant 2 addr rid (arrivalKinds true access) true false payload.length (fun st =>
    if access == .update && !holdsAll st me held payload.length then (3, false, [], st)
    else
      let s1 := storeLocal st a payload
      (if poisonIn s1 a payload.length then 2 else 0, false, [],
        if access = .update then dropHold s1 me held payload.length else s1)))

/-- REMOTE_CLD (R406, R68): TAG only for a tagged granule, an authority with LDC and a capability with GLOB. -/
def execRemoteCld (link : Link) (src : BitVec 10) (tenant : BitVec 8) (addr : BitVec 54) (rid : BitVec 16) (ldc : Bool)
    (s : State) : Host.Outcome State Fault Refusal :=
  let a := addr.toNat
  .next (arrive s link src tenant 3 addr rid kRead false false 16 (fun st =>
    if poisonIn st a 16 then (2, false, [], st)
    else
      let c := loadCap st a
      (0, c.tag && ldc && capHas c rGLOB, toBytes 16 c.bits.toNat, st)))

/-- REMOTE_CST (R406; 03 R60, R66 to R68): a tagged value to an address without tag storage is answered with rights, which come before the
rule check (R63, 04 R104); a tag that R60 forbids is not set. -/
def execRemoteCst (link : Link) (src : BitVec 10) (tenant : BitVec 8) (addr : BitVec 54) (rid : BitVec 16)
    (value : BitVec 128) (tag : Bool) (s : State) : Host.Outcome State Fault Refusal :=
  let a := addr.toNat
  if tag && !hasTags (regionOf a) then
    .next (recvMsg s link (fun st => (true, replyTo st src tenant 4 addr rid 4 false [])))
  else
    .next (arrive s link src tenant 4 addr rid kWrite true false 16 (fun st =>
      let c : Cap := ⟨tag, value⟩
      let keep := (capValid c).tag && capHas c rGLOB
      let s1 := if hasTags (regionOf a) then dropLines (storeCap st a ⟨keep, value⟩) none a 16
        else storeLocal st a (toBytes 16 value.toNat)
      (if poisonIn s1 a 16 then 2 else 0, false, [], s1)))

/-- ATOMIC (R406; 05 R127): performed in cove memory or at the stack controller. The spec gives no outcome for other memory or a reserved
function: it is answered denied, and no deny is counted or recorded, since the rule check has passed (DESIGN CHOICE, log entry 19). -/
def execAtomic (link : Link) (src : BitVec 10) (tenant : BitVec 8) (addr : BitVec 54) (rid : BitVec 16)
    (func : BitVec 5) (operand compare : W64) (s : State) : Host.Outcome State Fault Refusal :=
  let a := addr.toNat
  let wide := bitAt func 4
  .next (arrive s link src tenant 5 addr rid kAtomic true false (if wide then 8 else 4) (fun st =>
    if !hasTags (regionOf a) || 9 < func.toNat % 16 then (1, false, [], st)
    else
      match atomicInPlace st a (func.toNat % 16) wide operand.toNat compare.toNat with
      | (none, s1) => (2, false, [], s1)
      | (some old, s1) => (0, false, toBytes 8 old, s1)))

/-- REMOTE_MSADD (14 R377). At other memory than cove and HBM, or with a reserved format, as ATOMIC (DESIGN CHOICE, log entry 19). -/
def execRemoteMsadd (link : Link) (src : BitVec 10) (tenant : BitVec 8) (addr : BitVec 54) (rid : BitVec 16)
    (fmt : BitVec 3) (addend : BitVec 192) (s : State) : Host.Outcome State Fault Refusal :=
  let a := addr.toNat
  .next (arrive s link src tenant 6 addr rid kAtomic true false (addBytes fmt.toNat) (fun st =>
    if !hasTags (regionOf a) || 4 < fmt.toNat then (1, false, [], st)
    else
      let (ok, s1) := addInPlace st fmt.toNat a addend.toNat
      (if ok then 0 else 2, false, [], s1)))

/- Forwarding (R401, R402, R406, R408) -/

/-- MESSAGE_FORWARD (R401, R402, R406): a message that is not one of those performed here. One for another device goes on, past
the dateline when it came on channel 1 or 3; one of a reserved TYPE is discarded wherever it is bound. -/
def execMessageForward (link : Link) (msg : Msg) (s : State) : Host.Outcome State Fault Refusal :=
  .next (recvMsg s link (fun s1 => (true,
    if !isRequest msg.type && !isResponse msg.type then
      (if 0x20 ≤ msg.type.toNat && msg.type.toNat ≤ 0x22 then s1 else regOr s1 Reg.fabErr 1)
    else if msg.dest.toNat == deviceNo s1 then s1
    else
      match routeMsg s1 msg.dest.toNat msg.src.toNat msg.dirs msg.type (link.vc.toNat % 2 == 1) with
      | .port q vc dirs => enqueueMsg s1 q vc { msg with dirs := dirs }
      | .lost mis => answerLost (if mis then regOr s1 Reg.fabErr 1 else s1) msg
      | .deliver => s1)))

/- Responses (R407, R408) -/

/-- A response arrives: it completes its request, or is discarded when there is none of its kind outstanding. -/
def response (s : State) (link : Link) (rid : BitVec 16) (type : BitVec 6) (status : Nat) (bs : List Byte) (tag : Bool) : State :=
  recvMsg s link (fun s1 => (true,
    match s1.reqs.find? (fun e => e.1 == rid.toNat) with
    | none => s1
    | some e =>
      if e.2.msg.type != type then s1
      else if status = 3 then loseRequest s1 rid.toNat
      else completeRequest s1 rid.toNat e.2 status bs tag))

/-- READ_RSP. -/
def execReadRsp (link : Link) (rid : BitVec 16) (status : BitVec 4) (payload : List Byte) (s : State) :
    Host.Outcome State Fault Refusal := .next (response s link rid 1 status.toNat payload false)
/-- WRITE_RSP. -/
def execWriteRsp (link : Link) (rid : BitVec 16) (status : BitVec 4) (s : State) : Host.Outcome State Fault Refusal :=
  .next (response s link rid 2 status.toNat [] false)
/-- CLD_RSP. -/
def execCldRsp (link : Link) (rid : BitVec 16) (status : BitVec 4) (value : BitVec 128) (tag : Bool) (s : State) :
    Host.Outcome State Fault Refusal := .next (response s link rid 3 status.toNat (toBytes 16 value.toNat) tag)
/-- CST_RSP. -/
def execCstRsp (link : Link) (rid : BitVec 16) (status : BitVec 4) (s : State) : Host.Outcome State Fault Refusal :=
  .next (response s link rid 4 status.toNat [] false)
/-- ATOMIC_RSP. -/
def execAtomicRsp (link : Link) (rid : BitVec 16) (status : BitVec 4) (old : W64) (s : State) :
    Host.Outcome State Fault Refusal := .next (response s link rid 5 status.toNat (toBytes 8 old.toNat) false)
/-- MSADD_RSP. -/
def execMsaddRsp (link : Link) (rid : BitVec 16) (status : BitVec 4) (s : State) : Host.Outcome State Fault Refusal :=
  .next (response s link rid 6 status.toNat [] false)

/-- REQUEST_TIMEOUT (R408): REQ_TIMEOUT_US after issue. -/
def execRequestTimeout (rid : BitVec 16) (s : State) : Host.Outcome State Fault Refusal :=
  match s.reqs.find? (fun e => e.1 == rid.toNat) with
  | none => .next s
  | some e =>
    if decide (1000 * regFld s Reg.fabCfg 0 16 ≤ elapsed s e.2.issued) then
      .next (loseRequest (regOr s Reg.fabErr 2) rid.toNat)
    else .next s

/-- Write a routing entry (R400, R403); requests to a destination that becomes unreachable are lost at once (R408),
and members of collectives beside it end (R416). -/
def setRoute (s : State) (d : Nat) (e : Nat) : State :=
  let s1 := regSet s (Reg.route d) (BitVec.ofNat 64 (e % 16))
  if e.testBit 0 then s1 else collUnreachable (loseRequests s1 (fun r => r.msg.dest.toNat == d)) d

end Sys2Proof.Machine
end

