-- ==== Sys2Proof/Machine/Time.lean ====
section
/-! DEFINITION. The time base (spec 02 R38 to R54): time flits, alignment, holdover, election, loss of the reference. -/

namespace Sys2Proof.Machine

/-- Set or clear a bit of TB_STATUS. -/
def tbBit (s : State) (i : Nat) (b : Bool) : State := regSetFld s Reg.tbStatus i 1 (if b then 1 else 0)
/-- The choice of R50 falls on this device: its place is confirmed, nothing is aligned yet, and it is the plan's master, or, the
plan naming none, the choice has settled: its lowest candidate has stood for as many exchanges as the torus has hops, and every
neighbour whose link is up names this device too (log entry 24). -/
def choiceFalls (s : State) : Bool :=
  placeValid s && !s.time.aligned1 && chosenMaster s == deviceNo s &&
    ((s.plan.bind (fun p => p.master)).isSome ||
      (decide (16 ≤ s.time.settle) && (List.range 12).all (fun p => !portUp s p || toldMaster s p == deviceNo s)))

/-- This device serves as master: it keeps its own TBC, is aligned by definition while locked, and has no hops. -/
def serveMaster (s : State) : State :=
  let s1 := tbBit (tbBit (regSetFld (regSetFld s Reg.tbStatus 8 8 0) Reg.tbStatus 16 16 0) 2 true) 3 false
  if regBit s1 Reg.tbStatus 0 then tbBit s1 1 true else s1
/-- This device becomes master: its own number is from now on the master that it follows and tells. -/
def becomeMaster (s : State) : State :=
  let s1 := serveMaster s
  { s1 with time := { s1.time with aligned1 := true, candidate := some (BitVec.ofNat 10 (deviceNo s)) } }

/-- TIME_FLIT_SEND (R41, R397): at a multiple of 125,000 ns every active link sends a time flit, one that retrains when it is done
(15 R421). The chosen master begins its service here. -/
def execTimeFlitSend (s : State) : Host.Outcome State Fault Refusal :=
  if s.tbc.toNat % 125000 != 0 || !alignEn s || fenced s then .next s
  else
    let s1 := if isMaster s then serveMaster s
      else if choiceFalls s then becomeMaster s
      else if placeValid s && !s.time.aligned1 then { s with time := { s.time with settle := s.time.settle + 1 } }
      else s
    .next ((List.range 12).foldl sendTime s1)

/-- A deadline register in which 0 is disarmed, re-armed for a TBC that has fallen by `d` (R42): never to a value that would
disarm it, and one due before TBC 1 of the loaded time is due at once. -/
def rearm (d : Int) (s : State) (off : Nat) : State :=
  let v := (regGet s off).toNat
  if v = 0 then s else regSet s off (BitVec.ofNat 64 (max 1 ((v : Int) - d)).toNat)

/-- The first alignment (R42): the master's TBC is loaded once. Firmware's start-up timers (the boot deadline, timers and
watchdogs of the cores) and every instant from which Vesol itself measures a time move with it. -/
def loadTbc (s : State) (offset : Int) : State :=
  let d := BitVec.ofInt 64 offset
  let back (o : Option W64) : Option W64 := o.map (fun t => t - d)
  let s1 := (List.range 16).foldl (fun st n => rearm offset (rearm offset st (Reg.trapTimer n)) (Reg.trapWdog n)) s
  { s1 with
    tbc := s1.tbc - d
    time := { s1.time with aligned1 := true, lastFlit := s1.time.lastFlit - d }
    boot := { s1.boot with began := s1.boot.began - d, released := s1.boot.released - d }
    power := { s1.power with
      hoursAt := s1.power.hoursAt - d, govAt := back s1.power.govAt, tjAt := back s1.power.tjAt
      vcoreAt := back s1.power.vcoreAt, canaryAt := back s1.power.canaryAt
      steps := s1.power.steps.map (fun e => (e.1 - d, e.2)), waitSince := back s1.power.waitSince, pcieBy := back s1.power.pcieBy
      dips := s1.power.dips.map (fun e => (e.1, e.2.map (fun x => { x with start := x.start - d }))) }
    ports := s1.ports.map (fun e => (e.1, { e.2 with lastMove := e.2.lastMove - d, spareSince := e.2.spareSince - d }))
    hbm := { s1.hbm with readAt := [], relockBy := s1.hbm.relockBy.map (fun e => (e.1, e.2 - d)) }
    funcs := s1.funcs.map (fun e => (e.1, { e.2 with
      lastScan := back e.2.lastScan, firstAt := e.2.firstAt.map (fun x => (x.1, x.2 - d)) }))
    ops := s1.ops.map (fun o => { o with ingest := o.ingest - d, ended := o.ended - d, deadline := back o.deadline })
    changeSet := s1.changeSet.map (fun c => { c with start := c.start - d, due := back c.due, drained := back c.drained })
    reqs := s1.reqs.map (fun e => (e.1, { e.2 with issued := e.2.issued - d }))
    pipes := s1.pipes.map (fun e => (e.1, { e.2 with
      pic := e.2.pic.map (fun p => { p with watchdog := p.watchdog - d })
      starting := e.2.starting.map (fun p => { p with since := p.since - d }) }))
    rowHolds := s1.rowHolds.map (fun h => { h with since := h.since - d })
    fabClkLostAt := s1.fabClkLostAt - d
    class5 := s1.class5.map (fun t => t - d) }

/-- A measured offset from the master (R39, R41, R53): OFFSET, the slew (whose size is a free value within ±200 ppm), and
whether the bound of 50 ns holds. After the load of R42 it is called with offset 0: OFFSET then reads 0 and ALIGNED rises at once
while the PLL is locked (log entry 24). -/
def takeOffset (s : State) (offset : Int) : State :=
  let (v, s1) := freeNext s
  let slew : Int := (v.toNat % 400001 : Nat) - (200000 : Int)
  let s2 := regSetFld (regSet s1 Reg.tbRate ((BitVec.ofInt 32 slew).setWidth 64)) Reg.tbStatus 16 16
    (BitVec.ofInt 16 (max (-32767) (min offset 32767))).toNat
  if offset.natAbs ≤ 50 then (if regBit s2 Reg.tbStatus 0 then tbBit s2 1 true else s2)
  else regOr (tbBit s2 1 false) Reg.tbErr 4

/-- The master that an aligned neighbour follows is the chosen one: the plan's, or, the plan naming none, whatever master the
aligned devices already have (R50; log entry 24). -/
def followed (s : State) (master : Nat) : Bool :=
  match s.plan.bind (fun p => p.master) with
  | some m => m == master
  | none => true

/-- This device's TBC less the master's: the exchange gives its low 32 bits as the operand, and the sender's TX_TBC the rest, since the
flit arrives far less than 2^31 ns after it left (15 R392; log entry 24). The load of R42 so moves the TBC by any distance. -/
def flitOffset (s : State) (txTbc : W64) (offset : W32) : Int :=
  let d := s.tbc - txTbc
  (d + (offset - d.setWidth 32).signExtend 64).toInt

/-- TIME_FLIT (R41 to R43, R50). A device whose MASTER is set heeds no flit but takes what the link header brings: a former master
that a device reset has brought back, with MASTER kept (R54), stays master until MASTER_ELECTION tells it of another (DESIGN CHOICE,
log entry 24). The sender's TBC values, its master, hops and ALIGNED; `offset` are the low 32
bits of this device's TBC less the master's, as the exchange measures it from TX_TBC and RX_TBC. -/
def execTimeFlit (link : Link) (txTbc _rxTbc : W64) (master : BitVec 10) (hops : BitVec 5) (aligned : Bool)
    (offset : W32) (s : State) : Host.Outcome State Fault Refusal :=
  let p := link.port.toNat
  if !portLinked s p || retraining s p then .next s
  else if !alignEn s then .next (takeLink s link)
  else
    let s0 := takeLink s link
    let s := setPort s0 p { portOf s0 p with rxTime := s.tbc }
    let known := if hops = 31 then s.time.candidate else
      some (match s.time.candidate with | some c => if master.toNat < c.toNat then master else c | none => master)
    let s1 := { s with time := { s.time with
      candidate := if s.time.aligned1 then s.time.candidate else known
      settle := if known = s.time.candidate then s.time.settle else 0
      paths := sset (fun _ => 31) s.time.paths p hops.toNat
      told := sset (fun _ => 1024) s.time.told p master.toNat
      lastFlit := if hops = 31 then s.time.lastFlit else s.tbc } }
    if isMaster s1 then .next s1
    else if hops = 31 then .next (holdoverCheck s1)
    else
      let s2 := tbBit (regSetFld s1 Reg.tbStatus 8 8 (flitHops s1)) 3 false
      if s2.time.aligned1 then .next (takeOffset s2 (flitOffset s2 txTbc offset))
      else if aligned && followed s2 master.toNat && myNumber s2 != some master.toNat then
        let s3 := loadTbc { s2 with time := { s2.time with candidate := some master } } (flitOffset s2 txTbc offset)
        .next (takeOffset s3 0)
      else .next s2

/-- HOLDOVER_EXPIRY (R43): ALIGNED clears when the TBC reaches A + 20,000,000. -/
def execHoldoverExpiry (s : State) : Host.Outcome State Fault Refusal :=
  if regBit s Reg.tbStatus 3 && decide (20000000 ≤ elapsed s s.time.lastFlit) then .next (tbBit s 1 false) else .next s

/-- MASTER_ELECTION (R44). A device that is itself fenced takes no part: a fenced master keeps MASTER and ALIGNED, is never in holdover, and
heeds no election, until the reset that ends its fence (DESIGN CHOICE, log entry 24: R44 says what the others do). The lowest-numbered aligned device becomes master and keeps its TBC. An aligned device with a
lower number would have won instead. -/
def execMasterElection (winner : BitVec 10) (s : State) : Host.Outcome State Fault Refusal :=
  let me := deviceNo s
  if !placeValid s || !s.time.aligned1 || fenced s || (alignedNow s && decide (me < winner.toNat)) || (winner.toNat == me && !alignedNow s) then
    .next s
  else if winner.toNat = me then .next (becomeMaster s)
  else .next { (tbBit s 2 false) with time := { s.time with candidate := some winner } }

/-- A write of TB_CONTROL (R49): stored before VALID, otherwise ignored and recorded. A device that is aligned already and is
set to free-run keeps TB_STATUS.ALIGNED and TB_RATE as they stand (log entry 24). -/
def tbControlSet (s : State) (v : Nat) : State :=
  if placeValid s then regOr s Reg.tbErr 8 else regWriteFn s 0 Reg.tbControl (BitVec.ofNat 64 v)
/-- TB_CONTROL_WRITE (R49). -/
def execTbControlWrite (agent : Agent) (value : W32) (s : State) : Host.Outcome State Fault Refusal :=
  .next (if pfAgent s agent then tbControlSet s value.toNat else s)

/-- REFCLK_LOSS (R53): the internal oscillator takes over. -/
def execRefclkLoss (s : State) : Host.Outcome State Fault Refusal :=
  if !s.time.refclk then .next s
  else .next (regOr (tbBit (tbBit { s with time := { s.time with refclk := false } } 0 false) 1 false) Reg.tbErr 1)

/-- REFCLK_RETURN (R53): Vesol relocks; ALIGNED waits for an offset within 50 ns. -/
def execRefclkReturn (s : State) : Host.Outcome State Fault Refusal :=
  if s.time.refclk then .next s else .next (tbBit { s with time := { s.time with refclk := true } } 0 true)

end Sys2Proof.Machine
end

