-- ==== Sys2Proof/Machine/Power.lean ====
section
/-! DEFINITION. Voltage, heat and wear (spec 17; 02 R31, R51; 21 R547, R564): levels, the ramp governor, slack-water fill, thermal
states, supply dips and supply resets, canaries and the wear record. -/

namespace Sys2Proof.Machine

/- Levels (R446; 02 R31, R51) -/

/-- Live thermal cap. -/
def pwrCap (s : State) : Nat := regFld s Reg.pwrStatus 0 4
/-- TJ_STATE: 0 Normal, 1 Throttle, 2 Critical. -/
def tjState (s : State) : Nat := regFld s Reg.pwrStatus 8 2
/-- The level of a code: the highest whose nominal VCORE it reaches. -/
def levelOf (code : Nat) : Nat := min (code / 10 + 1) 8
/-- Target code (R446): 20 until RUN (R463), else the nominal VCORE of the lowest of request, policy and cap. -/
def targetCode (s : State) : Nat :=
  if inReset s || !regBit s Reg.pwrPolicy 8 then 20
  else 10 * (min (min (regFld s Reg.pwrPolicy 4 4) (if regBit s Reg.pwrPolicy 0 then 8 else 4)) (pwrCap s) - 1)
/-- The code that VCORE moves to: the governor may hold it below the target (R446). -/
def wantedCode (s : State) : Nat :=
  if inReset s || !regBit s Reg.pwrPolicy 8 then 20 else min (targetCode s) s.power.govCode
/-- OP_POINT as one complete value (02 R51). -/
def opPointNow (s : State) : State :=
  let old := regGet s Reg.opPoint
  regSet s Reg.opPoint (BitVec.ofNat 64 ((if s.power.levelSet then levelOf s.power.vcore else 0) + s.power.vcore * 2 ^ 4 +
    (fld old 12 8).toNat * 2 ^ 12 + s.power.rate % 2 ^ 11 * 2 ^ 20))
/-- OP_POINT_UPDATE (02 R51). -/
def execOpPointUpdate (s : State) : Host.Outcome State Fault Refusal := .next (if s.boot.powered then opPointNow s else s)

/-- A write of PWR_POLICY (R446, R461, R463). -/
def pwrPolicySet (s : State) (v : Nat) : State :=
  let s1 := regWriteFn s 0 Reg.pwrPolicy (BitVec.ofNat 64 v)
  readyCheck { s1 with power := { s1.power with levelSet := s1.power.levelSet || regBit s1 Reg.pwrPolicy 8 } }
/-- PWR_POLICY_WRITE (R446). -/
def execPwrPolicyWrite (agent : Agent) (value : W32) (s : State) : Host.Outcome State Fault Refusal :=
  .next (if platformAgent s agent then pwrPolicySet s value.toNat else s)

/-- A write of TJ_THERM, checked as HBM_THERM (R461). -/
def tjThermSet (s : State) (v : Nat) : State :=
  let s1 := regWriteFn s 0 Reg.tjTherm (BitVec.ofNat 64 v)
  let th := regFld s1 Reg.tjTherm 0 8
  let cr := regFld s1 Reg.tjTherm 8 8
  if cr ≤ th || cr - th ≤ regFld s1 Reg.tjTherm 16 4 then s else s1
/-- TJ_THERM_WRITE (R461). -/
def execTjThermWrite (agent : Agent) (value : W32) (s : State) : Host.Outcome State Fault Refusal :=
  .next (if platformAgent s agent then tjThermSet s value.toNat else s)

/-- A write of PWR_LIMIT, RAMP_UP, RAMP_DOWN or FILL: discarded from any source but the TMC while LOCKED (R461). -/
def pwrShareSet (s : State) (tmc : Bool) (off v : Nat) : State :=
  if regBit s Reg.pwrLock 0 && !tmc then s else regWriteFn s 0 off (BitVec.ofNat 64 v)
/-- A write of PWR_LOCK: only the TMC's takes effect (R461). -/
def pwrLockSet (s : State) (tmc : Bool) (v : Nat) : State := if tmc then regSet s Reg.pwrLock (BitVec.ofNat 64 (v % 2)) else s

/-- A periodic event whose period has passed since it last came; at the first time it is due. -/
def dueSince (s : State) (last : Option W64) (n : Nat) : Bool :=
  match last with
  | none => true
  | some t => decide (n ≤ elapsed s t)
/-- An event of the multiples of `n`, not yet taken at this TBC value. -/
def dueAt (s : State) (last : Option W64) (n : Nat) : Bool := s.tbc.toNat % n == 0 && last != some s.tbc

/-- VCORE moves: the code is not the one wanted. A fenced or halted device holds its code. -/
def slewing (s : State) : Bool := s.power.vcore != wantedCode s && s.boot.powered && !fenced s && suStep s != 15

/-- VCORE_SLEW_STEP (R446; 21 R547, R558, R564): one code toward the target. A reset that only waited for code 20 is then released. -/
def execVcoreSlewStep (s : State) : Host.Outcome State Fault Refusal :=
  let c := s.power.vcore
  let t := wantedCode s
  if !slewing s || !dueSince s s.power.vcoreAt 1000 then .next s
  else
    let c' := if c < t then c + 1 else c - 1
    let s1 := opPointNow { s with power := { s.power with
      vcore := c', steps := ((s.tbc, c) :: s.power.steps).take 20, vcoreAt := some s.tbc } }
    .next (if s.boot.settling then tryRelease s1 else s1)

/- The governor (R447 to R451) -/

/-- Power at full activity at the nominal VCORE of level k + 1, mW (R447). -/
def levelPower (k : Nat) : Nat := [185000, 230000, 290000, 370000, 470000, 560000, 665000, 780000].getD k 780000
/-- Power at full activity at a code, interpolated in VCORE. -/
def codePower (c : Nat) : Nat := levelPower (c / 10) + (levelPower (c / 10 + 1) - levelPower (c / 10)) * (c % 10) / 10
/-- Fill load at most, mW (R451). -/
def fillCap (s : State) : Nat := if s.power.vcore < 20 then 150000 else if s.power.vcore < 40 then 250000 else 400000
/-- The floor of R448 in 10^-5 mW: R450 while waiting and within HOLD_MS; fill is off in Critical (R452). -/
def fillFloor (s : State) : Nat :=
  if s.power.waitSince.isSome && !s.power.holdOver && tjState s != 2 then regFld s Reg.fill 0 7 * s.power.busy * 1000 else 0
/-- The highest code, at most the target, at which the demand falls to `hi` (10^-5 mW); none when even 0.55 V exceeds it. -/
def governorCode (target demand hi : Nat) : Option Nat :=
  (List.range (target + 1)).reverse.find? (fun c => decide (demand * 100000 * codePower c ≤ hi * codePower target))

/-- VCORE can be lowered no further: it is at 0.55 V, or at the 0.65 V that it holds until RUN (R463). -/
def vcoreLowest (s : State) : Bool := s.power.vcore == 0 || !regBit s Reg.pwrPolicy 8
/-- The highest code that a governor step allows (R448). Work whose demand fits is not limited. While p exceeds hi VCORE goes down,
by a code at least; once p fits, it may stand as high as the demand scaled by R447 fits (DESIGN CHOICE, log entry 26). -/
def governorCap (s : State) (demand p hi : Nat) : Nat :=
  if demand * 100000 ≤ hi then 70
  else
    let fits := (governorCode (targetCode s) demand hi).getD 0
    if hi < p then min fits (s.power.vcore - 1) else fits

/-- GOVERNOR_STEP (R448 to R452): power measured and demand, mW. Admissions are held once VCORE is as low as it goes, until p is
within hi. -/
def execGovernorStep (power demand : BitVec 32) (s : State) : Host.Outcome State Fault Refusal :=
  if inReset s || !dueAt s s.power.govAt 10000 then .next s
  else
    let p := power.toNat * 100000
    let d := demand.toNat * 100000
    let s0 := noteOps s
    let g := s0.power.g.getD p
    let hi := min (g + (regGet s0 Reg.rampUp).toNat) (regFld s0 Reg.pwrLimit 0 10 * 100000000)
    let lo := min (max (g - (regGet s0 Reg.rampDown).toNat) (fillFloor s0)) hi
    let critical := tjState s0 == 2
    let hold := critical || (decide (hi < d) && decide (hi < p) && vcoreLowest s0)
    let fill := decide (d < lo) && !critical
    let short := fill && decide (fillCap s0 * 100000 < lo - d)
    let viol := decide (p < lo) || decide (hi < p)
    let recent := (power.toNat :: s0.power.recent).take 100
    let s1 := { s0 with power := { s0.power with
      g := some (max lo (min hi p)), recent := recent, govAt := some s.tbc, govCode := governorCap s0 demand.toNat p hi } }
    let s2 := regSetFld s1 Reg.pwrStatus 4 4
      ((if hi ≤ p then 1 else 0) + (if hold then 2 else 0) + (if fill then 4 else 0) + (if short then 8 else 0))
    let s3 := regSetFld s2 Reg.pwrNow 0 10 (min (meanPower recent / 1000) 1023)
    let s4 := if short then regOr s3 Reg.pwrErr 2 else s3
    .next (noteOps (if viol then regOr (regSatAdd s4 Reg.rampViolCount 32 1) Reg.pwrErr 1 else s4))

/-- FILL_HOLD_EXPIRY (R450). -/
def execFillHoldExpiry (s : State) : Host.Outcome State Fault Refusal :=
  match s.power.waitSince with
  | none => .next s
  | some t =>
    if decide (regFld s Reg.fill 8 16 * 1000000 ≤ elapsed s t) then .next { s with power := { s.power with holdOver := true } }
    else .next s

/- Junction (R453, R454) -/

/-- Set CAP and TJ_STATE. -/
def setThermal (s : State) (state cap : Nat) : State := regSetFld (regSetFld s Reg.pwrStatus 0 4 cap) Reg.pwrStatus 8 2 state
/-- Critical entry: admissions are held, fill is off, the error is recorded. -/
def tjCritical (s : State) : State :=
  let s1 := noteOps <| regClr (regOr (regOr (setThermal s 2 1) Reg.pwrErr 4) Reg.pwrStatus 0x20) Reg.pwrStatus 0x40
  recordEvent s1 { cls := 4, source := 0x0C, unit := 0, code := 2, tenant := 0xFF, action := 4, addr := 0, payload := [] }
/-- The transitions of R453 on a reading of `t` °C. -/
def tjStep (s : State) (t : Nat) : State :=
  let th := regFld s Reg.tjTherm 0 8
  let cr := regFld s Reg.tjTherm 8 8
  let hy := regFld s Reg.tjTherm 16 4
  match tjState s with
  | 0 => if cr ≤ t then tjCritical s else if th ≤ t then setThermal s 1 (max (levelOf s.power.vcore - 1) 1) else s
  | 1 =>
    if cr ≤ t then tjCritical s
    else if th ≤ t then setThermal s 1 (max (pwrCap s - 1) 1)
    else if t + hy < th then setThermal s (if 7 ≤ pwrCap s then 0 else 1) (min (pwrCap s + 1) 8)
    else s
  | _ => if t + hy < cr then setThermal s 1 1 else s

/-- JUNCTION_READING (R453, R463): the hottest of the sensors that were read, if any was, and whether a reading failed, which counts
as a reading of TH. It applies at all times, in reset too. -/
def execJunctionReading (hottest : Option Byte) (failed : Bool) (s : State) : Host.Outcome State Fault Refusal :=
  if !s.boot.powered || !dueAt s s.power.tjAt 1000000 then .next s
  else
    let failed := failed || hottest.isNone
    let t := max ((hottest.map BitVec.toNat).getD 0) (if failed then regFld s Reg.tjTherm 0 8 else 0)
    let s1 := { s with power := { s.power with tjAt := some s.tbc } }
    .next (tjStep (regSetFld (if failed then regOr s1 Reg.pwrErr 0x40 else s1) Reg.opPoint 12 8 t) t)

/-- JUNCTION_TRIP (R454; 21 R561): the comparator asserts THERMTRIP_N whenever VAUX is good; a running device records the
trip, withdraws and stops. So does one in the reset of a class 5 event, over which the trip wins (20 R543); while the pins hold the
device in reset it only asserts its output. -/
def execJunctionTrip (s : State) : Host.Outcome State Fault Refusal :=
  if !s.boot.powered || s.boot.thermtripN then .next s
  else
    let s1 := if pinsHold s then s else
      selfFence (recordFatal s { cls := 6, source := 0x0C, unit := 0, code := 3, tenant := 0xFF, action := 7, addr := 0, payload := [] })
    .next { s1 with boot := { s1.boot with thermtripN := true, settling := false }
                    power := { s1.power with failed := if pinsHold s then s1.power.failed else [] } }

/- Supply dips (R455 to R458) -/

/-- The dip in progress on a rail. -/
def dipOf (s : State) (rail : Nat) : Option Dip := sget (fun _ => none) s.power.dips rail
/-- Replace it. -/
def setDip (s : State) (rail : Nat) (d : Option Dip) : State :=
  { s with power := { s.power with dips := sset (fun _ => none) s.power.dips rail d } }
/-- The set point that VCORE's warning level is judged against, mV: in an upward slew, as it stood 20 µs earlier (R445). -/
def warnSetPoint (s : State) : Nat :=
  let before := (s.power.steps.filter (fun e => decide (elapsed s e.1 < 20000))).getLast?
  550 + 5 * (if slewing s && decide (s.power.vcore < wantedCode s) then (before.map (fun e => e.2)).getD s.power.vcore else s.power.vcore)
/-- A voltage is below the rail's warning level (R445). -/
def belowWarning (s : State) (rail mv : Nat) : Bool :=
  match rail with
  | 0 => decide (mv * 100 < 92 * warnSetPoint s)
  | 1 => decide (mv < 800)
  | 2 => decide (mv < 1045)
  | _ => decide (mv < 1710)
/-- A voltage is below the rail's fail level (R445). -/
def belowFail (rail mv : Nat) : Bool := decide (mv < [480, 760, 1000, 1620].getD rail 0)

/-- DIP_BEGIN (R455): PWR_STATUS shows the rail below its warning level until the dip ends. -/
def execDipBegin (rail : BitVec 2) (mv : BitVec 11) (s : State) : Host.Outcome State Fault Refusal :=
  let r := rail.toNat
  if !s.boot.powered || (dipOf s r).isSome || s.power.failed.contains r || !belowWarning s r mv.toNat then .next s
  else .next (setDip s r (some ⟨s.tbc, mv.toNat, false⟩))

/-- Every online stack enters self refresh until its PHY relocks. -/
def holdStacks (s : State) : State :=
  if !s.hbm.trained then s
  else { s with hbm := { s.hbm with held := (List.range 8).foldl (fun m n => if stackOffline s n then m else sset markDflt m n true) s.hbm.held } }
/-- The islands recover: the stacks must relock within 1 ms of now (14 R386). -/
def relockStacks (s : State) : State :=
  { s with hbm := { s.hbm with relockBy := (List.range 8).foldl (fun m n =>
      if sget markDflt s.hbm.held n then sset zDflt64 m n (s.tbc + 1000000) else m) s.hbm.relockBy } }

/-- RIDE_THROUGH_EXPIRY (R456): at 20 µs VPHY's islands, or VHBM's PHYs, stop. -/
def execRideThroughExpiry (rail : BitVec 2) (s : State) : Host.Outcome State Fault Refusal :=
  let r := rail.toNat
  match dipOf s r with
  | none => .next s
  | some d =>
    if !(r == 1 || r == 2) || d.stopped || inReset s || decide (elapsed s d.start < 20000) then .next s
    else
      let s1 := holdStacks (setDip s r (some { d with stopped := true }))
      .next (if r = 1 then (List.range 12).foldl (fun st p => beginRetrain st p false) s1 else s1)

/-- A dip log entry as a number of 128 bits (R461). -/
def dipEntry (start duration low rail : Nat) (recovered : Bool) : Nat :=
  start + duration * 2 ^ 64 + low % 2 ^ 11 * 2 ^ 96 + rail * 2 ^ 107 + (if recovered then 2 ^ 109 else 0) + 2 ^ 110
/-- Write the next dip log entry and count it (R458). -/
def logDip (s : State) (e : Nat) : State :=
  let n := (regGet s Reg.dipCount).toNat
  let s1 := regSet (regSet s (Reg.dipLog (2 * (n % 16))) (BitVec.ofNat 64 e)) (Reg.dipLog (2 * (n % 16) + 1)) (BitVec.ofNat 64 (e / 2 ^ 64))
  regSet s1 Reg.dipCount (BitVec.ofNat 64 ((n + 1) % 2 ^ 32))
/-- PWR_ERR bit of a rail's dip. -/
def dipErrBit (rail : Nat) : Nat := [3, 4, 5, 7].getD rail 7
/-- A rail's record (R458, 20 R532): its dip log entry as payload. -/
def dipRecord (cls code action rail e : Nat) : ErrEvent :=
  { cls := cls, source := 0x0C, unit := rail, code := code, tenant := 0xFF, action := action, addr := 0, payload := toBytes 16 e }

/-- DIP_END (R456, R458): the lowest voltage of the dip. Islands that had stopped recover. -/
def execDipEnd (rail : BitVec 2) (minMv : BitVec 11) (s : State) : Host.Outcome State Fault Refusal :=
  let r := rail.toNat
  match dipOf s r with
  | none => .next s
  | some d =>
    let e := dipEntry d.start.toNat (min (elapsed s d.start) (2 ^ 32 - 1)) minMv.toNat r d.stopped
    let s1 := logDip (setDip s r none) e
    let s2 := recordEvent (regOr s1 Reg.pwrErr (2 ^ dipErrBit r)) (dipRecord 1 1 1 r e)
    if inReset s then .next s2
    else
      let s3 := if d.stopped && !hbmStopped s2 then relockStacks s2 else s2
      .next (if d.stopped && r == 1 then { s3 with power := { s3.power with pcieBy := some (s.tbc + 10000000) } } else s3)

/-- VAUX has fallen below 1.62 V (21 R556, R558, R561): every pin takes its unpowered state, the latched fault outputs fall, and the
comparator and the test port stop. -/
def vauxFalls (s : State) : State :=
  { s with boot := { s.boot with powered := false, fatalN := false, thermtripN := false }, jtag := ⟨1, 0⟩
           power := { s.power with vcore := 20 } }

/-- RAIL_FAIL (R457, R458, R464): a rail has fallen below its fail level, or its monitor has failed (`none`), which is taken the same
way; MIN of a dip that no monitor has measured is a free value. The entry and the record, the withdraw flits, and the reset that
the rail holds; the stopped islands have not recovered. A tray-fatal escalation wins over the reset (20 R543), but not over the loss of
VAUX, with which every output falls (21 R561). -/
def execRailFail (rail : BitVec 2) (reading : Option (BitVec 11)) (s : State) : Host.Outcome State Fault Refusal :=
  let r := rail.toNat
  if !s.boot.powered || reading.any (fun mv => !belowFail r mv.toNat) || s.power.failed.contains r then .next s
  else
    let (v, s) := freeNext s
    let d := (dipOf s r).getD ⟨s.tbc, v.toNat % 2 ^ 11, false⟩
    let low := match reading with
      | some mv => if (dipOf s r).isSome then min d.low mv.toNat else mv.toNat
      | none => d.low
    let e := dipEntry d.start.toNat (2 ^ 32 - 1) low r false
    let s1 := logDip (setDip s r none) e
    let kind := if r = 0 || r = 2 then 2 else 1
    let fail (st : State) (k : Nat) : State :=
      { st with power := { st.power with failed := st.power.failed ++ [r] }, boot := { st.boot with kind := k } }
    let dark (st : State) : State := if r = 3 && reading.isSome then vauxFalls st else st
    if inReset s then .next (dark (fail s1 (min kind s.boot.kind)))
    else
      let (escalated, s2) := recordDevice s1 (dipRecord 5 4 8 r e)
      .next (if escalated && !(r == 3 && reading.isSome) then s2 else dark (holdReset (fail (selfFence s2) kind)))

/-- SUPPLY_RESET_RELEASE (R457): every failed rail is above its warning level again, VAUX among them. -/
def execSupplyResetRelease (s : State) : Host.Outcome State Fault Refusal :=
  if s.power.failed = [] then .next s
  else
    .next (tryRelease { s with power := { s.power with failed := [] }
                               boot := { s.boot with powered := s.boot.powered || s.power.failed.contains 3 } })

/- Canaries and wear (R459, R460, R464) -/

/-- Twice the median of a list: of an even count, the mean of the middle two (log entry 26). -/
def median2 (l : List Nat) : Nat :=
  let x := l.mergeSort (fun a b => decide (a ≤ b))
  x.getD ((x.length - 1) / 2) 0 + x.getD (x.length / 2) 0
/-- The rates of the canaries not excluded, with their numbers. -/
def countedCanaries (s : State) (rates : List Nat) : List (Nat × Nat) :=
  ((List.range 16).map (fun i => (i, rates.getD i 0))).filter (fun e => !s.power.excluded.contains e.1)
/-- V_need for a wear factor in thousandths: the lowest 5 mV step at which w × R_mfg reaches the rate of F = 1.389. -/
def vNeed (w : Nat) : Nat :=
  match (List.range 95).find? (fun c => decide (1389 * Config.canaryRp ≤ w * Config.canaryCurve c)) with
  | some c => 550 + 5 * c
  | none => 1023
/-- V_need and the voltage margin for a wear factor. -/
def setNeed (s : State) (w : Nat) : State :=
  regSet (regSet s Reg.wearVneed (BitVec.ofNat 64 (vNeed w + Config.vNeed0 % 2 ^ 10 * 2 ^ 16)))
    Reg.wearMargin (((BitVec.ofInt 16 (900 - (vNeed w : Int)))).setWidth 64)

/-- CANARY_SAMPLE (R459, R464): every 1 ms, the 16 rates. A canary more than 5 % from the median is excluded; with more than four
excluded the wear factor and V_need stay. -/
def execCanarySample (rates : List Nat) (s : State) : Host.Outcome State Fault Refusal :=
  if inReset s || !dueSince s s.power.canaryAt 1000000 then .next s
  else
    let s := { s with power := { s.power with canaryAt := some s.tbc } }
    let m0 := median2 ((countedCanaries s rates).map (fun e => e.2))
    let out := ((countedCanaries s rates).filter (fun e => decide (m0 < 20 * (max (2 * e.2) m0 - min (2 * e.2) m0)))).map (fun e => e.1)
    let before := s.power.excluded.length
    let s1 := { s with power := { s.power with excluded := s.power.excluded ++ out } }
    let r2 := median2 ((countedCanaries s1 rates).map (fun e => e.2))
    let s2 := { s1 with power := { s1.power with rate := min (1000 * r2 / (2 * Config.canaryRp)) 2047 } }
    let s3 := if 4 < s2.power.excluded.length then
        (if before ≤ 4 then recordEvent s2 { cls := 4, source := 0x0D, unit := 0, code := 1, tenant := 0xFF, action := 4, addr := 0,
                                             payload := [] } else s2)
      else
        let t := regFld s2 Reg.opPoint 12 8
        let w := min (r2 * 1000 * 10000 / (2 * Config.canaryCurve s.power.vcore * (10900 - 15 * t))) 2047
        setNeed (regSet s2 Reg.wearRate (BitVec.ofNat 64 w)) w
    .next (opPointNow s3)

/-- The wear samples of the flash, oldest first: UTC, power-on hours, V_need. -/
def wearSamples (s : State) : List (Nat × Nat × Nat) :=
  let n := s.power.samples
  (List.range (min n 1024)).map (fun k =>
    let b := flashBytes s (0x4300000 + 128 * ((n - min n 1024 + k) % 1024)) 128
    (numAt b 8 8, numAt b 16 4, numAt b 22 2))
/-- End of life in power-on hours (R460): (0.90 V - v0)^2 / a^2, with square roots to 10^-6. -/
def eolHours (l : List (Nat × Nat × Nat)) : Nat :=
  let v0 : Int := Config.vNeed0
  let sum : Int := (l.map (fun e => ((e.2.2 : Int) - v0) * (Nat.sqrt (e.2.1 * 10 ^ 12) : Nat))).sum
  let t := (l.map (fun e => e.2.1)).sum
  if sum ≤ 0 then 0xFFFFFFFF
  else min ((900 - v0).natAbs ^ 2 * t ^ 2 * 10 ^ 12 / sum.natAbs ^ 2) 0xFFFFFFFF
/-- UTC days at end of life (R460): the remaining hours at the mean power-on hours per day of the last 30 samples. -/
def eolDay (l : List (Nat × Nat × Nat)) (utc hours eol : Nat) : Nat :=
  let last := (l.drop (l.length - 30)).filter (fun e => e.1 != 0)
  let span := match last.head? with | some e => (utc - e.1, hours - e.2.1) | none => (0, 0)
  let ns := if span.2 = 0 then (eol - hours) * hourTbc else (eol - hours) * span.1 / span.2
  (utc + ns) / (24 * hourTbc)
/-- WEAR_EOL_DAY, from the last sample on: 0 while TB_UTC_OFFSET is 0 or there is no projection (R460). -/
def eolDayNow (s : State) : Nat :=
  let o := regGet s Reg.tbUtcOffset
  let eol := (regGet s Reg.wearEolHours).toNat
  let l := wearSamples s
  if o = 0 || eol = 0xFFFFFFFF then 0
  else eolDay l (regGet s Reg.wearAt + o).toNat (l.getLast?.elim 0 (fun e => e.2.1)) eol
/-- Power-on time, ns (R461). -/
def onTimeNow (s : State) : Nat := s.power.onTime + elapsed s s.power.hoursAt
/-- UTC in ns, 0 without an offset. -/
def utcNow (s : State) : Nat :=
  let o := regGet s Reg.tbUtcOffset
  if o = 0 then 0 else (s.tbc + o).toNat

/-- WEAR_SAMPLE (R460): every 24 power-on hours; `meanW` is w averaged over 1 s. -/
def execWearSample (meanW : BitVec 11) (s : State) : Host.Outcome State Fault Refusal :=
  if inReset s || decide (onTimeNow s < s.power.sampledAt + 24 * hourTbc) then .next s
  else
    let w := meanW.toNat
    let hours := onTimeNow s / hourTbc
    let stopped := decide (4 < s.power.excluded.length)
    let utc := utcNow s
    let l := wearSamples s ++ [(utc, hours, vNeed w)]
    let eol := if stopped then (regGet s Reg.wearEolHours).toNat else eolHours (l.drop (l.length - 1024))
    let body := toBytes 8 s.tbc.toNat ++ toBytes 8 utc ++ toBytes 4 hours ++ toBytes 2 w ++ toBytes 2 (vNeed w) ++
      toBytes 2 (BitVec.ofInt 16 (900 - (vNeed w : Int))).toNat ++ toBytes 1 (regFld s Reg.opPoint 12 8) ++
      toBytes 1 (regGet s Reg.wearCell).toNat ++ toBytes 4 eol ++
      (List.range 8).flatMap (fun n => toBytes 4 (min (sget (fun _ => 0) s.power.corrSince n) 0xFFFFFFFF)) ++
      (List.range 60).flatMap (fun i => toBytes 1 (regFld s (Reg.laneInfo (8 * (i / 5) + i % 5)) 0 8))
    let s1 := storeFlash s (0x4300000 + 128 * (s.power.samples % 1024)) (body ++ toBytes 4 (crc32 body).toNat)
    let s2 := { s1 with power := { s1.power with
      samples := s1.power.samples + 1, sampledAt := s1.power.sampledAt + 24 * hourTbc, corrSince := [] } }
    .next (regSet (if stopped then s2 else regSet s2 Reg.wearEolHours (BitVec.ofNat 64 eol)) Reg.wearAt s.tbc)

end Sys2Proof.Machine
end

