-- ==== Sys2Proof/Machine/HostIngest.lean ====
section
/-! DEFINITION. Fetch and ingest of descriptor chains from host rings (spec 07 R184, R187 to R194, R216, R567). -/

namespace Sys2Proof.Machine

/-- The opcode's own field checks: step 5 of R194. -/
def opcodeFields (s : State) (o : Op) : Option Nat :=
  let n := o.opcode.toNat
  if n < 0x10 then hostFields s o
  else if n = 0x10 then matmulFields s o
  else if n = 0x11 then segSumFields s o
  else if n < 0x40 then geFields s o
  else if n < 0x50 then strandFields s o
  else if n < 0x60 then vcuFields s o
  else if n < 0x70 then embFields s o
  else collFields s o

/-- A new operation, accepted now and not begun. -/
def newOp (s : State) (src : OpSrc) (tenant : Nat) (desc : List Byte) (slots : List Slot) : Op :=
  { id := s.nextOp, src := src, tenant := BitVec.ofNat 8 tenant, queue := BitVec.ofNat 8 (hdr desc 40 8),
    opcode := BitVec.ofNat 8 (hdr desc 0 8), desc := desc, slots := slots, phase := .waiting, compl := complOk 0,
    ingest := s.tbc, ended := 0, endSeq := 0, deadline := none, bank := s.acu.active, progress := 0, fetched := [], asked := [],
    queued := false, listed := false, accepted := 0, beganAt := 0, readyAt := 0
    cq := match src with | .host f q _ => sqCq s f q | .core _ _ _ => 0 }

/-- The operation joins the machine's operations. -/
def joinOp (s : State) (o : Op) : State := { s with ops := s.ops ++ [o], nextOp := s.nextOp + 1 }
/-- An operation that may run joins them: it may be ready to begin at once (17 R449, R462). -/
def addOp (s : State) (o : Op) : State := noteOps (joinOp s o)

/-- The operand slots of a chain from function `fn`: tokens unsealed in slot order (R190, R194 step 4); the first that is
rejected, with its reason. -/
def hostSlots (s : State) (fn : Nat) (c : List Byte) : (Nat × Nat) ⊕ List Slot :=
  (List.range (3 * (hdrExt c + 1))).foldl (fun acc n =>
    match acc with
    | .inl e => .inl e
    | .inr l =>
      let bytes := bytesAt c (slotOff n) 32
      if slotKind c n = 1 then
        match tokenOperand s fn bytes with
        | .inl r => .inl (n, r)
        | .inr cap => .inr (l ++ [⟨1, cap, bytes⟩])
      else .inr (l ++ [⟨BitVec.ofNat 2 (slotKind c n), capNull, bytes⟩])) (.inr [])

/-- The opcode is permitted to the function (R193): CHANGE_SET to the PF only. -/
def opcodePermitted (fn opcode : Nat) : Bool := opcode != 8 || fn == 0

/-- The descriptor is one of SQ `q` of the function. -/
def ofRing (o : Op) (fn q : Nat) : Bool := match o.src with | .host f q' _ => f == fn && q' == q | .core _ _ _ => false
/-- A descriptor for a cove's or a strand group's queue, which serves its entries in order, stays on its own SQ while an earlier one of that SQ
waits elsewhere: in the queue it would hold back the entries of other SQs (R187). -/
def ringWaits (s : State) (o : Op) : Bool :=
  decide (o.queue.toNat < 0x44) &&
  s.ops.any (fun x => decide (x.id < o.id) && beginsAfter x o && x.phase == .waiting && !x.listed && !(x.queued && x.queue == o.queue))
/-- The descriptor enters its queue now. -/
def entersQueue (s : State) (o : Op) : Bool :=
  queueStatus s o.queue.toNat o.tenant.toNat o.desc == 0 && !ringWaits s o

/-- Steps 1 to 5 of R194 on a chain: the operation that stands in the machine, its completion set when a step failed. -/
def ingestChain (s : State) (fn q pos : Nat) (c : List Byte) (held size : Nat) : State :=
  let fail (st : State) (cc : Compl) : State := endOp (joinOp st (newOp st (.host fn q (BitVec.ofNat 32 pos)) fn c [])) s.nextOp cc
  match headerFault c held (some size) none with
  | some d => fail s (compl 1 0 0 d)
  | none =>
    if !opcodePermitted fn (hdr c 0 8) then fail s (compl 0x0B 1 0 0)
    else if hdr c 10 1 == 1 && !scInRange s fn (hdr c 32 8) then fail s (compl 1 0 0 4)
    else
      match hostSlots s fn c with
      | .inl (n, r) => fail (tokenRejected s fn r (bytesAt c (slotOff n) 32)) (compl 2 r 0 n)
      | .inr slots =>
        let o := newOp s (.host fn q (BitVec.ofNat 32 pos)) fn c slots
        match opcodeFields s o with
        | some d => fail s (compl 1 0 0 d)
        | none =>
          runAtIngest (addOp s (if o.queue == 0xFF || entersQueue s o then accept s o else o)) o.id

/-- A descriptor of this SQ that waits for room in its queue or its tenant's share, or that a change set holds, in its queue or before it (R187,
R204); one whose queue can take it now enters it. -/
def admitHeld (s : State) (fn q : Nat) : Bool × State :=
  (s.ops.filter (fun o => ofRing o fn q && o.phase == .waiting && o.queue != 0xFF)).foldl (fun (r : Bool × State) o =>
    if r.1 then r
    else if !o.listed && !dtaQueued o && csHolds r.2 o.queue.toNat o.tenant.toNat o.desc then (true, r.2)
    else if o.queued then r
    else
      let st := queueStatus r.2 o.queue.toNat o.tenant.toNat o.desc
      if entersQueue r.2 o then (false, noteOps (putOp r.2 (accept r.2 o))) else (st == 1 || st == 2 || st == 4, r.2)) (false, s)

/-- Vesol may fetch from an SQ: enabled, not in error, its CQ not full, the tenant not stopped (R176, R188, R200, R212,
R216). -/
def mayFetch (s : State) (fn q : Nat) : Bool :=
  fnExists s fn && sqOn s fn q && !bitAt (regGetFn s fn (Reg.sqCtrl q)) 18 && hostLinkUp s && !fenced s && !inReset s &&
  !tenantStopped s fn && cqOn s fn (sqCq s fn q) && !cqFull s fn (sqCq s fn q)

/-- A fetch fails (R216): FETCH_ERROR, ERROR; fetching from the SQ stops. -/
def fetchError (s : State) (fn q : Nat) : State :=
  let s1 := regSetFn s fn (Reg.sqCtrl q) (setBit (regGetFn s fn (Reg.sqCtrl q)) 18 true)
  raiseStatus (raiseStatus s1 fn (Reg.sqStatus q) 2) 0 Reg.hpErr 1

/-- Entries of an SQ that its tail covers and that have not been fetched (R182). -/
def sqAvail (s : State) (fn q : Nat) : Nat := countDiff (sget zDflt32 (fnOf s fn).tails q).toNat (sqHead s fn q)
/-- Host bus address of the entry `i` places behind SQ_HEAD (R182). -/
def sqEntryAddr (s : State) (fn q i : Nat) : Nat :=
  (regGetFn s fn (Reg.sqBase q)).toNat + 128 * ((sqHead s fn q + i) % 2 ^ sqSize s fn q)
/-- Entries that the chain at SQ_HEAD consumes (R194). -/
def sqChainLen (s : State) (fn q : Nat) : Nat :=
  let c := hostBytes s (sqEntryAddr s fn q 0) 128
  if 2 ^ sqSize s fn q < hdrExt c + 1 || hdr c 0 8 = 0xFF then 1 else hdrExt c + 1

/-- A block of the chain at SQ_HEAD is being written back after a switch of the access control unit: its fetch waits (04 R111). -/
def fetchWaits (s : State) (fn q : Nat) : Bool :=
  (List.range (sqChainLen s fn q)).any (fun i => hostPortWaits s (sqEntryAddr s fn q i) 128)

/-- The function has a new descriptor that Vesol may fetch: one that is held, or whose CQ is full, is none (R188). -/
def fnHasNew (s : State) (fn : Nat) : Bool :=
  (List.range 16).any (fun q => mayFetch s fn q && !(admitHeld s fn q).1 && sqAvail s fn q != 0 && !fetchWaits s fn q)
/-- The function whose turn comes next: the first after the present one that has a new descriptor (R188). -/
def nextTurn (s : State) : Option Nat :=
  ((List.range 129).map (fun i => (s.turnFn + 1 + i) % 129)).find? (fnHasNew s)
/-- Begin fetching from SQ `q`: in its function's turn until eight chains of it have been taken, else as the next function's
turn begins (R188). A turn may end before every SQ of it has given eight (DESIGN CHOICE, log entry 17). -/
def takeTurn (s : State) (fn q : Nat) : Option State :=
  let n := sget (fun _ => 0) s.turnTaken q
  if s.turnFn = fn && decide (n < 8) then some { s with turnTaken := sset (fun _ => 0) s.turnTaken q (n + 1) }
  else if nextTurn s = some fn then some { s with turnFn := fn, turnTaken := [(q, 1)] }
  else none

/-- Fetch the chain at SQ_HEAD and check it (R184, R194, R216): the head first, then, once the tail covers them, the extensions
that it counts. `fetchFails`: the host answers the fetch with an error. -/
def fetchChain (s : State) (fn q : Nat) (fetchFails : Bool) : State :=
  let (ok, s1) := hostPortAccess s false (sqEntryAddr s fn q 0) 128
  if !ok || fetchFails then fetchError s1 fn q
  else
    let n := sqChainLen s fn q
    if sqAvail s fn q < n then s1
    else
      let (ok, s2) := ((List.range n).drop 1).foldl (fun (r : Bool × State) i =>
        if r.1 then hostPortAccess r.2 false (sqEntryAddr s fn q i) 128 else r) (true, s1)
      if !ok then fetchError s2 fn q
      else
        let c := (List.range n).flatMap (fun i => hostBytes s (sqEntryAddr s fn q i) 128)
        let s3 := regSetFn s2 fn (Reg.sqHead q) (BitVec.ofNat 64 ((sqHead s fn q + n) % 2 ^ 32))
        ingestChain s3 fn q (sqHead s fn q) c (n - 1) (sqSize s fn q)

/-- DESCRIPTOR_INGEST (R184, R187, R188, R194): the next chain of an SQ whose turn it is. -/
def execDescriptorIngest (fn : BitVec 8) (sq : BitVec 4) (fetchFails : Bool) (s : State) : Host.Outcome State Fault Refusal :=
  let f := fn.toNat
  let q := sq.toNat
  if !mayFetch s f q then .next s
  else
    let (held, s0) := admitHeld s f q
    if held || sqAvail s0 f q == 0 || fetchWaits s0 f q then .next s0
    else
      match takeTurn s0 f q with
      | none => .next s0
      | some s1 => .next (fetchChain s1 f q fetchFails)

end Sys2Proof.Machine
end

