-- ==== Sys2Proof/Machine/ChangeSet.lean ====
section
/-! DEFINITION. Change sets (spec 07 R202 to R208; 11 R317; 15 R403): validation, preparation, the switch instant, rejection. -/

namespace Sys2Proof.Machine

/-- A value that a register of the map may hold: its reserved bits are zero and no field is reserved. -/
def regAllows (off v : Nat) : Bool :=
  match regRowAt 0 off with
  | some r => decide (v &&& r.rw = v) && r.ranges.all (fun f =>
      let x := v / 2 ^ f.1 % 2 ^ f.2.1
      decide (f.2.2.1 ≤ x) && decide (x ≤ f.2.2.2))
  | none => false

/-- SC_BASE and SC_COUNT of a TEN_QUOTA value. -/
def quotaRange (v : Nat) : Nat × Nat := (v / 2 ^ 8 % 2 ^ 8, v / 2 ^ 16 % 2 ^ 9)
/-- TEN_QUOTA of tenant `t` after a set. -/
def quotaAfter (s : State) (es : List CsEntry) (t : Nat) : Nat :=
  match es.find? (fun e => e.kind == 4 && e.index == t) with
  | some e => numAt e.value 0 4
  | none => (regGet s (Reg.tenQuota t)).toNat
/-- The counter ranges of two tenants meet. -/
def quotasMeet (a b : Nat) : Bool :=
  let (x, n) := quotaRange a
  let (y, m) := quotaRange b
  n != 0 && m != 0 && decide (x < y + m) && decide (y < x + n)

/-- The element's own chapter allows the value (R202, R204 step 1). -/
def entryValue (s : State) (es : List CsEntry) (e : CsEntry) : Bool :=
  let v (o n : Nat) : Nat := numAt e.value o n
  let i := e.index
  match e.kind.toNat with
  | 1 => decide (i < 256) && v 20 4 == 0 && regAllows (Reg.ruleStart 0) (v 0 8) && regAllows (Reg.ruleEnd 0) (v 8 8) &&
      regAllows (Reg.ruleAttr 0) (v 16 4)
  | 2 =>
    let w := v 0 4
    decide (i < 1024) && v 4 20 == 0 && decide (w < 16) && !(placeValid s && i == deviceNo s) &&
      !(w.testBit 0 && (w / 4 == 0 || decide (128 * racksOf s ≤ i)))
  | 3 =>
    let x := tblOf s i
    decide (i < 256) && decide (v 0 1 ≤ 1) && v 1 3 == 0 && v 7 17 == 0 && x.owned &&
      (match tblRec x (v 0 1 == 1) with | some r => r.gen == v 4 3 | none => false)
  | 4 =>
    let w := v 0 4
    let (b, n) := quotaRange w
    decide (i ≤ 128) && v 4 20 == 0 && decide (w % 2 ^ 7 ≤ 64) && !w.testBit 7 && decide (w < 2 ^ 25) && decide (n ≤ 256) &&
      decide (b + n ≤ 256) &&
      (i == 0 || (List.range 128).all (fun k => k + 1 == i || !quotasMeet w (quotaAfter s es (k + 1))))
  | 0x10 => decide (i < 32) && decide (v 0 1 ≤ 128) && v 1 23 == 0
  | 0x11 => decide (i < 32) && decide (v 0 1 ≤ 128) && v 1 23 == 0
  | _ => false

/-- Entry `n` is valid: reserved fields are zero, no earlier entry names the same element, the value is allowed. `raw` are the
entry's 32 bytes. -/
def entryOk (s : State) (es : List CsEntry) (raws : List (List Byte)) (n : Nat) : Bool :=
  let raw := raws.getD n []
  match es.drop n with
  | [] => false
  | e :: _ =>
    numAt raw 1 1 == 0 && numAt raw 4 4 == 0 &&
    !(es.take n).any (fun x => x.kind == e.kind && x.index == e.index) && entryValue s es e

/-- Read `n` bytes at byte `off` of slot 0's local range, block by block; no strand memory and no host bus space (03
R566). -/
def csRead (o : Op) (la : Nat) (off n : Nat) (fails : Option Nat) : EngM (List Byte) := do
  let mut out : List Byte := []
  for b in blocksOf (la + off) n do
    let m := min (la + off + n) (alignDown b 64 + 64) - b
    let bs ← copyRead o .changeSet la (b - la) m fails
    out := out ++ bs
  pure out

/-- CS_STATUS.LAST and REASON of a rejection (R211). -/
def csNote (s : State) (last reason : Nat) : State := regSetFld (regSetFld s Reg.csStatus 2 2 last) Reg.csStatus 4 4 reason
/-- End the descriptor of a set rejected at step 1. -/
def csReject {α : Type} (reason detail : Nat) : EngM α := do
  modify (fun s => csNote s 2 reason)
  engEnd 0x0C reason detail

/-- Step 1 of R204, and the begin of step 2: the set is in progress. Of a header that is itself invalid (COUNT out of range, reserved bits set)
no entry has an index: reason 1 with DETAIL 0 (DESIGN CHOICE, log entry 27). -/
def changeSetBody (fails : Option Nat) (o : Op) : EngM Compl := do
  engCapCheck o 0 (rLD ||| rDMA) 0 32 1
  let la ← engLocal o .changeSet 0 kRead
  let h ← csRead o la 0 32 fails
  let count := numAt h 0 2
  if count = 0 || 1024 < count || numAt h 2 6 != 0 || numAt h 16 16 != 0 then csReject 1 0
  engCapCheck o 0 (rLD ||| rDMA) 32 (32 * count) 1
  let body ← csRead o la 32 (32 * count) fails
  let raws := (List.range count).map (fun i => bytesAt body (32 * i) 32)
  let es : List CsEntry := raws.map (fun r => ⟨BitVec.ofNat 8 (numAt r 0 1), numAt r 2 2, bytesAt r 8 24⟩)
  let s ← get
  match (List.range count).find? (fun i => !entryOk s es raws i) with
  | some i => csReject 1 i
  | none =>
    let at_ := BitVec.ofNat 64 (numAt h 8 8)
    let due := opDeadline s o
    if due.any (fun d => decide (d.toNat < at_.toNat)) then csReject 3 0
    modify (fun s => { s with changeSet := some ⟨o.id, es, at_, s.tbc, due, false, none⟩ })
    throw .goOn

/-- CHANGE_SET (R203, R204, R208): one at a time, in the order in which they were fetched. -/
def execChangeSet (op : Nat) (hostFail : Option Nat) (s : State) : Host.Outcome State Fault Refusal :=
  if s.changeSet.isSome || s.ops.any (fun o => o.opcode == 8 && o.phase != .done && decide (o.id < op)) then .next s
  else .next (runOp s op 8 hostFields (changeSetBody hostFail))

/-- Every shadowed element that the set touches is free (R204 step 2). -/
def csFree (s : State) (c : ChangeSet) : Bool :=
  c.entries.all (fun e =>
    if e.kind = 1 then !acuShadowBusy s
    else if e.kind = 3 then !(tblOf s e.index).draining && !(tblOf s e.index).switchPending
    else true)


/-- CHANGE_SET_PREPARE (R204 steps 2 to 4): the shadows are copied and written; DRAINING is set. -/
def execChangeSetPrepare (s : State) : Host.Outcome State Fault Refusal :=
  match s.changeSet with
  | none => .next s
  | some c =>
    if c.prepared || !csFree s c || fenced s then .next s
    else
      let rules := c.entries.filter (fun e => e.kind == 1)
      let s1 := if rules = [] then s else rules.foldl (fun st e =>
        acuSetRule st e.index ⟨BitVec.ofNat 64 (numAt e.value 0 8), BitVec.ofNat 64 (numAt e.value 8 8),
          BitVec.ofNat 32 (numAt e.value 16 4)⟩) (acuCopyBank s)
      .next (noteOps { s1 with changeSet := some { c with prepared := true } })

/-- A cove passes to another owner (R207): its memory with tags, the stationary weights, the accumulation buffer (12
R348) and the GE speculation buffer are cleared, and accesses wait until COVE_CLEAR_DONE. -/
def reassignCove (s : State) (n : Nat) (t : Byte) : State :=
  if coveOwnerOf s n = t then s
  else
    let a := coveBase n
    let s1 := { s with
      coveOwner := sset (fun _ => (0 : Byte)) s.coveOwner n t
      coveClearing := sset markDflt s.coveClearing n true
      mem := sclear s.mem a 0x1800000, tags := sclear s.tags a 0x1800000, poison := sclear s.poison a 0x1800000 }
    dropLines (setDta s1 n dtaReset) none a 0x1800000
/-- A stream context passes to another owner: it is unconfigured (R207). -/
def reassignVctx (s : State) (n : Nat) (t : Byte) : State :=
  if vctxOwnerOf s n = t then s
  else setVctx { s with vctxOwner := sset (fun _ => (0 : Byte)) s.vctxOwner n t } n vctxReset

/-- One entry takes effect at the switch instant (R204 step 6). -/
def applyEntry (s : State) (e : CsEntry) : State :=
  match e.kind.toNat with
  | 2 => setRoute s e.index (numAt e.value 0 4)
  | 3 => tblSwitch s e.index (numAt e.value 0 1 == 1)
  | 4 => regSet s (Reg.tenQuota e.index) (BitVec.ofNat 64 (numAt e.value 0 4))
  | 0x10 => reassignCove s e.index (BitVec.ofNat 8 (numAt e.value 0 1))
  | 0x11 => reassignVctx s e.index (BitVec.ofNat 8 (numAt e.value 0 1))
  | _ => s

/-- The set's deadline has passed; a set whose timeout is 0 has none (R189, R205). -/
def csLate (s : State) (c : ChangeSet) : Bool := c.due.any (fun d => passed s d)
/-- The switch can take place now: step 5 has ended, AT is reached, the deadline has not passed. -/
def csMaySwitch (s : State) (c : ChangeSet) : Bool :=
  c.prepared && c.drained.isSome && decide (c.at_.toNat ≤ s.tbc.toNat) && !csLate s c

/-- CHANGE_SET_SWITCH (R204 steps 6 and 7): every element at once; REASON 1 when AT had passed when step 5 ended. -/
def execChangeSetSwitch (s : State) : Host.Outcome State Fault Refusal :=
  match s.changeSet with
  | none => .next s
  | some c =>
    if !csMaySwitch s c || fenced s then .next s
    else
      let s0 := { s with changeSet := none }
      let s1 := c.entries.foldl applyEntry (if c.entries.any (fun e => e.kind == 1) then acuSwitchNow s0 else s0)
      let epoch := (regFld s1 Reg.csStatus 8 24 + 1) % 2 ^ 24
      let s2 := regSet (csNote (regSetFld s1 Reg.csStatus 8 24 epoch) 1 (regFld s1 Reg.csStatus 4 4)) Reg.csLastAt s.tbc
      .next (endOp s2 c.op (compl 0 (if c.drained.any (fun t => decide (c.at_.toNat < t.toNat)) then 1 else 0) (BitVec.ofNat 32 epoch) 0))

/-- The set in progress is gone (R205): the shadows return to the active contents and the holds end. -/
def csDrop (s : State) (reason : Nat) : State :=
  match s.changeSet with
  | none => s
  | some c =>
    let s1 := { s with changeSet := none }
    csNote (if c.prepared && c.entries.any (fun e => e.kind == 1) then acuCopyBank s1 else s1) 2 reason

/-- CHANGE_SET_DEADLINE (R205, R213): the deadline has passed and the set is rejected, reason 2, with the first element that had
not drained. Where every element has, or the set waits before step 4, the spec states no reason and no DETAIL: the model gives reason 2
with DETAIL 0 (DESIGN CHOICE, log entry 27). -/
def execChangeSetDeadline (s : State) : Host.Outcome State Fault Refusal :=
  match s.changeSet with
  | none => .next s
  | some c =>
    if !csLate s c || fenced s then .next s
    else
      let n := ((List.range c.entries.length).find? (fun i => (c.entries.drop i).take 1 |>.any (fun e => !csDrained s e))).getD 0
      .next (endOp (csDrop s 2) c.op (compl 0x0C 2 0 n))

end Sys2Proof.Machine
end

