-- ==== Sys2Proof/Machine/HostEnd.lean ====
section
/-! DEFINITION. How operations are ended from outside (spec 07 R189, R191, R212, R215, R176; 17 R456): timeouts, tenant
stop, function resets, loss of the host link. -/

namespace Sys2Proof.Machine

/-- Engines let go of operations that no longer run; a change set whose own operation has ended, as STOP of tenant 0 ends it, is rejected
with LAST 2 and REASON 0 (DESIGN CHOICE, log entry 27). -/
def dropEnded (s : State) : State :=
  let s1 := dropColl (dropVideo (dropStrands (dropBound (dropWalks s))))
  noteOps (match s1.changeSet with
  | some c => if s1.ops.any (fun o => o.id == c.op && o.phase == .running) then s1 else csDrop s1 0
  | none => s1)

/-- DETAIL and RESULT of a TIMEOUT: a RUN reports where its lowest running core stands (08 R241); a collective the bytes of OUT that its
write-back has written (15 R420); an ENCODE its completed rows (09 R273); the others their progress. -/
def timeoutCompl (s : State) (o : Op) : Compl :=
  if o.opcode = 0x40 then
    let (n, pc) := runPc s o
    compl 5 0 (BitVec.ofNat 32 (n % 16 * 2 ^ 16)) pc
  else compl 5 0 0 (if o.opcode = 0x51 then rowsDone s o.id else o.progress)

/-- DESCRIPTOR_TIMEOUT (R189, R191, R213): the deadline of a begun operation has passed. A CHANGE_SET has its own end (R205). -/
def execDescriptorTimeout (op : Nat) (s : State) : Host.Outcome State Fault Refusal :=
  match findOp s op with
  | none => .next s
  | some o =>
    let late := match o.deadline with | some d => passed s d | none => false
    if o.phase == .running && late && o.opcode != 8 && !fenced s then .next (dropEnded (endOp s op (timeoutCompl s o)))
    else .next s

/-- TEN_STATE.STOP = 1 (R212): the tenant's operations end ABORTED, reason 1. On a fenced device it is only stored, and applies after
the reset (20 R543). A change set in progress is an operation of tenant 0: with STOP of tenant 0 it ends so itself, is rejected, and
leaves LAST 2 and REASON 0 (R212 against R213; log entry 27). -/
def tenantStopSet (s : State) (t : Nat) : State :=
  if 128 < t then s
  else
    let s1 := regOr s (Reg.tenState t) 1
    let s2 := if fenced s && !s.stopsHeld.contains t then { s1 with stopsHeld := t :: s1.stopsHeld } else s1
    dropEnded ((s2.ops.filter (fun o => o.tenant.toNat == t && o.phase != .done)).foldl (fun st o => endOp st o.id (compl 8 1 0 0)) s2)
/-- TEN_STATE.STOP = 0. -/
def tenantResumeSet (s : State) (t : Nat) : State :=
  if 128 < t then s else regClr { s with stopsHeld := s.stopsHeld.filter (fun u => u != t) } (Reg.tenState t) 1

/-- TENANT_STOP (R212), by the host driver of the PF (20 R539). -/
def execTenantStop (agent : Agent) (tenant : BitVec 8) (s : State) : Host.Outcome State Fault Refusal :=
  .next (if pfAgent s agent then tenantStopSet s tenant.toNat else s)
/-- TENANT_RESUME (R212), by the host driver of the PF (20 R539, R541). -/
def execTenantResume (agent : Agent) (tenant : BitVec 8) (s : State) : Host.Outcome State Fault Refusal :=
  .next (if pfAgent s agent then tenantResumeSet s tenant.toNat else s)

/-- What an FLR does to one function (R215): the operations of its rings end without completions, its rings and the function-ring
block return to reset, its tenant's epoch advances. -/
def flrOne (s : State) (fn : Nat) : State :=
  let mine (o : Op) : Bool := match o.src with | .host f _ _ => f == fn | .core _ _ _ => false
  let s1 := dropEnded { s with ops := s.ops.filter (fun o => !mine o), heldOps := s.heldOps.filter (fun i =>
    !s.ops.any (fun o => o.id == i && mine o)) }
  let lo := regKey fn 0x1000
  advanceStart { s1 with regs := sclear s1.regs lo 0x1000, funcs := serase s1.funcs fn } fn

/-- An FLR of the PF (R215): every function, and the change set in progress, which is rejected with LAST 2 and, since R205 lists no
reason for it, REASON 0 (DESIGN CHOICE, log entry 27). -/
def flrPf (s : State) : State := (List.range 129).foldl flrOne (csDrop s 0)

/-- FUNCTION_LEVEL_RESET (R215): a configuration request, which a host link that stands still does not bring (17 R456). -/
def execFunctionLevelReset (fn : BitVec 8) (s : State) : Host.Outcome State Fault Refusal :=
  let f := fn.toNat
  if !fnExists s f || inReset s || linkPaused s then .next s
  else if f = 0 then .next (flrPf s)
  else .next (raiseStatus (flrOne s f) 0 Reg.hpErr 8)

/-- VF_DISABLE (R176): VF Enable and NumVFs are written; a VF that no longer exists is treated as by an FLR. A host
link that stands still brings no configuration request (17 R456). -/
def execVfDisable (enable : Bool) (numVfs : BitVec 16) (s : State) : Host.Outcome State Fault Refusal :=
  if inReset s || linkPaused s then .next s
  else
    let s1 := { s with vfEnable := enable, numVfs := numVfs }
    .next (((List.range 129).filter (fun n => fnExists s n && !fnExists s1 n)).foldl flrOne s1)

/-- A link-down event (R215, 19 R501): as an FLR of the PF, and LINK_DOWN. -/
def linkDownEvent (s : State) : State :=
  let s1 := flrPf s
  raiseStatus (regSet { s1 with power := { s1.power with pcieBy := none } } Reg.hpLink 0) 0 Reg.hpErr 2

/-- LINK_DOWN (R215). -/
def execLinkDown (s : State) : Host.Outcome State Fault Refusal := .next (if inReset s then s else linkDownEvent s)

/-- PCIE_L0_TIMEOUT (17 R456): 10 ms after the end of a dip the link is not in L0. -/
def execPcieL0Timeout (s : State) : Host.Outcome State Fault Refusal :=
  match s.power.pcieBy with
  | none => .next s
  | some t =>
    if reached s t && !inReset s then
      .next (linkDownEvent s)
    else .next s

end Sys2Proof.Machine
end

