-- ==== Sys2Proof/Machine/Verify.lean ====
section
/-! DEFINITION. Verification of firmware images (spec 19 R509, R510): SHA-384 (FIPS 180-4) and ECDSA over P-384 (FIPS 186-5),
the header checks, the slots of the flash. -/

namespace Sys2Proof.Machine

/- SHA-384: its constants are leading bits of the fractional parts of roots of the first primes (FIPS 180-4, 4.2.3 and 5.3.4) -/

/-- The big-endian number of a byte list. -/
def beNat (l : List Byte) : Nat := l.foldl (fun a b => a * 256 + b.toNat) 0
/-- `n` big-endian bytes of a number. -/
def beBytes (n x : Nat) : List Byte := (toBytes n x).reverse
/-- The greatest number below 2^k above `r` whose power `e` is at most `x`, found bit by bit. -/
def rootFrom (e x : Nat) : Nat → Nat → Nat
  | 0, r => r
  | k + 1, r => rootFrom e x k (if (r + 2 ^ k) ^ e ≤ x then r + 2 ^ k else r)
/-- The first 64 bits of the fractional part of the root of degree `e` of a small number. -/
def rootFraction (e p : Nat) : W64 := BitVec.ofNat 64 (rootFrom e (p * 2 ^ (64 * e)) 70 0)
/-- The primes below 410: the first 80. -/
def shaPrimes : List Nat := (List.range 410).filter (fun p => decide (2 ≤ p) && (List.range p).all (fun d => d < 2 || p % d != 0))
/-- The round constants: cube roots of the 80 primes. -/
def shaKeys : List W64 := shaPrimes.map (rootFraction 3)

/-- SHA-384 at one round: the words of the message schedule that later rounds need, oldest first, and the values that the
variables a and e have had, newest first (b, c, d and f, g, h are their older values). -/
structure Sha where
  ahead : List W64
  av : List W64
  ev : List W64
  deriving DecidableEq, Repr

/-- Three turns of a word, added without carry. -/
def turned (x : W64) (l m n : Nat) : W64 := x.rotateRight l ^^^ x.rotateRight m ^^^ x.rotateRight n
/-- Two turns and a shift of a word, added without carry. -/
def shifted (x : W64) (l m n : Nat) : W64 := x.rotateRight l ^^^ x.rotateRight m ^^^ x >>> n
/-- The word of the schedule 16 after the oldest one held. -/
def Sha.furtherWord (z : Sha) : W64 :=
  let at' (i : Nat) : W64 := z.ahead.getD i 0
  at' 0 + shifted (at' 1) 1 8 7 + at' 9 + shifted (at' 14) 19 61 6
/-- The sum that both new variables take: the bits of e choose between f and g. -/
def Sha.mixed (z : Sha) (key : W64) : W64 :=
  let e (i : Nat) : W64 := z.ev.getD i 0
  key + z.ahead.getD 0 0 + e 3 + turned (e 0) 14 18 41 + (e 2 ^^^ (e 0 &&& (e 1 ^^^ e 2)))
/-- One round with its constant; a's sum takes each bit that two of a, b and c have. -/
def Sha.round (z : Sha) (key : W64) : Sha :=
  let a (i : Nat) : W64 := z.av.getD i 0
  let m := z.mixed key
  { ahead := z.ahead.drop 1 ++ [z.furtherWord]
    av := (m + turned (a 0) 28 34 39 + ((a 0 &&& (a 1 ||| a 2)) ||| (a 1 &&& a 2))) :: z.av.take 3
    ev := (a 3 + m) :: z.ev.take 3 }
/-- The chaining value (a to d, then e to h) after one more block of 128 bytes. -/
def shaAbsorb (v : List W64) (block : List Byte) : List W64 :=
  let words := (List.range 16).map (fun i => BitVec.ofNat 64 (beNat (bytesAt block (8 * i) 8)))
  let z := shaKeys.foldl Sha.round { ahead := words, av := v.take 4, ev := v.drop 4 }
  (List.range 8).map (fun i => v.getD i 0 + (z.av ++ z.ev).getD i 0)
/-- What follows a message of `n` bytes: a one bit, zeros, and its length in bits as the last 128 bits of a block. -/
def shaTail (n : Nat) : List Byte := 0x80#8 :: (List.replicate ((239 - n % 128) % 128) 0 ++ beBytes 16 (8 * n))
/-- SHA-384 of a message: it starts from square roots of the ninth to sixteenth prime and keeps six words. -/
def sha384 (m : List Byte) : List Byte :=
  let padded := m ++ shaTail m.length
  let start := ((shaPrimes.drop 8).take 8).map (rootFraction 2)
  let last := (List.range (padded.length / 128)).foldl (fun v i => shaAbsorb v (bytesAt padded (128 * i) 128)) start
  (last.take 6).flatMap (fun w => beBytes 8 w.toNat)

/- ECDSA over P-384 -/

/-- The field prime. -/
def p384P : Nat := 2 ^ 384 - 2 ^ 128 - 2 ^ 96 + 2 ^ 32 - 1
/-- The group order. -/
def p384N : Nat := 0xFFFFFFFFFFFFFFFFFFFFFFFFFFFFFFFFFFFFFFFFFFFFFFFFC7634D81F4372DDF581A0DB248B0A77AECEC196ACCC52973
/-- The curve's b. -/
def p384B : Nat := 0xB3312FA7E23EE7E4988E056BE3F82D19181D9C6EFE8141120314088F5013875AC656398D8A2ED19D2A85C8EDD3EC2AEF
/-- The base point. -/
def p384G : Nat × Nat :=
  (0xAA87CA22BE8B05378EB1C71EF320AD746E1D3B628BA79B9859F741E082542A385502F25DBF55296C3A545E3872760AB7,
   0x3617DE4A96262C6F5D9E98BF9292DC29F8F41DBD289A147CE9DA3113B5F0B8C00A60B1CE1D7E819D7A431D7C90EA0E5F)
/-- Modular power by squaring, over `k` bits of the exponent, lowest first. -/
def powMod (m : Nat) : Nat → Nat → Nat → Nat → Nat
  | 0, _, _, acc => acc
  | k + 1, b, e, acc => powMod m k (b * b % m) (e / 2) (if e % 2 = 1 then acc * b % m else acc)
/-- Inverse modulo a prime of 384 bits. -/
def invMod (m x : Nat) : Nat := powMod m 384 (x % m) (m - 2) 1
/-- Sum of two points of the curve; `none` is the point at infinity. -/
def ecAdd (a b : Option (Nat × Nat)) : Option (Nat × Nat) :=
  match a, b with
  | none, q => q
  | p, none => p
  | some (x1, y1), some (x2, y2) =>
    if x1 = x2 && (y1 + y2) % p384P = 0 then none
    else
      let l := if x1 = x2 then (3 * x1 * x1 + p384P - 3) * invMod p384P (2 * y1) % p384P
        else (y2 + p384P - y1) * invMod p384P (x2 + p384P - x1) % p384P
      let x3 := (l * l + 2 * p384P - x1 - x2) % p384P
      some (x3, (l * (x1 + p384P - x3) + p384P - y1) % p384P)
/-- `e` times a point, over `k` bits, lowest first. -/
def ecMul : Nat → Nat → Option (Nat × Nat) → Option (Nat × Nat) → Option (Nat × Nat)
  | 0, _, _, acc => acc
  | k + 1, e, p, acc => ecMul k (e / 2) (ecAdd p p) (if e % 2 = 1 then ecAdd acc p else acc)
/-- ECDSA verification of a 48-byte digest with r and s under a public key (FIPS 186-5 6.4.2). -/
def ecdsaOk (key : Nat × Nat) (digest : List Byte) (r s : Nat) : Bool :=
  if r = 0 || p384N ≤ r || s = 0 || p384N ≤ s then false
  else
    let z := beNat digest
    let w := invMod p384N s
    match ecAdd (ecMul 384 (z * w % p384N) (some p384G) none) (ecMul 384 (r * w % p384N) (some key) none) with
    | none => false
    | some (x, _) => x % p384N == r

/- Images (R508 to R510) -/

/-- Offset of a slot: A is `false`. -/
def slotBase (b : Bool) : Nat := if b then 0x2100000 else 0x100000
/-- Offset of a slot's settings store area. -/
def storeBase (b : Bool) : Nat := if b then 0x4200000 else 0x4100000
/-- The header of a slot. -/
def slotHeader (s : State) (b : Bool) : List Byte := flashBytes s (slotBase b) 256
/-- BODY_LEN. -/
def imgLen (h : List Byte) : Nat := numAt h 24 4
/-- SCHEMA. -/
def imgSchema (h : List Byte) : Nat := numAt h 6 2
/-- SVN. -/
def imgSvn (h : List Byte) : Nat := numAt h 16 4
/-- KEY. -/
def imgKey (h : List Byte) : Nat := numAt h 20 1
/-- READS: the schemas that the image can also read. -/
def imgReads (h : List Byte) : List Nat := ((List.range 8).map (fun i => numAt h (28 + 2 * i) 2)).filter (fun x => x != 0)
/-- Check 1 of R510. -/
def imgHeaderOk (h : List Byte) : Bool :=
  numAt h 0 4 == 0x52554C31 && numAt h 4 2 == 1 && decide (imgSvn h ≤ 64) && decide (imgKey h ≤ 3) && decide (1024 ≤ imgLen h) && decide (imgLen h ≤ 33554432 - 256) &&
  imgLen h % 16 == 0 && numAt h 21 3 == 0 && numAt h 44 4 == 0 && numAt h 96 64 == 0
/-- The checks of R510 on a header and its body: the number of the first that fails, 0 for none. -/
def imgCheck (s : State) (h body : List Byte) : Nat :=
  if !imgHeaderOk h then 1
  else if bitAt s.revoked (imgKey h) then 2
  else if imgSvn h < s.minSvn.toNat then 3
  else if sha384 body != bytesAt h 48 48 then 4
  else if !ecdsaOk (Config.romKey (imgKey h)) (sha384 (h.take 160)) (beNat (bytesAt h 160 48)) (beNat (bytesAt h 208 48)) then 5
  else 0
/-- The checks on a slot of the flash. -/
def slotCheck (s : State) (b : Bool) : Nat :=
  let h := slotHeader s b
  if !imgHeaderOk h then 1 else imgCheck s h (flashBytes s (slotBase b + 256) (imgLen h))

end Sys2Proof.Machine
end

