-- ==== Sys2Proof/Machine/SetUp.lean ====
section
/-! DEFINITION. The set-up register windows (spec 00 R8 to R12; 07 R177 to R179, R209 to R212 and the register sections of every
chapter): what a read returns and what a write does. -/

namespace Sys2Proof.Machine

/- Reads -/

/-- A Bool as a bit. -/
def bit01 (b : Bool) : Nat := if b then 1 else 0
/-- The bits of a number for which a predicate holds. -/
def bitSet (n : Nat) (p : Nat → Bool) : Nat := ((List.range n).map (fun i => if p i then 2 ^ i else 0)).sum

/-- Nothing of a stopped tenant remains in flight (07 R212). -/
def tenantQuiet (s : State) (t : Nat) : Bool := tenantStopped s t && !s.ops.any (fun o => o.tenant.toNat == t)
/-- DRAINING of a tenant: an old or new owner of a drain-and-apply entry (07 R204 step 4). -/
def tenantDraining (s : State) (t : Nat) : Bool :=
  match s.changeSet with
  | some c => c.entries.any (fun e => (e.kind == 0x10 || e.kind == 0x11) && csAffects s e.kind.toNat e.index t)
  | none => false

/-- The operation that an engine's queue is executing. -/
def runningOn (s : State) (q : Nat) : Option Op := s.ops.find? (fun o => o.queue.toNat == q && o.phase == .running)
/-- A DTA's or a gather engine's status tells the tenant of the operation, or the cove's owner while it is idle (DESIGN
CHOICE, log entry 28). -/
def engineTenant (s : State) (q cove : Nat) : Nat :=
  match runningOn s q with
  | some o => o.tenant.toNat
  | none => (coveOwnerOf s cove).toNat

/-- ID_RESOURCES (01 R24). -/
def resourcesWord (s : State) (fn : Nat) : Nat :=
  let coves := if fn = 0 then 32 else ((List.range 32).filter (fun c => (coveOwnerOf s c).toNat == fn)).length
  let stackSet := if s.hbm.trained then ((List.range 8).filter (fun n => !stackOffline s n)).length else 0
  coves + 16 * 2 ^ 6 + 64 * 2 ^ 11 + stackSet * 2 ^ 18 + portsUp s * 2 ^ 22

/-- HL_STATUSn (05 R144). -/
def hlStatusWord (s : State) (n : Nat) : Nat :=
  let c := coreOf s n
  let run := c.running
  bit01 run + 2 * bit01 (!c.running) + (excRing c).toNat * 4 + ctxTenant c * 2 ^ 4 + bit01 (run && c.wait != .none) * 2 ^ 12
/-- SC_WAITk (16 R438). -/
def scWaitWord (s : State) (k : Nat) : Nat :=
  bitSet 32 (fun b => (List.range 16).any (fun n => match (coreOf s n).wait with
    | .counter m _ _ => m == 32 * k + b && (coreOf s n).running
    | _ => false))
/-- STR_STATUSs (08 R237). -/
def strStatusWord (s : State) (n : Nat) : Nat :=
  let c := strandOf s n
  let stalled := match c.wait with | .waitd _ => true | .dma _ _ _ _ => true | _ => false
  bit01 c.running + 2 * bit01 (c.running && stalled) + c.tenant.toNat * 2 ^ 4 + c.pc % 2 ^ 13 * 2 ^ 16
/-- VCU_STATUS (09 R270). -/
def vcuStatusWord (s : State) : Nat :=
  bitSet 4 (pipeBusy s) + 16 * bit01 (engineOffline s 0x44)
/-- GE_STATUSq (10 R292). Commands take no TBC time, so of a walk only the reads asked of another device are outstanding. -/
def geStatusWord (s : State) (q : Nat) : Nat :=
  let asked := match runningOn s (0x20 + q) with | some o => o.asked.length % 4096 | none => 0
  bit01 (runningOn s (0x20 + q)).isSome + 2 * bit01 (engineOffline s (0x20 + q)) + asked * 4 + engineTenant s (0x20 + q) q * 2 ^ 16
/-- DTA_STATUSq (12 R341). -/
def dtaStatusWord (s : State) (q : Nat) : Nat :=
  let mode := match runningOn s q with
    | some o => if o.opcode = 0x10 then (matmulOf o).shape * 4 + bit01 (!exactFmt (matmulOf o).inFmt) * 16
        else bit01 (!exactFmt (segSumOf o).inFmt) * 16
    | none => 0
  bit01 (runningOn s q).isSome + 2 * bit01 (engineOffline s q) + mode + engineTenant s q q * 2 ^ 8

/-- The skew counter of a shard in the last complete window (11 R318). -/
def skewShard (s : State) (table shard : Nat) : Nat := min (sget (fun _ => 0) s.skewLast (32 * table + shard)) 0xFFFFFFFF
/-- TBL_STATE (11 R318). -/
def tblStateWord (s : State) (t : Nat) : Nat :=
  let x := tblOf s t
  x.tenant.toNat + bit01 x.owned * 2 ^ 8 + bit01 x.active * 2 ^ 9 + bit01 x.rec0.isSome * 2 ^ 10 + bit01 x.rec1.isSome * 2 ^ 11 +
  bit01 x.draining * 2 ^ 12 + bit01 x.switchPending * 2 ^ 13
/-- TBL_REC0 and TBL_REC1. -/
def tblRecWord (r : Option TblRec) : Nat :=
  match r with
  | some r => r.gen + bit01 r.writable * 2 ^ 24 + bit01 r.migrate * 2 ^ 25
  | none => 0

/-- HBM_STATUS (14 R383). -/
def hbmStatusWord (s : State) : Nat :=
  if !s.hbm.trained then 0
  else bitSet 8 (fun n => stackState s n != 3) + bitSet 8 (fun n => stackState s n == 1) * 2 ^ 8 +
    bitSet 8 (fun n => stackState s n == 2) * 2 ^ 16 + bit01 (regBit s Reg.hbmZero 31) * 2 ^ 24

/-- The slot that `i` names holds an image that R510 accepts: its VERSION, else 0 (19 R520). -/
def fwVersion (s : State) (b : Bool) : Nat := if slotCheck s b = 0 then numAt (slotHeader s b) 8 8 else 0

/-- Registers of the function-ring block, the identity, time-base and capability blocks and the tenant views whose value is
derived; `fn` is the window's function. -/
def readFnBlock (s : State) (fn off : Nat) : Option Nat :=
  if off = Reg.idResources then some (resourcesWord s fn)
  else if off = Reg.idSerial then some Config.serial.toNat
  else if off = Reg.tbNow then some s.tbc.toNat
  else if off = Reg.fnStatus then
    some (fn + bit01 (fnActive s fn) * 2 ^ 8 + bit01 (tenantQuiet s fn) * 2 ^ 9 + bit01 (tenantDraining s fn) * 2 ^ 10)
  else if 0x1100 ≤ off && off < 0x1300 && (off - 0x1100) % 0x20 = 8 then
    let q := (off - 0x1100) / 0x20
    some ((setBit (regGetFn s fn off) 17 (!sqBusy s fn q)).toNat)
  else if 0x1300 ≤ off && off < 0x1500 && (off - 0x1300) % 0x20 = 8 then
    let c := (off - 0x1300) / 0x20
    some ((setBit (regGetFn s fn off) 18 (cqFull s fn c)).toNat)
  else if off = Reg.tenSkewAt then some (regGet s Reg.embSkewAt).toNat
  else if Reg.tenSkewShard 0 ≤ off && off < Reg.tenSkewShard 32 && fn != 0 then
    let t := (regGetFn s fn Reg.tenSkewSel).toNat % 256
    let x := tblOf s t
    some (if x.owned && x.tenant.toNat == fn then skewShard s t ((off - Reg.tenSkewShard 0) / 4) else 0)
  else none

/-- Registers of the PF's blocks up to 0x7_FFFF whose value is derived. -/
def readLowBlocks (s : State) (off : Nat) : Option Nat :=
  if off = Reg.acuStatus then some (acuStatusWord s.acu).toNat
  else if Reg.ruleStart 0 ≤ off && off < Reg.ruleStart 256 then
    let r := sget ruleDflt (acuShadow s) ((off - Reg.ruleStart 0) / 0x20)
    match (off - Reg.ruleStart 0) % 0x20 with
    | 0 => some r.first.toNat
    | 8 => some r.last.toNat
    | 0x10 => some r.attr.toNat
    | _ => none
  else if Reg.hlStatus 0 ≤ off && off < Reg.hlStatus 16 then some (hlStatusWord s ((off - Reg.hlStatus 0) / 4))
  else if Reg.tenState 0 ≤ off && off < Reg.tenState 129 then
    let t := (off - Reg.tenState 0) / 0x10
    match (off - Reg.tenState 0) % 0x10 with
    | 0 => some (bit01 (tenantStopped s t) + 2 * bit01 (tenantQuiet s t) + 4 * bit01 (tenantDraining s t))
    | 4 => some (bitSet 32 (fun c => (coveOwnerOf s c).toNat == t))
    | 8 => some (bitSet 32 (fun c => (vctxOwnerOf s c).toNat == t))
    | _ => none
  else if off = Reg.csStatus then
    some ((regGet s off).toNat / 4 * 4 + bit01 s.changeSet.isSome + 2 * bit01 (csDraining s))
  else if Reg.strStatus 0 ≤ off && off < Reg.strStatus 64 then some (strStatusWord s ((off - Reg.strStatus 0) / 4))
  else if off = Reg.vcuStatus then some (vcuStatusWord s)
  else if Reg.vctxStatus 0 ≤ off && off < Reg.vctxStatus 32 then some (vctxStatusWord s ((off - Reg.vctxStatus 0) / 8))
  else if Reg.geStatus 0 ≤ off && off < Reg.geStatus 32 then some (geStatusWord s ((off - Reg.geStatus 0) / 4))
  else if off = Reg.embStatus then some (min s.dir.length 65536 + bit01 (engineOffline s 0x45) * 2 ^ 17)
  else if Reg.embSkewShard 0 ≤ off && off < Reg.embSkewShard 32 then
    some (skewShard s (regFld s Reg.embSkewSel 0 8) ((off - Reg.embSkewShard 0) / 4))
  else if Reg.tblState 0 ≤ off && off < Reg.tblState 256 then
    let t := (off - Reg.tblState 0) / 0x40
    match (off - Reg.tblState 0) % 0x40 with
    | 0 => some (tblStateWord s t)
    | 4 => some (tblRecWord (tblOf s t).rec0)
    | 8 => some (tblRecWord (tblOf s t).rec1)
    | 0xC => some (s.dir.filter (fun e => e.2.valid && e.2.table == t)).length
    | _ => none
  else none

/-- Registers of the PF's blocks from 0x8_0000 whose value is derived. -/
def readHighBlocks (s : State) (off : Nat) : Option Nat :=
  if Reg.dtaStatus 0 ≤ off && off < Reg.dtaStatus 32 then some (dtaStatusWord s ((off - Reg.dtaStatus 0) / 4))
  else if off = Reg.hbmStatus then some (hbmStatusWord s)
  else if off = Reg.fabStatus then some (fabStatusWord s)
  else if off = Reg.fabCoord then some (coordWord s)
  else if off = Reg.pwrStatus then some ((regGet s off).toNat + bitSet 4 (fun r => (dipOf s r).isSome) * 2 ^ 10)
  else if off = Reg.pwrNow then some ((regGet s off).toNat + min (s.power.busy / 1000) 1023 * 2 ^ 16)
  else if off = Reg.wearHours then some (onTimeNow s / hourTbc)
  else if off = Reg.wearEolDay then some (eolDayNow s)
  else if Reg.scWait 0 ≤ off && off < Reg.scWait 8 then some (scWaitWord s ((off - Reg.scWait 0) / 4))
  else if off = Reg.fwVersionA then some (fwVersion s false)
  else if off = Reg.fwVersionB then some (fwVersion s true)
  else if off = Reg.fwSvn then some (s.minSvn.toNat + s.revoked.toNat * 2 ^ 8)
  else if off = Reg.errStatus then some ((regGet s off).toNat % 8 + deviceEvents s * 8)
  else none

/-- The value of the register at offset `off` of function `fn`'s window. A VF's identity and time-base blocks read the PF's
values (01 R24, 02 R48). -/
def regRead (s : State) (fn off : Nat) : W64 :=
  let d := if off < 0x10000 then readFnBlock s fn off else if off < 0x80000 then readLowBlocks s off else readHighBlocks s off
  match d with
  | some v => BitVec.ofNat 64 v
  | none => regGetFn s (if off < 0x200 then 0 else fn) off

/-- A read of `size` bytes by a tenant at a window offset (R11, R12): a register's value, zero with an access-size error, or
zero where no register stands. -/
def setupRead (s : State) (tenant fn off size : Nat) : W64 × State :=
  match regRowExact fn off size with
  | some _ => (regRead s fn off, s)
  | none => (0, if regTouched fn off size then accessSizeError s tenant off size false else s)

/- Writes -/

/-- A ring register other than its CTRL (07 R209, R210): taken while ENABLE is 0, SQ_HEAD while IDLE also; else BAD_SETUP.
STATUS takes its W1C writes at any time (DESIGN CHOICE, log entry 28). -/
def ringRegSet (s : State) (fn off : Nat) (v : W64) : State :=
  if off < 0x1300 then
    let q := (off - 0x1100) / 0x20
    let r := (off - 0x1100) % 0x20
    if r = 0x14 then regWriteFn s fn off v
    else if sqOn s fn q || (r == 0xC && sqBusy s fn q) then raiseStatus s fn (Reg.sqStatus q) 4
    else regWriteFn s fn off v
  else
    let c := (off - 0x1300) / 0x20
    if (off - 0x1300) % 0x20 = 0x14 then regWriteFn s fn off v
    else if cqOn s fn c then raiseStatus s fn (Reg.cqStatus c) 2
    else regWriteFn s fn off v

/-- A write of an MSI-X table entry's vector control: unmasking a pending vector sends it (07 R201; log entry 8). -/
def msixCtrlSet (s : State) (fn i : Nat) (v : W64) : State :=
  let s1 := regWriteFn s fn (Reg.msixCtrl i) v
  if !bitAt v 0 && bitAt (regGetFn s fn Reg.msixPba) i then
    sendMsix (regSetFn s1 fn Reg.msixPba (regGetFn s fn Reg.msixPba &&& ~~~BitVec.ofNat 64 (2 ^ i))) fn i
  else s1

/-- The blocks below 0x1_0000, which both kinds of window have. A doorbell-record address of 2^53 or above is stored as written (DESIGN
CHOICE, log entry 17: 07 R181 does not say what a write of one does). -/
def writeFnBlock (s : State) (agent : Agent) (fn off : Nat) (v : W64) : State :=
  if off < 0x200 then
    if fn != 0 then s
    else if off = Reg.tbControl then (if pfAgent s agent then tbControlSet s v.toNat else s)
    else regWriteFn s 0 off v
  else if off = Reg.sealEpoch then (if bitAt v 31 then advanceStart s fn else s)
  else if off = Reg.sealForce then (if fn == 0 && bitAt v 31 then advanceStart s (v.toNat % 256) else s)
  else if off = Reg.dbSqAddr || off = Reg.dbCqAddr then (if fnActive s fn then s else regWriteFn s fn off v)
  else if 0x1100 ≤ off && off < 0x1500 then
    if (off - 0x1100) % 0x20 = 8 then
      if off < 0x1300 then sqCtrlSet s fn ((off - 0x1100) / 0x20) v.toNat else cqCtrlSet s fn ((off - 0x1300) / 0x20) v.toNat
    else ringRegSet s fn off v
  else if 0xF000 ≤ off && off < 0xF800 && off % 0x10 = 0xC then msixCtrlSet s fn ((off - 0xF000) / 0x10) v
  else regWriteFn s fn off v

/-- ACU_CONTROL (04 R114): COPY and CLEAR before SWITCH, CLEAR alone of the first two. -/
def acuControlSet (s : State) (v : W64) : State :=
  if acuHeldByChangeSet s then acuDiscard s
  else
    let busy := acuShadowBusy s
    let s1 :=
      if bitAt v 2 then (if busy then acuDiscard s else acuSetShadow s [])
      else if bitAt v 1 then (if busy then acuDiscard s else acuCopyBank s)
      else s
    if bitAt v 0 then acuRequestSwitch s1 else s1

/-- A field of a rule of the shadow bank (04 R112, R114). -/
def ruleRegSet (s : State) (off : Nat) (v : W64) : State :=
  let i := (off - Reg.ruleStart 0) / 0x20
  let r := sget ruleDflt (acuShadow s) i
  match regRowAt 0 off with
  | none => s
  | some row =>
    match (off - Reg.ruleStart 0) % 0x20 with
    | 0 => acuSetRule s i { r with first := regStored row r.first v }
    | 8 => acuSetRule s i { r with last := regStored row r.last v }
    | _ => acuSetRule s i { r with attr := (regStored row (r.attr.setWidth 64) v).setWidth 32 }

/-- The ACU block (04 R112, R113). -/
def writeAcuBlock (s : State) (off : Nat) (v : W64) : State :=
  if off = Reg.acuControl then acuControlSet s v
  else if off = Reg.acuSwitchAt || Reg.ruleStart 0 ≤ off then
    if acuShadowBusy s || acuHeldByChangeSet s then acuDiscard s
    else if off = Reg.acuSwitchAt then regWriteFn s 0 off v
    else ruleRegSet s off v
  else regWriteFn s 0 off v

/-- An engine's control register: the RW bits are stored; OFFLINE newly set, then RESET, act (08 R238 and its like). -/
def ctrlSet (s : State) (off offline : Nat) (v : W64) (offlineSet resetSet : State → State) : State :=
  let was := regBit s off offline
  let s1 := regWriteFn s 0 off v
  let s2 := if bitAt v offline && !was then offlineSet s1 else s1
  if bitAt v (offline + 1) then resetSet s2 else s2

/-- The blocks from 0x2_0000 to 0x8_FFFF. -/
def writeMidBlocks (s : State) (off : Nat) (v : W64) : State :=
  if off = Reg.intSend then intSendWrite s v.toNat
  else if Reg.tenState 0 ≤ off && off < Reg.tenState 129 then
    if (off - Reg.tenState 0) % 0x10 = 0 then
      if bitAt v 0 then tenantStopSet s ((off - Reg.tenState 0) / 0x10) else tenantResumeSet s ((off - Reg.tenState 0) / 0x10)
    else s
  else if off = Reg.strAttn then strAttnSet s v.toNat
  else if Reg.strGroupCtrl 0 ≤ off && off < Reg.strGroupCtrl 4 then
    let g := (off - Reg.strGroupCtrl 0) / 4
    ctrlSet s off 0 v (fun s => groupOfflineSet s g) (fun s => groupResetSet s g)
  else if off = Reg.vcuCtrl then ctrlSet s off 0 v vcuOfflineSet vcuResetSet
  else if Reg.geCtrl 0 ≤ off && off < Reg.geCtrl 32 then
    let q := (off - Reg.geCtrl 0) / 4
    ctrlSet s off 0 v (fun s => geOfflineSet s q) (fun s => geResetSet s q)
  else if off = Reg.embCtrl then ctrlSet s off 1 v embOfflineSet embResetSet
  else if Reg.dtaCtrl 0 ≤ off && off < Reg.dtaCtrl 32 then
    let q := (off - Reg.dtaCtrl 0) / 4
    ctrlSet s off 0 v (fun s => dtaOfflineSet s q) (fun s => dtaResetSet s q)
  else regWriteFn s 0 off v

/-- The blocks from 0x9_0000 up, but for SU_CTRL and FW_REQ. -/
def writeHighBlocks (s : State) (tmc : Bool) (off : Nat) (v : W64) : State :=
  if off = Reg.hbmTherm then hbmThermSet s v.toNat
  else if Reg.portStatus 0 ≤ off && off < Reg.portStatus 12 && (off - Reg.portStatus 0) % 0x40 = 4 then
    portCtrlSet s ((off - Reg.portStatus 0) / 0x40) v.toNat
  else if Reg.fabBar 0 ≤ off && off < Reg.fabBar 64 then fabBarSet s ((off - Reg.fabBar 0) / 4) v.toNat
  else if off = Reg.pwrPolicy then pwrPolicySet s v.toNat
  else if off = Reg.pwrLimit || off = Reg.rampUp || off = Reg.rampDown || off = Reg.fill then pwrShareSet s tmc off v.toNat
  else if off = Reg.pwrLock then pwrLockSet s tmc v.toNat
  else if off = Reg.tjTherm then tjThermSet s v.toNat
  else if off = Reg.wearCell then (if tmc then regSet s off (BitVec.ofNat 64 (v.toNat % 256)) else s)
  else if Reg.scValue 0 ≤ off && off < Reg.scValue 256 then scValueWrite s ((off - Reg.scValue 0) / 4) v.toNat
  else if off = Reg.errCtrl then (if bitAt v 0 then fenceDeviceSet s (v.toNat / 2 ^ 16 % 2 ^ 16) else s)
  else if off = Reg.errImport then (if tmc then errImportSet s v else s)
  else regWriteFn s 0 off v

/-- A write at full width of the register at `off` of function `fn`'s window. The headland and host-port platform blocks are
open to whoever reaches the window; the trap block and every other block from 0x1_0000 to the host driver of the PF and
software at ring 0 or 1 (04 R113, 06 R170, 08 R237 and its like); TEN_STATE to the host driver of the PF (20 R539). -/
def setupWriteBase (s : State) (agent : Agent) (fn off : Nat) (v : W64) : State :=
  if !reachesWindow s agent fn then s
  else if off < 0x10000 then writeFnBlock s agent fn off v
  else if !(platformAgent s agent || (0x20000 ≤ off && off < 0x21000) || (0x30000 ≤ off && off < 0x40000)) then s
  else if Reg.tenState 0 ≤ off && off < Reg.tenState 129 && !pfAgent s agent then s
  else if off < 0x20000 then writeAcuBlock s off v
  else if off < 0x90000 then writeMidBlocks s off v
  else writeHighBlocks s (agent == .tmc) off v

end Sys2Proof.Machine
end

