-- ==== Sys2Proof/Machine/StartUp.lean ====
section
/-! DEFINITION. Start-up and firmware (spec 19 R500 to R523; 21 R555 to R557): reset pins, the start-up path, boot attempts and
fallback, the settings store, firmware requests. -/

namespace Sys2Proof.Machine

/- Pins (21 R555 to R557) -/

/-- A reset is asserted from now; of several causes the lower code applies (21 R563). -/
def assertReset (s : State) (kind : Nat) : State :=
  if inReset s then { s with boot := { s.boot with kind := min s.boot.kind kind } }
  else holdReset { s with boot := { s.boot with kind := kind } }

/-- PERST_ASSERT: the host's PERST#, or the TMC's hold, asserts PERST_N (21 R562); while the rails stay good, the begin of a device
reset (R500). -/
def execPerstAssert (s : State) : Host.Outcome State Fault Refusal :=
  if s.boot.perst then .next s
  else
    let s1 := if s.boot.tmcHold then s else assertReset s 3
    .next { s1 with boot := { s1.boot with perst := true } }

/-- PERST_RELEASE (R500, R502): the host releases its PERST#. PERST_N follows unless the TMC holds it (21 R562); its release is ignored
while PWRGD is deasserted (21 R557); a failed rail holds the reset on (17 R457). -/
def execPerstRelease (s : State) : Host.Outcome State Fault Refusal :=
  if !s.boot.perst then .next s
  else if s.boot.tmcHold then .next { s with boot := { s.boot with perst := false } }
  else .next (tryRelease { s with boot := { s.boot with perst := false, held := !s.boot.pwrgd } })

/-- PWRGD_RISE (21 R555): with PWRGD asserted on a powered device the TMC's hold of PERST_N ends (21 R562). -/
def execPwrgdRise (s : State) : Host.Outcome State Fault Refusal :=
  .next (if !s.boot.powered then s
    else
      let s1 := { s with boot := { s.boot with pwrgd := true, tmcHold := false } }
      if s.boot.tmcHold then tryRelease s1 else s1)

/-- PWRGD_FALL (21 R557): the withdraw flits, then every block in reset; the release to come begins a power-on reset. -/
def execPwrgdFall (s : State) : Host.Outcome State Fault Refusal :=
  if !s.boot.pwrgd then .next s
  else
    let s1 := assertReset (if inReset s then s else withdrawAll s) 1
    .next { s1 with boot := { s1.boot with pwrgd := false, held := s.boot.held || !perstPin s } }

/-- TB_PLL_LOCKED (R502; 02 R38): the time-base PLL has locked to the reference. -/
def execTbPllLocked (s : State) : Host.Outcome State Fault Refusal :=
  .next (if !inReset s && s.time.refclk then tbBit s 0 true else s)

/- The boot record (R512, R513) -/

/-- A boot record: GEN, ACTIVE (B is `true`), FAILS of A and B, FALLBACK. -/
structure BootRec where
  gen : Nat
  active : Bool
  failsA : Nat
  failsB : Nat
  fallback : Bool
  deriving DecidableEq, Repr

/-- Copy `k` of the boot record, when its CRC passes. -/
def bootCopy (s : State) (k : Nat) : Option BootRec :=
  let b := flashBytes s (0x1000 * k) 32
  if numAt b 28 4 = (crc32 (b.take 28)).toNat then
    some ⟨numAt b 0 4, numAt b 4 1 != 0, min (numAt b 5 1) 3, min (numAt b 6 1) 3, natBit (numAt b 7 1) 0⟩
  else none
/-- The current copy's number: that with the higher GEN (R512). -/
def bootCurrent (s : State) : Option Nat :=
  match bootCopy s 0, bootCopy s 1 with
  | some a, some b => some (if b.gen > a.gen then 1 else 0)
  | some _, none => some 0
  | none, some _ => some 1
  | none, none => none
/-- The current boot record, or that of R512 when neither copy is valid. -/
def bootRec (s : State) : BootRec := ((bootCurrent s).bind (bootCopy s)).getD ⟨0, false, 0, 0, false⟩
/-- FAILS of a slot. -/
def BootRec.fails (r : BootRec) (b : Bool) : Nat := if b then r.failsB else r.failsA
/-- With FAILS of a slot. -/
def BootRec.withFails (r : BootRec) (b : Bool) (n : Nat) : BootRec := if b then { r with failsB := n } else { r with failsA := n }

/-- The running slot (SU_STATUS.SLOT). -/
def runningSlot (s : State) : Bool := regBit s Reg.suStatus 8
/-- SU_STATUS shows the record's FALLBACK and the running slot's FAILS (R520). -/
def showRecord (s : State) : State :=
  let r := bootRec s
  regSetFld (regSetFld s Reg.suStatus 9 1 (bit01 r.fallback)) Reg.suStatus 10 2 (r.fails (runningSlot s))
/-- Write a record into the copy that is not current, with GEN + 1 (R512). -/
def writeBootRec (s : State) (r : BootRec) : State :=
  let k := match bootCurrent s with | some 0 => 1 | _ => 0
  let b := toBytes 4 ((bootRec s).gen + 1) ++ toBytes 1 (bit01 r.active) ++ toBytes 1 r.failsA ++ toBytes 1 r.failsB ++
    toBytes 1 (bit01 r.fallback) ++ List.replicate 20 0
  showRecord (storeFlash s (0x1000 * k) (b ++ toBytes 4 (crc32 b).toNat))

/-- The halted state (R515; 20 R525): its record is tray-fatal. -/
def haltDevice (s : State) : State :=
  fatalEvent (setStep s 15) { cls := 6, source := 0x0E, unit := 0, code := 2, tenant := 0xFF, action := 7, addr := 0, payload := [] }

/-- A flash error's record (R523, 20 R525). -/
def flashRecord (s : State) : State :=
  recordEvent s { cls := 3, source := 0x0E, unit := 0, code := 3, tenant := 0xFF, action := 3, addr := 0, payload := [] }

/-- One turn of R513: the slot that is tried next, its attempt counted, or the halted state. -/
def chooseSlot (s : State) : State :=
  let r := bootRec s
  let go (b fallback : Bool) : State :=
    let s1 := regSetFld s Reg.suStatus 8 1 (bit01 b)
    let r1 := { (r.withFails b (r.fails b + 1)) with active := b, fallback := fallback }
    let s2 := writeBootRec s1 r1
    let s3 := { s2 with boot := { s2.boot with chosen := true } }
    if s3.hbm.trained then setStep s3 2 else s3
  if r.fails r.active < 3 then go r.active r.fallback
  else if r.fails (!r.active) < 3 then go (!r.active) true
  else haltDevice s

/-- Step 1 of R502 is in progress from the tick after the release. -/
def startTick (s : State) : State := if inReset s || suStep s != 0 then s else setStep s 1
/-- STARTUP_MEMORIES_ZEROED (R502, R506): on-chip memories, tags, caches and buffers are zero; training goes on in step 1. -/
def execStartupMemoriesZeroed (s : State) : Host.Outcome State Fault Refusal :=
  if inReset s || s.boot.zeroed then .next s
  else .next (setStep { s with boot := { s.boot with zeroed := true } } 1)

/-- BOOT_RECORD_READ (R512, R513). -/
def execBootRecordRead (s : State) : Host.Outcome State Fault Refusal :=
  .next (if inReset s || !s.boot.zeroed || s.boot.chosen || suStep s == 15 then s else chooseSlot s)

/-- STACK_TRAINING_DONE (R502, R521; 14 R380): every stack is trained but those that trip now or have tripped since power-on
reset; background zeroing begins. -/
def execStackTrainingDone (tripped : BitVec 8) (s : State) : Host.Outcome State Fault Refusal :=
  if inReset s || !s.boot.zeroed || s.hbm.trained then .next s
  else
    let s1 := (List.range 8).foldl (fun st n =>
      if sget markDflt s.hbm.tripped n then st else regSetFld st (Reg.hbmTemp n) 12 2 0) s
    let s2 := { s1 with hbm := { s1.hbm with trained := true } }
    let s3 := (List.range 8).foldl (fun st n => if bitAt tripped n then stackFails st n 8 3 else st) (zeroGone s2)
    .next (if s3.boot.chosen && suStep s3 == 1 then setStep s3 2 else s3)

/-- A slot's image has failed R510: it counts as three failed boots, and R513 turns again. -/
def slotFailed (s : State) : State :=
  chooseSlot (writeBootRec s ((bootRec s).withFails (runningSlot s) 3))

/-- Every stack that the image's range in HBM maps to is online (R521). -/
def imageReaches (s : State) (n : Nat) : Bool := (List.range (cdiv n 256)).all (fun i => !stackOffline s (stackOf s (256 * i)))

/-- The first block of local [a, a + n) that cannot be accessed now (14 R374, R382). -/
def firstWaiting (s : State) (a n : Nat) : Option Nat := (blocksOf a n).find? (fun b => !accessReady s b)

/-- The part of the image that is loaded into HBM is zeroed before any further attempt (R511). -/
def zeroImage (s : State) (n : Nat) : State :=
  { s with mem := sclear s.mem 0 n, tags := sclear s.tags 0 n, poison := sclear s.poison 0 n }

/-- IMAGE_LOADED (R502, R510, R511, R513), presented at the end of step 2 and of step 3. The chosen slot's image is loaded once the
checks of its header pass, and then verified; the fixed vectors are written and core 0 released, or the loaded range is zeroed and
the slot has failed. A flash read error fails check 4. The load waits for its HBM (R521; 14 R374, R382). -/
def execImageLoaded (readError : Bool) (s : State) : Host.Outcome State Fault Refusal :=
  if inReset s || !s.boot.chosen || !s.hbm.trained || !(suStep s == 2 || suStep s == 3) || fenced s then .next s
  else
    let b := runningSlot s
    let h := slotHeader s b
    let n := imgLen h - 1024
    let body := flashBytes s (slotBase b + 256) (imgLen h)
    let check := slotCheck s b
    if readError then .next (slotFailed (flashRecord (zeroImage s n)))
    else if suStep s = 2 then
      if (check != 0 && decide (check < 4)) || !imageReaches s n then .next (slotFailed s)
      else
        match firstWaiting s 0 n with
        | some a => .next (askSegment s a)
        | none => .next (setStep (storeLocal s 0 (body.drop 1024)) 3)
    else if check != 0 then .next (slotFailed (zeroImage s n))
    else
      let s1 := regSet (setStep (storeLocal s 0x6000000000 (body.take 1024)) 4) Reg.fwSchema (BitVec.ofNat 64 (imgSchema h))
      .next { s1 with coresReleased := true, boot := { s1.boot with released := s.tbc } }

/- What ring 0 alone writes (R519, R520) -/

/-- Ring 0 alone writes BOOT_OK, ALIAS_OFF and FW_REQ (R520). -/
def ringZero (s : State) (agent : Agent) : Bool := !inReset s && agent == .ring 0

/-- The staging area's capability: 32 MiB of HBM with ST, DMA and GLOB at ring 1 (R519). -/
def stageCap (s : State) : Cap :=
  let at_ := capSetCursor memoryRoot (BitVec.ofNat 64 (deviceNo s * 2 ^ 54 + Config.stageArea))
  capSetRing (capAndRights (capSetBounds at_ 0x2000000 false) (rST ||| rDMA ||| rGLOB)) 1 0
/-- The monitor publishes FW_STAGE_TOKEN (R519): a token of tenant 0. -/
def publishToken (s : State) : State :=
  let (tok, s1) := tokenMake s 0 (stageCap s) false
  (List.range 4).foldl (fun st k => regSet st (Reg.fwStageToken k) (BitVec.ofNat 64 (numAt tok (8 * k) 8))) s1

/-- SU_CTRL.ALIAS_OFF (R505): the monitor has rebuilt its capabilities for ID_PLACE.DEVICE, the token among them. -/
def aliasOffSet (s : State) : State :=
  let s1 := regClr s Reg.suStatus 0x40
  if aliasOn s && bootOkSet s then publishToken s1 else s1

/-- The first block of the staged image that cannot be read now: its header first, which gives the length. -/
def stageWaiting (s : State) : Option Nat :=
  match firstWaiting s Config.stageArea 256 with
  | some a => some a
  | none => firstWaiting s (Config.stageArea + 256) (imgLen (memBytes s Config.stageArea 256))

/-- The staged image of FW_REQ_LEN bytes under R510: RESULT 0, 4 when only check 3 fails, 2 for any other failing check. -/
def stageResult (s : State) : Nat :=
  let h := memBytes s Config.stageArea 256
  let n := imgLen h
  let body := memBytes s (Config.stageArea + 256) n
  let poisoned := poisonIn s Config.stageArea (256 + n)
  let first := if imgHeaderOk h && 256 + n == (regGet s Reg.fwReqLen).toNat then imgCheck s h body else 1
  if first = 3 && imgCheck { s with minSvn := 0 } h body = 0 && !poisoned then 4
  else if first != 0 || poisoned then 2
  else 0
/-- An INSTALL whose staged image passes erases header, body extent and store area of the slot not running (R519); until its header
is programmed, last of all, that slot fails check 1 (R521). -/
def installErase (s : State) : State :=
  let b := !runningSlot s
  let n := imgLen (memBytes s Config.stageArea 256)
  eraseFlash (eraseFlash s (slotBase b) (cdiv (256 + n) 65536 * 65536)) (storeBase b) 0x100000
/-- The INSTALL in progress begins its work in the flash, once its staged image can be read. -/
def installBegin (s : State) : State :=
  match s.boot.request with
  | some r =>
    if r.cmd = 1 && !r.erased && (stageWaiting s).isNone && stageResult s == 0 then
      let s1 := installErase s
      { s1 with boot := { s1.boot with request := some { r with erased := true } } }
    else s
  | none => s
/-- A write of FW_REQ: a further request is refused with RESULT 1 while BUSY; a CMD that is not listed does nothing (R10). -/
def fwReqSet (s : State) (cmd : Nat) (now : Bool) (key : Nat) : State :=
  if cmd = 0 || 5 < cmd then s
  else if s.boot.request.isSome then regSetFld s Reg.fwReqStatus 1 3 1
  else installBegin (regSet { s with boot := { s.boot with request := some ⟨cmd, now, key, false⟩ } } Reg.fwReqStatus
    (BitVec.ofNat 64 (1 + cmd * 16)))

/- The settings store (R516 to R518) -/

/-- Offset of half `k` of a slot's store area. -/
def halfBase (b : Bool) (k : Nat) : Nat := storeBase b + 0x80000 * k
/-- A half's header, when the half is valid. -/
def halfHeader (s : State) (b : Bool) (k : Nat) : Option (List Byte) :=
  let h := flashBytes s (halfBase b k) 64
  if numAt h 0 4 = 0x31535356 && numAt h 60 4 = (crc32 (h.take 60)).toNat && numAt h 6 1 = bit01 b then some h else none
/-- The current half of an area: its number and header; none when the area is empty. -/
def currentHalf (s : State) (b : Bool) : Option (Nat × List Byte) :=
  match halfHeader s b 0, halfHeader s b 1 with
  | some x, some y => some (if numAt y 8 4 > numAt x 8 4 then (1, y) else (0, x))
  | some x, none => some (0, x)
  | none, some y => some (1, y)
  | none, none => none

/-- The data of the last record 0x0001 of a half's list from byte `p`, and whether a CRC failed at the list's end. -/
def settingsRecord (half : List Byte) : Nat → Nat → List Byte → List Byte × Bool
  | 0, _, last => (last, false)
  | fuel + 1, p, last =>
    if half.length < p + 8 || numAt half p 2 = 0xFFFF then (last, false)
    else
      let n := numAt half (p + 2) 2
      let data := bytesAt half (p + 8) n
      if half.length < p + 8 + n then (last, false)
      else if numAt half (p + 4) 4 != (crc32 (bytesAt half p 4 ++ data)).toNat then (last, true)
      else settingsRecord half fuel (p + 8 + cdiv n 8 * 8) (if numAt half p 2 = 1 then data else last)

/-- The store that the monitor reads (R517): its area and half, and the schema; none in quarantine. -/
def settingsSource (s : State) : Option (Bool × Nat × Nat) :=
  let b := runningSlot s
  let h := slotHeader s b
  let fits (x : Nat × List Byte) : Bool := numAt x.2 4 2 == imgSchema h || (imgReads h).contains (numAt x.2 4 2)
  match currentHalf s b with
  | some x => if fits x then some (b, x.1, numAt x.2 4 2) else none
  | none =>
    match currentHalf s (!b) with
    | some x => if fits x then some (!b, x.1, numAt x.2 4 2) else none
    | none => none

/-- An entry of record 0x0001 is written as the host driver of the PF would (R516). BOOT_OK is set by then, and its bit changes
nothing. -/
def settingEntry (s : State) (off : Nat) (v : W64) : State :=
  if off = Reg.tbControl then tbControlSet s v.toNat
  else if off = Reg.suCtrl then
    let s1 := if bitAt v 2 then aliasOffSet s else s
    if bitAt v 0 && fld v 16 16 == 0x4410 then deviceReset s1 else s1
  else if off = Reg.fwReq then fwReqSet s (v.toNat % 16) (bitAt v 4) (v.toNat / 2 ^ 8 % 4)
  else match regRowAt 0 off with
    | some r => setupWriteBase s (.ring 0) 0 off (BitVec.ofNat 64 (v.toNat % 2 ^ r.bits))
    | none => s
/-- The entries are written in list order, until one resets the device. -/
def applyEntries (s : State) (data : List Byte) : State :=
  (List.range (data.length / 16)).foldl (fun st i =>
    if st.coresReleased then settingEntry st (numAt data (16 * i) 4) (BitVec.ofNat 64 (numAt data (16 * i + 8) 8)) else st) s

/-- The monitor's settings (R517): from a store, or settings quarantine. -/
def applySettings (s : State) : State :=
  match settingsSource s with
  | some (b, k, schema) =>
    let (data, bad) := settingsRecord (flashBytes s (halfBase b k) 0x80000) 0x10000 64 []
    let s1 := if bad then flashRecord s else s
    applyEntries (regSetFld s1 Reg.fwSchema 16 16 schema) data
  | none => regOr (regSetFld s Reg.fwSchema 16 16 0) Reg.suStatus 0x80

/-- SU_CTRL.BOOT_OK (R503, R504, R514): the running slot's FAILS becomes 0. The monitor has applied the settings and publishes
its token (log entry 25). -/
def bootOkSetNow (s : State) : State :=
  if !s.coresReleased || bootOkSet s then s
  else
    let s1 := writeBootRec s ((bootRec s).withFails (runningSlot s) 0)
    let s2 := applySettings (setStep (regOr s1 Reg.suStatus 0x20) 5)
    if s2.coresReleased then readyCheck (publishToken s2) else s2

/-- BOOT_OK. -/
def execBootOk (agent : Agent) (s : State) : Host.Outcome State Fault Refusal :=
  .next (if ringZero s agent then bootOkSetNow s else s)
/-- ALIAS_OFF (R505, R520). -/
def execAliasOff (agent : Agent) (s : State) : Host.Outcome State Fault Refusal :=
  .next (if ringZero s agent then aliasOffSet s else s)
/-- DEVICE_RESET (R500, R520): discarded unless CONFIRM is 0x4410. -/
def execDeviceReset (agent : Agent) (confirm : BitVec 16) (s : State) : Host.Outcome State Fault Refusal :=
  .next (if platformAgent s agent && confirm == 0x4410 then deviceReset s else s)

/-- BOOT_DEADLINE_EXPIRY (R514). -/
def execBootDeadlineExpiry (s : State) : Host.Outcome State Fault Refusal :=
  let allowed := regFld s Reg.suBootDeadline 0 20 * 1000000
  .next (if s.coresReleased && !bootOkSet s && !inReset s && decide (allowed ≤ elapsed s s.boot.released) then bootFailed s else s)

/- Firmware requests (R519) -/

/-- INSTALL. -/
def execInstall (agent : Agent) (s : State) : Host.Outcome State Fault Refusal :=
  .next (if ringZero s agent then fwReqSet s 1 false 0 else s)
/-- SELECT. -/
def execSelect (agent : Agent) (now : Bool) (s : State) : Host.Outcome State Fault Refusal :=
  .next (if ringZero s agent then fwReqSet s 2 now 0 else s)
/-- SETTINGS_COMMIT. -/
def execSettingsCommit (agent : Agent) (s : State) : Host.Outcome State Fault Refusal :=
  .next (if ringZero s agent then fwReqSet s 3 false 0 else s)
/-- RAISE_SVN. -/
def execRaiseSvn (agent : Agent) (s : State) : Host.Outcome State Fault Refusal :=
  .next (if ringZero s agent then fwReqSet s 4 false 0 else s)
/-- REVOKE_KEY. -/
def execRevokeKey (agent : Agent) (key : BitVec 2) (s : State) : Host.Outcome State Fault Refusal :=
  .next (if ringZero s agent then fwReqSet s 5 false key.toNat else s)

/-- INSTALL's work (R519, R523): RESULT and state. The body is programmed, then the header, and the slot read back: a read error
fails check 4 there. After a program or erase error the slot's header stays erased, and nothing reads the rest. -/
def doInstall (s : State) (erased writeError readError : Bool) : Nat × State :=
  if !erased && stageResult s != 0 then (stageResult s, s)
  else
    let s1 := if erased then s else installErase s
    let b := !runningSlot s
    let h := memBytes s Config.stageArea 256
    if writeError then (3, flashRecord s1)
    else
      let s2 := storeFlash (storeFlash s1 (slotBase b + 256) (memBytes s (Config.stageArea + 256) (imgLen h))) (slotBase b) h
      if readError then (2, flashRecord s2)
      else if slotCheck s2 b != 0 then (2, s2)
      else (0, writeBootRec s2 ((bootRec s2).withFails b 0))

/-- SELECT's work (R519, R523): refused while the slot fails R510, as a read error makes it. -/
def doSelect (s : State) (writeError readError : Bool) : Nat × State :=
  let b := !runningSlot s
  if readError then (1, flashRecord s)
  else if slotCheck s b != 0 then (1, s)
  else if writeError then (3, flashRecord s)
  else (0, writeBootRec s { ((bootRec s).withFails b 0) with active := b, fallback := false })

/-- Record 0x0001 with the present value of every register of a schema. -/
def settingsData (s : State) (schema : Nat) : List Byte :=
  (Config.schemaRegs schema).flatMap (fun r => toBytes 8 r.1 ++ toBytes 8 (regRead s 0 r.1).toNat)
/-- SETTINGS_COMMIT's work (R518): a commit that does not fit leaves the current half. -/
def doCommit (s : State) (flashError : Bool) : Nat × State :=
  let b := runningSlot s
  let schema := imgSchema (slotHeader s b)
  let data := settingsData s schema
  if 65535 < data.length || 0x80000 < 72 + data.length then (3, s)
  else
    let cur := currentHalf s b
    let k := match cur with | some (0, _) => 1 | _ => 0
    let gen := match cur with | some x => numAt x.2 8 4 + 1 | none => 1
    let s1 := eraseFlash s (halfBase b k) 0x80000
    if flashError then (3, flashRecord s1)
    else
      let h := toBytes 4 0x31535356 ++ toBytes 2 schema ++ toBytes 1 (bit01 b) ++ [0] ++ toBytes 4 gen ++ List.replicate 48 0
      let rh := toBytes 2 1 ++ toBytes 2 data.length
      let s2 := storeFlash s1 (halfBase b k)
        (h ++ toBytes 4 (crc32 h).toNat ++ rh ++ toBytes 4 (crc32 (rh ++ data)).toNat ++ data)
      (0, regClr (eraseFlash s2 (halfBase b (1 - k)) 0x80000) Reg.suStatus 0x80)

/-- RAISE_SVN's work. -/
def doRaise (s : State) : Nat × State :=
  (0, { s with minSvn := BitVec.ofNat 7 (max s.minSvn.toNat (imgSvn (slotHeader s (runningSlot s)))) })
/-- REVOKE_KEY's work. -/
def doRevoke (s : State) (key : Nat) : Nat × State :=
  if key = imgKey (slotHeader s (runningSlot s)) then (1, s) else (0, { s with revoked := s.revoked ||| BitVec.ofNat 4 (2 ^ key) })

/-- FW_REQUEST_DONE (R519, R523): the request in progress ends, an INSTALL once its staged image can be read; SELECT with NOW then resets
the device. The operands tell whether an erase or a program, or a read of a slot, has failed. -/
def execFwRequestDone (writeError readError : Bool) (s : State) : Host.Outcome State Fault Refusal :=
  match s.boot.request with
  | none => .next s
  | some r =>
    if fenced s || inReset s then .next s
    else if r.cmd = 1 && !r.erased && (stageWaiting s).isSome then .next (askSegment s ((stageWaiting s).getD 0))
    else
      let (result, s1) := match r.cmd with
        | 1 => doInstall s r.erased writeError readError
        | 2 => doSelect s writeError readError
        | 3 => doCommit s writeError
        | 4 => doRaise s
        | _ => doRevoke s r.key
      let s2 := regSet { s1 with boot := { s1.boot with request := none } } Reg.fwReqStatus (BitVec.ofNat 64 (result * 2 + r.cmd * 16))
      .next (if r.cmd = 2 && r.now && result = 0 then deviceReset s2 else s2)

/- The whole of a set-up write -/

/-- A write of SU_CTRL (R520): BOOT_OK and ALIAS_OFF from ring 0 only, DEVICE_RESET with its CONFIRM last. -/
def suCtrlSet (s : State) (agent : Agent) (v : W64) : State :=
  let s1 := if bitAt v 1 && ringZero s agent then bootOkSetNow s else s
  let s2 := if bitAt v 2 && ringZero s1 agent then aliasOffSet s1 else s1
  if bitAt v 0 && (fld v 16 16) == 0x4410 && !inReset s2 then deviceReset s2 else s2

/-- A write at full width of any register. -/
def setupWriteAt (s : State) (agent : Agent) (fn off : Nat) (v : W64) : State :=
  if fn = 0 && off = Reg.suCtrl then (if platformAgent s agent then suCtrlSet s agent v else s)
  else if fn = 0 && off = Reg.fwReq then
    if ringZero s agent then fwReqSet s (v.toNat % 16) (bitAt v 4) (v.toNat / 2 ^ 8 % 4) else s
  else setupWriteBase s agent fn off v

/-- A write of `size` bytes by a tenant at a window offset (R11, R12): the register's effect, an access-size error, or nothing
where no register stands. -/
def setupWrite (s : State) (agent : Agent) (tenant fn off size : Nat) (v : W64) : State :=
  match regRowExact fn off size with
  | some r => setupWriteAt s agent fn off (BitVec.ofNat 64 (v.toNat % 2 ^ r.bits))
  | none => if regTouched fn off size && reachesWindow s agent fn then accessSizeError s tenant off size true else s

/-- The tenant of a register access: that of the host driver's function; the TMC acts as the PF's driver; a core at ring 0 or 1
acts for tenant 0, and one at ring 2 or 3 for the tenant of the window that R179 lets it reach. -/
def agentTenant (agent : Agent) (fn : Nat) : Nat :=
  match agent with
  | .pf => 0
  | .tmc => 0
  | .vf n => n.toNat
  | .ring r => if r.toNat ≤ 1 then 0 else fn

/-- REGISTER_WRITE (00 R8 to R12). -/
def execRegisterWrite (agent : Agent) (fn : BitVec 8) (off : BitVec 20) (size : BitVec 5) (value : W64) (s : State) :
    Host.Outcome State Fault Refusal :=
  .next (if fn.toNat ≤ 128 then setupWrite s agent (agentTenant agent fn.toNat) fn.toNat off.toNat size.toNat value else s)

end Sys2Proof.Machine
end

