-- ==== Sys2Proof/Machine/HlMem.lean ====
section
/-! DEFINITION. Headland instructions that reach memory (spec 05 R126, R127, R136, R137; 03 R63 to R69, R75, R76; 15
R405 to R407): the shared access path, loads, stores, atomics, memory-side adds, host sealing, tag clearing, QPUT. -/

namespace Sys2Proof.Machine

/- The access path -/

/-- TDETAIL of a denied data access (06 R159). -/
def denyDetail (write : Bool) (rule : Nat) : Nat := (if write then 2 else 0) + 8 + rule * 16

/-- What the checks of an access come to. -/
inductive HlWay where
  /-- a cause: number, TDETAIL, and the state with any deny recorded -/
  | fault (num detail : Nat) (s : State)
  /-- it cannot be performed yet -/
  | wait (s : State)
  /-- at this local address, each block under its own cache and order class (04 R97, R103) -/
  | here (la : Nat) (classes : List (BitVec 2 × BitVec 2)) (s : State)
  /-- at this local address of another device -/
  | there (dev la : Nat)

/-- Rule-check the blocks of [la, la + n): the deciding rule of the first that is denied; the cache and order class of each
(04 R97). -/
def hlRules (s : State) (tenant : Nat) (kinds : BitVec 5) (sys write : Bool) (la n : Nat) :
    Option Nat × List (BitVec 2 × BitVec 2) × State :=
  (blocksOf la n).foldl (fun (r : Option Nat × List (BitVec 2 × BitVec 2) × State) b =>
    match r with
    | (some x, cls, st) => (some x, cls, st)
    | (none, cls, st) =>
      let (v, s1) := acuCheck st .headland tenant kinds sys write b
      (if v.ok then none else some v.rule, cls ++ [(v.cache, v.order)], s1)) (none, [], s)

/-- An access of a core through `auth` to [addr, addr + size): the checks of R63, with SYS for set-up registers (07 R179)
and with GLOB and DMA for another device (15 R405; 03 R56) in the rights step, then the rule check, then what it must wait for (04 R111;
14 R374). `remote`: the instruction may reach another device at all; CSEALH, CUNSEALH, CCLRTAGS and QPUT, which 15 R405 does not list
among the remote agents, raise cause 9 there, and cause 6 first where GLOB or DMA is absent (DESIGN CHOICE, log entry 30). -/
def hlReach (s : State) (c : HlCore) (auth : Cap) (mask : BitVec 12) (extra remote write : Bool)
    (kinds : BitVec 5) (addr size align : Nat) : HlWay :=
  let plat := platformCode c
  let mine := localFabric s plat addr
  let whole := mine && localFabric s plat (addr + size - 1)
  let far := !mine && !fabricDenied s plat addr
  let sys := capHas auth rSYS
  let rights := extra && (!(mine && regionOf (localPart addr) == .setup) || sys) && (mine || capHas auth (rGLOB ||| rDMA))
  match capCheck auth (excRing c) mask rights addr size align with
  | some num => .fault num (if write then 2 else 0) s
  | none =>
    if far && remote then .there (addr / 2 ^ 54) (localPart addr)
    else if !mine || (size != 0 && !whole) then
      .fault 9 (denyDetail write 0x1FF) (acuDeny s .headland (coreTenant c) kinds 0x1FF (localPart addr))
    else
      let la := localPart addr
      match hlRules s (coreTenant c) kinds sys write la size with
      | (some rule, _, s1) => .fault 9 (denyDetail write rule) s1
      | (none, classes, s1) =>
        match (blocksOf la size).find? (fun b => !accessReady s1 b) with
        | some b => .wait (askSegment s1 b)
        | none => .here la classes s1

/-- The bytes that a permitted load of core `n` finds at a local address, and the state after. -/
def hlLoadBytes (s : State) (tenant la n : Nat) : List Byte × State :=
  match regionOf la with
  | .host => (hostBytes s (la - hostBit) n, s)
  | .setup =>
    match setupAt la with
    | some (fn, off) =>
      let (v, s1) := setupRead s tenant fn off n
      (toBytes n v.toNat, s1)
    | none => (List.replicate n 0, s)
  | .vcu =>
    let o := la - 0x5000000000
    let recs := (List.range ((o % 256 + n + 255) / 256)).flatMap (fun i => bytesAt (vcuRecord s (o / 256 + i)) 0 256)
    (bytesAt recs (o % 256) n, s)
  | _ => (memBytes s la n, s)

/-- A permitted data store of core `n`: memory with its tags and poison, host memory, or a set-up register. -/
def hlStoreBytes (s : State) (n tenant : Nat) (ring : BitVec 2) (la : Nat) (bs : List Byte) : State :=
  match regionOf la with
  | .host => dropLines (putHost s (la - hostBit) bs) (some n) la bs.length
  | .setup =>
    match setupAt la with
    | some (fn, off) => setupWrite s (.ring ring) tenant fn off bs.length (BitVec.ofNat 64 (ofBytes bs))
    | none => s
  | .vcu => s
  | .vectors => s
  | _ => dropLines (storeUnits s la bs (unitsOf la bs.length)) (some n) la bs.length

/-- Data poison of an access: none outside the memories. -/
def hlPoison (s : State) (la n : Nat) : Bool := poisonIn s la n

/-- Meet the data cache for each block of an access, under the block's own class (04 R97, R103; 05 R132), counting misses. -/
def hlCache (s : State) (n tenant : Nat) (classes : List (BitVec 2 × BitVec 2)) (write : Bool) (la size : Nat) : Bool × State :=
  ((blocksOf la size).zip classes).foldl (fun (r : Bool × State) b =>
    let (miss, s1) := dcacheAccess r.2 n (alignDown b.1 64) tenant b.2.1 write
    (r.1 || miss, s1)) (false, s)

/-- Counter events of an access: a data-cache miss, a UC or DV access (R139). -/
def hlAccessEvents (miss : Bool) (classes : List (BitVec 2 × BitVec 2)) : List Nat :=
  (if miss then [6] else []) ++ (if classes.any (fun k => k.1 == 0 || k.2 == 2) then [11] else [])

/-- The core after an instruction that may have written set-up registers: EXC advances unless the write reset the
device. -/
def retireNow (s : State) (n : Nat) (f : HlCore → HlCore) (events : List Nat) : HlRes :=
  if s.coresReleased then .retire (setCore s n (advance (f (coreOf s n)))) events else .retire s events

/- Loads, stores, atomics, adds (R126, R127) -/

/-- Rights that a memory instruction needs (R126). -/
def memMask (c : HlCore) (m : MemOp) : BitVec 12 :=
  match m.kind with
  | .load _ _ => rLD
  | .cld => rLD
  | .fld => rLD
  | .store _ => rST
  | .fst => rST
  | .cst => if (gGet c m.rd).tag then rST ||| rSTC else rST
  | .atomic _ _ => rATOM
  | .msadd _ => rATOM

/-- Further conditions of the rights step for a CST of a tagged value: no value without GLOB through an authority with
GLOB (03 R69), and at this device only where tags are stored (03 R68). -/
def memExtra (s : State) (c : HlCore) (m : MemOp) (addr : Nat) : Bool :=
  match m.kind with
  | .cst =>
    let v := gGet c m.rd
    !v.tag || ((capHas v rGLOB || !capHas (gGet c m.rs1) rGLOB) &&
      (!localFabric s (platformCode c) addr || hasTags (regionOf (localPart addr))))
  | _ => true

/-- Kinds of the rule check (04 R101). -/
def memKinds (k : MemKind) : BitVec 5 :=
  match k with
  | .atomic _ _ => kAtomic
  | .msadd _ => kAtomic
  | k => if memWrites k then kWrite else kRead

/-- The bytes that a store writes, or the operands that an atomic or an add carries (15 R406). -/
def memPayload (c : HlCore) (m : MemOp) : List Byte :=
  match m.kind with
  | .store n => toBytes n (gGet c m.rd).bits.toNat
  | .fst => toBytes 8 (fGet c m.rd).toNat
  | .cst => toBytes 16 (gGet c m.rd).bits.toNat
  | .atomic f _ => toBytes 8 (gInt c m.rs2).toNat ++ (if f = 9 then toBytes 8 (gInt c m.rd).toNat else [])
  | .msadd fmt =>
    if fmt = 4 then toBytes 16 (gGet c m.rs2).bits.toNat ++ toBytes 8 (gInt c (m.rs2 + 1)).toNat
    else toBytes (memSize (.msadd fmt)) (gInt c m.rs2).toNat
  | _ => []

/-- Message TYPE, OP and LEN of a remote access (15 R406; log entry 19). -/
def memMessage (c : HlCore) (m : MemOp) : BitVec 6 × Nat × Nat :=
  let len := (memPayload c m).length
  match m.kind with
  | .load n _ => (1, 0, n)
  | .fld => (1, 0, 8)
  | .store _ => (2, 0, len)
  | .fst => (2, 0, len)
  | .cld => (3, 0, 16)
  | .cst => (4, 0, 16)
  | .atomic f wide => (5, f + (if wide then 16 else 0), len)
  | .msadd fmt => (6, fmt, len)

/-- A permitted access at this device. -/
def memHere (s : State) (n : Nat) (c : HlCore) (m : MemOp) (la : Nat) (classes : List (BitVec 2 × BitVec 2)) : HlRes :=
  let auth := gGet c m.rs1
  let addr := memAddr c m
  let size := memSize m.kind
  let poisoned (st : State) : HlRes := .trap st 32 addr 0 auth
  let denied : HlRes :=
    .trap (acuDeny s .headland (coreTenant c) (memKinds m.kind) 0x1FF la) 9 addr (denyDetail true 0x1FF) auth
  let finish (st : State) (bs : List Byte) (tag : Bool) : HlRes :=
    let (miss, s1) := hlCache st n (coreTenant c) classes (memWrites m.kind) la size
    retireNow s1 n (fun c' => memDeliver c' m bs tag) (memEvents m.kind ++ hlAccessEvents miss classes)
  match m.kind with
  | .atomic f wide =>
    if !hasTags (regionOf la) then denied
    else
      match atomicInPlace s la f wide (gInt c m.rs2).toNat (gInt c m.rd).toNat with
      | (none, _) => poisoned s
      | (some old, s1) => retireNow s1 n (fun c' => memDeliver c' m (toBytes 8 old) false)
          (memEvents m.kind ++ hlAccessEvents false classes)
  | .msadd fmt =>
    if !hasTags (regionOf la) then denied
    else
      match addInPlace s fmt la (ofBytes (memPayload c m)) with
      | (false, _) => poisoned s
      | (true, s1) => retireNow s1 n id (memEvents m.kind ++ hlAccessEvents false classes)
  | .cst =>
    let v := gGet c m.rd
    let s1 := if hasTags (regionOf la) then dropLines (storeCap s la v) (some n) la 16
      else hlStoreBytes s n (coreTenant c) (excRing c) la (memPayload c m)
    if hlPoison s1 la 16 then poisoned s else finish s1 [] false
  | .cld =>
    if hlPoison s la 16 then poisoned s
    else if hasTags (regionOf la) then finish s (memBytes s la 16) (loadCap s la).tag
    else
      let (bs, s1) := hlLoadBytes s (coreTenant c) la 16
      finish s1 bs false
  | k =>
    if memWrites k then
      let s1 := hlStoreBytes s n (coreTenant c) (excRing c) la (memPayload c m)
      if hlPoison s1 la size then poisoned s else finish s1 [] false
    else if hlPoison s la size then poisoned s
    else
      let (bs, s1) := hlLoadBytes s (coreTenant c) la size
      finish s1 bs false

/-- An access to another device: the request goes out and the core waits for its response (15 R407). -/
def memThere (s : State) (n : Nat) (c : HlCore) (m : MemOp) (dev la : Nat) : HlRes :=
  let (type, op, len) := memMessage c m
  match issueRequest s (.core n m) dev (coreTenant c) type la (m.kind == .cst && (gGet c m.rd).tag) op len (memPayload c m) with
  | .sent s1 => .wait (setCore s1 n { coreOf s1 n with remote := some (s1.nextRid - 1) })
  | .lost s1 => .trap (lossRecord s1 n m) 32 (memAddr c m) 0 (gGet c m.rs1)
  | .stalls => .wait s

/-- The operands that R122 and R127 do not define: reserved formats, an odd rs2 for EXA144 (DEDUCED, log entry 30). -/
def memIllegal (m : MemOp) : Bool :=
  match m.kind with
  | .msadd fmt => decide (4 < fmt) || (fmt == 4 && m.rs2 % 2 == 1)
  | _ => false

/-- The access is one that 05 R128 lists through 03 R87: under UC or DV, to host bus space, another device or set-up space. -/
def memListed (m : MemOp) (s : State) (c : HlCore) : Bool :=
  let addr := (memAddr c m).toNat
  let la := localPart addr
  if !localFabric s (platformCode c) addr then true
  else regionOf la == .host || regionOf la == .setup ||
    (hlRules s (coreTenant c) (memKinds m.kind) (capHas (gGet c m.rs1) rSYS) (memWrites m.kind) la (memSize m.kind)).2.1.any
      (fun k => k.1 == 0 || k.2 == 2)

/-- One memory instruction of core `n` (R126). -/
def hlMem (core : BitVec 4) (m : MemOp) (s : State) : Host.Outcome State Fault Refusal :=
  hlRunWith s core.toNat m.word (fun s c => retiresFirst m.word || memListed m s c) (fun s c =>
    if memIllegal m then .trap s 1 0 0 capNull
    else
      let auth := gGet c m.rs1
      let addr := memAddr c m
      let size := memSize m.kind
      match hlReach s c auth (memMask c m) (memExtra s c m addr.toNat) true (memWrites m.kind) (memKinds m.kind)
          addr.toNat size size with
      | .fault num detail s1 => .trap s1 num addr detail auth
      | .wait s1 => .wait s1
      | .there dev la => memThere s core.toNat c m dev la
      | .here la classes s1 => memHere s1 core.toNat c m la classes)

/-- A load or store of form I. -/
def hlMemI (core : BitVec 4) (k : MemKind) (rd rs1 : BitVec 5) (imm : BitVec 16) (word : W32) (s : State) :
    Host.Outcome State Fault Refusal :=
  hlMem core ⟨k, rd.toNat, rs1.toNat, 0, imm.toInt, word⟩ s
/-- An access of form A: no displacement. -/
def hlMemA (core : BitVec 4) (k : MemKind) (rd rs1 rs2 : BitVec 5) (word : W32) (s : State) :
    Host.Outcome State Fault Refusal :=
  hlMem core ⟨k, rd.toNat, rs1.toNat, rs2.toNat, 0, word⟩ s

/-- LDB (R126). -/
def execLdb (core : BitVec 4) (rd rs1 : BitVec 5) (imm : BitVec 16) (s : State) : Host.Outcome State Fault Refusal :=
  hlMemI core (.load 1 true) rd rs1 imm (encodeHl (.ldb core rd rs1 imm)) s
/-- LDBU (R126). -/
def execLdbu (core : BitVec 4) (rd rs1 : BitVec 5) (imm : BitVec 16) (s : State) : Host.Outcome State Fault Refusal :=
  hlMemI core (.load 1 false) rd rs1 imm (encodeHl (.ldbu core rd rs1 imm)) s
/-- LDH (R126). -/
def execLdh (core : BitVec 4) (rd rs1 : BitVec 5) (imm : BitVec 16) (s : State) : Host.Outcome State Fault Refusal :=
  hlMemI core (.load 2 true) rd rs1 imm (encodeHl (.ldh core rd rs1 imm)) s
/-- LDHU (R126). -/
def execLdhu (core : BitVec 4) (rd rs1 : BitVec 5) (imm : BitVec 16) (s : State) : Host.Outcome State Fault Refusal :=
  hlMemI core (.load 2 false) rd rs1 imm (encodeHl (.ldhu core rd rs1 imm)) s
/-- LDW (R126). -/
def execLdw (core : BitVec 4) (rd rs1 : BitVec 5) (imm : BitVec 16) (s : State) : Host.Outcome State Fault Refusal :=
  hlMemI core (.load 4 true) rd rs1 imm (encodeHl (.ldw core rd rs1 imm)) s
/-- LDWU (R126). -/
def execLdwu (core : BitVec 4) (rd rs1 : BitVec 5) (imm : BitVec 16) (s : State) : Host.Outcome State Fault Refusal :=
  hlMemI core (.load 4 false) rd rs1 imm (encodeHl (.ldwu core rd rs1 imm)) s
/-- LDD (R126). -/
def execLdd (core : BitVec 4) (rd rs1 : BitVec 5) (imm : BitVec 16) (s : State) : Host.Outcome State Fault Refusal :=
  hlMemI core (.load 8 false) rd rs1 imm (encodeHl (.ldd core rd rs1 imm)) s
/-- LDQ (R126). -/
def execLdq (core : BitVec 4) (rd rs1 : BitVec 5) (imm : BitVec 16) (s : State) : Host.Outcome State Fault Refusal :=
  hlMemI core (.load 16 false) rd rs1 imm (encodeHl (.ldq core rd rs1 imm)) s
/-- STB (R126). -/
def execStb (core : BitVec 4) (rd rs1 : BitVec 5) (imm : BitVec 16) (s : State) : Host.Outcome State Fault Refusal :=
  hlMemI core (.store 1) rd rs1 imm (encodeHl (.stb core rd rs1 imm)) s
/-- STH (R126). -/
def execSth (core : BitVec 4) (rd rs1 : BitVec 5) (imm : BitVec 16) (s : State) : Host.Outcome State Fault Refusal :=
  hlMemI core (.store 2) rd rs1 imm (encodeHl (.sth core rd rs1 imm)) s
/-- STW (R126). -/
def execStw (core : BitVec 4) (rd rs1 : BitVec 5) (imm : BitVec 16) (s : State) : Host.Outcome State Fault Refusal :=
  hlMemI core (.store 4) rd rs1 imm (encodeHl (.stw core rd rs1 imm)) s
/-- STD (R126). -/
def execStd (core : BitVec 4) (rd rs1 : BitVec 5) (imm : BitVec 16) (s : State) : Host.Outcome State Fault Refusal :=
  hlMemI core (.store 8) rd rs1 imm (encodeHl (.std core rd rs1 imm)) s
/-- STQ (R126). -/
def execStq (core : BitVec 4) (rd rs1 : BitVec 5) (imm : BitVec 16) (s : State) : Host.Outcome State Fault Refusal :=
  hlMemI core (.store 16) rd rs1 imm (encodeHl (.stq core rd rs1 imm)) s
/-- CLD (R126). -/
def execCld (core : BitVec 4) (rd rs1 : BitVec 5) (imm : BitVec 16) (s : State) : Host.Outcome State Fault Refusal :=
  hlMemI core .cld rd rs1 imm (encodeHl (.cld core rd rs1 imm)) s
/-- CST (R126). -/
def execCst (core : BitVec 4) (rd rs1 : BitVec 5) (imm : BitVec 16) (s : State) : Host.Outcome State Fault Refusal :=
  hlMemI core .cst rd rs1 imm (encodeHl (.cst core rd rs1 imm)) s
/-- FLD (R126). -/
def execFld (core : BitVec 4) (rd rs1 : BitVec 5) (imm : BitVec 16) (s : State) : Host.Outcome State Fault Refusal :=
  hlMemI core .fld rd rs1 imm (encodeHl (.fld core rd rs1 imm)) s
/-- FST (R126). -/
def execFst (core : BitVec 4) (rd rs1 : BitVec 5) (imm : BitVec 16) (s : State) : Host.Outcome State Fault Refusal :=
  hlMemI core .fst rd rs1 imm (encodeHl (.fst core rd rs1 imm)) s

/-- atomicSwap (R122, R127). -/
def execAtomicSwap (core : BitVec 4) (rd rs1 rs2 : BitVec 5) (wide : Bool) (s : State) : Host.Outcome State Fault Refusal :=
  hlMemA core (.atomic 0 wide) rd rs1 rs2 (encodeHl (.atomicSwap core rd rs1 rs2 wide)) s
/-- atomicAdd (R122, R127). -/
def execAtomicAdd (core : BitVec 4) (rd rs1 rs2 : BitVec 5) (wide : Bool) (s : State) : Host.Outcome State Fault Refusal :=
  hlMemA core (.atomic 1 wide) rd rs1 rs2 (encodeHl (.atomicAdd core rd rs1 rs2 wide)) s
/-- atomicAnd (R122, R127). -/
def execAtomicAnd (core : BitVec 4) (rd rs1 rs2 : BitVec 5) (wide : Bool) (s : State) : Host.Outcome State Fault Refusal :=
  hlMemA core (.atomic 2 wide) rd rs1 rs2 (encodeHl (.atomicAnd core rd rs1 rs2 wide)) s
/-- atomicOr (R122, R127). -/
def execAtomicOr (core : BitVec 4) (rd rs1 rs2 : BitVec 5) (wide : Bool) (s : State) : Host.Outcome State Fault Refusal :=
  hlMemA core (.atomic 3 wide) rd rs1 rs2 (encodeHl (.atomicOr core rd rs1 rs2 wide)) s
/-- atomicXor (R122, R127). -/
def execAtomicXor (core : BitVec 4) (rd rs1 rs2 : BitVec 5) (wide : Bool) (s : State) : Host.Outcome State Fault Refusal :=
  hlMemA core (.atomic 4 wide) rd rs1 rs2 (encodeHl (.atomicXor core rd rs1 rs2 wide)) s
/-- atomicMin (R122, R127). -/
def execAtomicMin (core : BitVec 4) (rd rs1 rs2 : BitVec 5) (wide : Bool) (s : State) : Host.Outcome State Fault Refusal :=
  hlMemA core (.atomic 5 wide) rd rs1 rs2 (encodeHl (.atomicMin core rd rs1 rs2 wide)) s
/-- atomicMax (R122, R127). -/
def execAtomicMax (core : BitVec 4) (rd rs1 rs2 : BitVec 5) (wide : Bool) (s : State) : Host.Outcome State Fault Refusal :=
  hlMemA core (.atomic 6 wide) rd rs1 rs2 (encodeHl (.atomicMax core rd rs1 rs2 wide)) s
/-- atomicMinu (R122, R127). -/
def execAtomicMinu (core : BitVec 4) (rd rs1 rs2 : BitVec 5) (wide : Bool) (s : State) : Host.Outcome State Fault Refusal :=
  hlMemA core (.atomic 7 wide) rd rs1 rs2 (encodeHl (.atomicMinu core rd rs1 rs2 wide)) s
/-- atomicMaxu (R122, R127). -/
def execAtomicMaxu (core : BitVec 4) (rd rs1 rs2 : BitVec 5) (wide : Bool) (s : State) : Host.Outcome State Fault Refusal :=
  hlMemA core (.atomic 8 wide) rd rs1 rs2 (encodeHl (.atomicMaxu core rd rs1 rs2 wide)) s
/-- cas (R122, R127). -/
def execCas (core : BitVec 4) (rd rs1 rs2 : BitVec 5) (wide : Bool) (s : State) : Host.Outcome State Fault Refusal :=
  hlMemA core (.atomic 9 wide) rd rs1 rs2 (encodeHl (.cas core rd rs1 rs2 wide)) s
/-- MSADD (R127; 14 R375 to R377). -/
def execMsadd (core : BitVec 4) (rd rs1 rs2 : BitVec 5) (fmt : BitVec 3) (s : State) : Host.Outcome State Fault Refusal :=
  hlMemA core (.msadd fmt.toNat) rd rs1 rs2 (encodeHl (.msadd core rd rs1 rs2 fmt)) s

/- Host sealing and tag clearing (03 R66, R75, R76) -/

/-- CSEALH ca, cs, rs2, with ca in rs1 and cs in rd (R75): a token for cs at ca.CURSOR. The rights fault for cs or for the
tenant operand comes after the capability checks of ca and before its rule check: R75 gives no order (DESIGN CHOICE, log
entry 39). -/
def execCsealh (core : BitVec 4) (rd rs1 rs2 : BitVec 5) (s : State) : Host.Outcome State Fault Refusal :=
  hlRun s core.toNat (encodeHl (.csealh core rd rs1 rs2)) (fun s c =>
    let n := core.toNat
    let ca := gGet c rs1.toNat
    let cs := gGet c rd.toNat
    let opt := gInt c rs2.toNat
    let addr := capCursor ca
    let asked := (Sys2Proof.Machine.fld opt 8 8).toNat
    let low := platformCode c
    let tenant := if low then asked else ctxTenant c
    let rightsOk := cs.tag && capHas cs rGLOB && capOtype cs == 0 && decide ((excRing c).toNat ≤ 2) && (!low || decide (asked ≤ 128))
    match capCheck ca (excRing c) rST (!(localFabric s low addr.toNat && regionOf (localPart addr.toNat) == .setup) || capHas ca rSYS)
        addr.toNat 32 32 with
    | some num => .trap s num addr 2 ca
    | none =>
      if !rightsOk then .trap s 6 addr 2 cs
      else
        match hlReach s c ca rST true false true kWrite addr.toNat 32 32 with
        | .fault num detail s1 => .trap s1 num addr detail ca
        | .wait s1 => .wait s1
        | .there _ _ => .wait s
        | .here la classes s1 =>
          let (tok, s2) := tokenMake s1 tenant cs (bitAt opt 0)
          let s3 := hlStoreBytes s2 n (coreTenant c) (excRing c) la tok
          if hlPoison s3 la 32 then .trap s1 32 addr 0 ca
          else
            let (miss, s4) := hlCache s3 n (coreTenant c) classes true la 32
            retireNow s4 n id (3 :: hlAccessEvents miss classes))

/-- CUNSEALH cd, ca (R76): the token at ca.CURSOR is verified; BODY, tagged only when every check passes. R126 states no
alignment for its load and it needs none (DESIGN CHOICE, log entry 39). -/
def execCunsealh (core : BitVec 4) (rd rs1 rs2 : BitVec 5) (s : State) : Host.Outcome State Fault Refusal :=
  hlRun s core.toNat (encodeHl (.cunsealh core rd rs1 rs2)) (fun s c =>
    let n := core.toNat
    let ca := gGet c rs1.toNat
    let addr := capCursor ca
    match hlReach s c ca rLD true false false kRead addr.toNat 32 1 with
    | .fault num detail s1 => .trap s1 num addr detail ca
    | .wait s1 => .wait s1
    | .there _ _ => .wait s
    | .here la classes s1 =>
      if hlPoison s1 la 32 then .trap s1 32 addr 0 ca
      else
        let (tok, s2) := hlLoadBytes s1 (coreTenant c) la 32
        let t := numAt tok 16 1
        let reason := tokenReason s2 tok (if platformCode c then decide (t ≤ 128) else t == ctxTenant c) true
        let s3 := if reason = 0 then s2 else tokenRejected s2 (coreTenant c) reason tok
        let (miss, s4) := hlCache s3 n (coreTenant c) classes false la 32
        retireNow s4 n (fun c' => gSet c' rd.toNat ⟨reason == 0, (tokenBody tok).bits⟩)
          ((if reason = 0 then [2] else [2, 8]) ++ hlAccessEvents miss classes))

/-- CCLRTAGS ca, rs2 (R66; 14 R371): clears the tags of every granule of [ca.CURSOR, + rs2); data and poison stay. -/
def execCclrtags (core : BitVec 4) (rd rs1 rs2 : BitVec 5) (s : State) : Host.Outcome State Fault Refusal :=
  hlRun s core.toNat (encodeHl (.cclrtags core rd rs1 rs2)) (fun s c =>
    let n := core.toNat
    let ca := gGet c rs1.toNat
    let addr := capCursor ca
    let size := (gInt c rs2.toNat).toNat
    match hlReach s c ca rST true false true kWrite addr.toNat size 1 with
    | .fault num detail s1 => .trap s1 num addr detail ca
    | .wait s1 => .wait s1
    | .there _ _ => .wait s
    | .here la classes s1 =>
      let s2 := if size = 0 then s1 else dropLines { s1 with tags := clearTags s1.tags la size } (some n) la size
      retireNow s2 n id (3 :: hlAccessEvents false classes))

/- QPUT (R136, R137) -/

/-- The offsets of the tagged granules of a descriptor at a local address. -/
def descTags (s : State) (la n : Nat) : List Nat :=
  if hasTags (regionOf la) then ((List.range (n / 16)).map (fun i => 16 * i)).filter (fun o => tagAt s (la + o)) else []

/-- The tenant of an entry (R137). -/
def qputTenant (c : HlCore) : Nat := if platformCode c then actTenant c else ctxTenant c

/-- Steps 3 and 4 of R137: the status, and with status 0 the entry in its queue. -/
def qputEnter (s : State) (n queue tenant : Nat) (desc : List Byte) (tags : List Nat) (cc : Cap) : Nat × State :=
  let st := queueStatus s queue tenant desc
  if st != 0 then (st, s)
  else
    let seq := sget zDflt32 s.queueSeq queue
    let o := newOp s (.core n seq cc) tenant desc (slotsOf desc tags)
    (0, runAtIngest (addOp { s with queueSeq := sset zDflt32 s.queueSeq queue (seq + 1) }
      (accept s { o with queue := BitVec.ofNat 8 queue })) o.id)

/-- QPUT rd, ca, cc, with ca in rs1 and cc in rs2 (R137). The load of the descriptor through ca must be aligned to 16 bytes,
as the loads of its capabilities are: R126 and R137 state no alignment for it (DESIGN CHOICE, log entry 39). -/
def execQput (core : BitVec 4) (rd rs1 rs2 : BitVec 5) (queue : BitVec 8) (s : State) : Host.Outcome State Fault Refusal :=
  hlRun s core.toNat (encodeHl (.qput core rd rs1 rs2 queue)) (fun s c =>
    let n := core.toNat
    let ca := gGet c rs1.toNat
    let cc := gGet c rs2.toNat
    let addr := capCursor ca
    let load (st : State) (size : Nat) : HlWay := hlReach st c ca (rLD ||| rLDC) true false false kRead addr.toNat size 16
    match load s 128 with
    | .fault num detail s1 => .trap s1 num addr detail ca
    | .wait s1 => .wait s1
    | .there _ _ => .wait s
    | .here la0 _ s1 =>
      if hlPoison s1 la0 128 then .trap s1 32 addr 0 ca
      else
        let size := 128 * (hdrExt (hlLoadBytes s1 (coreTenant c) la0 128).1 + 1)
        match load s1 size with
        | .fault num detail s2 => .trap s2 num addr detail ca
        | .wait s2 => .wait s2
        | .there _ _ => .wait s
        | .here la classes s2 =>
          let slot : HlWay := if cc = capNull then .here 0 [] s2
            else hlReach s2 c cc (rST ||| rDMA) true false true kWrite (capCursor cc).toNat 32 32
          match slot with
          | .fault num detail s3 => .trap s3 num (capCursor cc) detail cc
          | .wait s3 => .wait s3
          | .there _ _ => .wait s
          | .here _ _ s3 =>
            if hlPoison s3 la size then .trap s3 32 addr 0 ca
            else
              let (desc, s4) := hlLoadBytes s3 (coreTenant c) la size
              let (st, s5) := qputEnter s4 n queue.toNat (qputTenant c) desc (descTags s4 la size) cc
              let (miss, s6) := hlCache s5 n (coreTenant c) classes false la size
              retireNow s6 n (fun c' => gSetInt c' rd.toNat (BitVec.ofNat 64 st))
                ((if st = 0 then 9 else 10) :: hlAccessEvents miss classes))

end Sys2Proof.Machine
end

