-- ==== Sys2Proof/Machine/Mgmt.lean ====
section
/-! DEFINITION. The management bus and the boundary-scan port of a device (spec 21 R550 to R554; 18 R467). -/

namespace Sys2Proof.Machine

/- The management bus -/

/-- Vesol acknowledges its address: not in reset, nor until 2,000,000 TBC units after the release (R550). -/
def busAcks (s : State) : Bool :=
  !inReset s && decide (2000000 ≤ elapsed s s.boot.began)

/-- A transaction: NACKed without effect when the address is not acknowledged or its PEC fails (R550). -/
def onBus (s : State) (pecOk : Bool) (f : State → State) : Host.Outcome State Fault Refusal :=
  .next (if busAcks s && pecOk then f s else s)

/-- REG_WRITE32. -/
def execRegWrite32 (off value : W32) (pecOk : Bool) (s : State) : Host.Outcome State Fault Refusal :=
  onBus s pecOk (fun s => setupWrite s .tmc 0 0 off.toNat 4 (value.setWidth 64))
/-- REG_WRITE64. -/
def execRegWrite64 (off : W32) (value : W64) (pecOk : Bool) (s : State) : Host.Outcome State Fault Refusal :=
  onBus s pecOk (fun s => setupWrite s .tmc 0 0 off.toNat 8 value)
/-- REG_ADDR: a width other than 4 or 8 leaves the name as it was (log entry 31). -/
def execRegAddr (off : W32) (width : Byte) (pecOk : Bool) (s : State) : Host.Outcome State Fault Refusal :=
  onBus s pecOk (fun s => if width = 4 || width = 8 then { s with regAddr := (off.toNat, width.toNat) } else s)
/-- REG_READ: the register that REG_ADDR names. -/
def execRegRead (pecOk : Bool) (s : State) : Host.Outcome State Fault Refusal :=
  onBus s pecOk (fun s =>
    let (v, s1) := setupRead s 0 0 s.regAddr.1 s.regAddr.2
    emit s1 (.answer (toBytes s.regAddr.2 v.toNat)))

/- The trays and the rack manager -/

/-- Tray `t`; one from which nothing has been heard is absent (log entry 5). -/
def trayOf (s : State) (t : Nat) : Tray := sget (fun _ => trayReset) s.system.trays t
/-- Replace tray `t`. -/
def setTray (s : State) (t : Nat) (x : Tray) : State :=
  { s with system := { s.system with trays := sset (fun _ => trayReset) s.system.trays t x } }
/-- The rack manager. -/
def rackOf (s : State) : RackMgr := s.system.rack
/-- Replace the rack manager. -/
def setRack (s : State) (r : RackMgr) : State := { s with system := { s.system with rack := r } }
/-- The slot holds a tray. -/
def trayKnown (s : State) (t : Nat) : Bool := decide (t < 32) && (trayOf s t).state != 0
/-- The TMC of a known tray runs. -/
def tmcRuns (s : State) (t : Nat) : Bool := trayKnown s t && (trayOf s t).up
/-- Device number of a position of a tray in this rack. -/
def slotDevice (s : State) (t p : Nat) : Nat := placeNumber ((rackOf s).config.toNat % 8) t p
/-- The modelled device stands in this tray and is powered there. -/
def homePowered (s : State) (t : Nat) : Bool := t == s.system.homeTray && bitAt (trayOf s t).devOn s.system.homePos

/-- Set points of VPHY, VHBM and VAUX, mV (18 R466; 17 R445). -/
def railSetPoints : List Nat := [850, 1100, 1800]
/-- The tray of the powered modelled device, known by now, runs on main power with that device on (log entry 5). -/
def homeTrayRuns (s : State) (t : Nat) : State :=
  setTray s t { trayOf s t with
    up := true, state := 3, slotOn := true, onCell := false, acked := true, setPoints := railSetPoints
    devOn := (trayOf s t).devOn ||| BitVec.ofNat 4 (2 ^ s.system.homePos) }

/-- SHAPE of a number of racks (15 R417). -/
def shapeCode (racks : Nat) : Nat := if racks = 8 then 3 else if racks = 4 then 2 else if racks = 2 then 1 else 0

/-- Once the device holds its place and the rows of the plan, FAB_STATUS.PLAN is set (18 R467), the active routing table is
filled (15 R400), and the ports begin to train or stay unused (15 R397). -/
def planSettle (s : State) : State :=
  match s.plan, myNumber s with
  | some p, some me =>
    if planLoaded s then s
    else
      let s1 := regSetFld s Reg.fabStatus 24 3 (1 + 2 * shapeCode p.racks)
      let s2 := (List.range 1024).foldl (fun st d => regSet st (Reg.route d) (BitVec.ofNat 64 (planRoute p.racks me d))) s1
      placeSettle (planPorts s2 p me)
  | _, _ => s

/-- The rows of a received plan are those of the committed one that concern the device (18 R467); before the device knows its place, those
that concern some device of the rack. -/
def planFits (s : State) (p : Plan) : Bool :=
  let y := s.system
  let rack := y.rack.config.toNat % 8
  match y.rack.plan with
  | none => false
  | some (_, all) =>
    if y.homeKnown then planDelivers all p (placeNumber rack y.homeTray y.homePos)
    else (List.range 128).any (fun d => planDelivers all p (128 * rack + d))

/-- The first place that the TMC delivers fixes which tray and position the modelled device has. A tray that has been heard by then runs on
main power, since it powers this device (log entry 5); a plan held that is not this place's is dropped. -/
def placeHome (s : State) (pos tray : Nat) : State :=
  let s1 := { s with system := { s.system with homeKnown := true, homePos := pos, homeTray := tray } }
  let s2 := if trayKnown s1 tray && !homePowered s1 tray then homeTrayRuns s1 tray else s1
  { s2 with plan := s2.plan.filter (planFits s2) }

/-- PLACE (18 R467): what the TMC delivers, which is the device's place in its tray and RM_CONFIG.RACK. Discarded once PLAN is set
(R551). A place outside the fields of ID_PLACE is discarded (log entry 31). -/
def execPlace (trayPos tray rack : Byte) (pecOk : Bool) (s : State) : Host.Outcome State Fault Refusal :=
  onBus s pecOk (fun s =>
    let y := s.system
    if planLoaded s || decide (4 ≤ trayPos.toNat) || decide (32 ≤ tray.toNat) || decide (8 ≤ rack.toNat) ||
        rack.toNat != y.rack.config.toNat % 8 ||
        (y.homeKnown && (trayPos.toNat != y.homePos || tray.toNat != y.homeTray)) then s
    else planSettle (placeHome { s with place := some (trayPos.toNat, tray.toNat, rack.toNat) } trayPos.toNat tray.toNat))

/-- PLAN: the next 1 to 255 bytes of plan text (R550, R551). -/
def execPlan (text : List Byte) (pecOk : Bool) (s : State) : Host.Outcome State Fault Refusal :=
  onBus s pecOk (fun s =>
    if planLoaded s || text == [] || decide (255 < text.length) then s else { s with planText := s.planText ++ text })

/-- PLAN_END (R550, R551): the text received is checked; the next text starts anew. -/
def execPlanEnd (value : Byte) (pecOk : Bool) (s : State) : Host.Outcome State Fault Refusal :=
  onBus s pecOk (fun s =>
    if value != 0 || planLoaded s then s
    else
      let s1 := { s with planText := [] }
      match planParse false s.planText with
      | .inl p => if planFits s p then planSettle { s1 with plan := some p } else s1
      | .inr _ => s1)

/-- RECORD: the oldest record held for the TMC, which the read removes; a byte 0 when none is held (R550, R552).
The TMC keeps it (20 R537). -/
def execRecord (pecOk : Bool) (s : State) : Host.Outcome State Fault Refusal :=
  onBus s pecOk (fun s =>
    match s.tmcHeld with
    | [] => emit s (.answer [0])
    | r :: rest =>
      emit { s with tmcHeld := rest, system := keepRecords s.system [r] } (.answer r))

/-- STATUS (R550). -/
def execStatus (pecOk : Bool) (s : State) : Host.Outcome State Fault Refusal :=
  onBus s pecOk (fun s =>
    emit s (.answer (toBytes 1 (bit01 (regBit s Reg.suStatus 4) + 2 * bit01 (fenced s) + 4 * bit01 (planLoaded s) +
      8 * bit01 (!s.tmcHeld.isEmpty) + suStep s * 16))))

/- Pins (R547, R552, R558, R561) -/

/-- The level of an open-drain output and whether it is driven: low when asserted. -/
def openDrain (asserted : Bool) : Bool × Bool := (!asserted, asserted)
/-- The pins are in the "In reset" column of R558: in a reset, and after it until the start-up controller has completed step 1 (R564). -/
def pinsInReset (s : State) : Bool := inReset s || !s.boot.zeroed
/-- MALERT_N is asserted: a record is held, and the pins are past the reset (R552, R558, R564). -/
def alertPin (s : State) : Bool := !pinsInReset s && !s.tmcHeld.isEmpty
/-- VCORE code on VID[6:0]; in reset and after, code 20 until the power set-up has moved it (R547, R564). -/
def vidCode (s : State) : Nat := s.power.vcore

/-- Level and driver of a flash pin or a bus pin, by its data cell (R558): in reset FL_CS_N is high, FL_SCK low and every other one
released; while fenced or halted FL_CS_N is high; else as `pins` reports it. -/
def idlePin (s : State) (pins : BitVec 48) (i : Nat) : Bool × Bool :=
  let stopped := fenced s || suStep s == 15
  if pinsInReset s then (if i = 28 then (true, true) else if i = 26 then (false, true) else (bitAt pins i, false))
  else if stopped && i == 28 then (true, true)
  else (bitAt pins i, bitAt pins (i + 1))

/-- What the boundary register captures: levels and enables of the pins whose state the model holds, and of the others as
`pins` reports them (R553, R558). While VAUX is down no pin is driven. -/
def captured (s : State) (pins : BitVec 48) : BitVec 48 :=
  let put (b : BitVec 48) (i : Nat) (p : Bool × Bool) : BitVec 48 := setBit (setBit b i p.1) (i + 1) (p.2 && s.boot.powered)
  let b1 := setBit (setBit pins 0 (!perstPin s)) 1 s.boot.pwrgd
  let b2 := (List.range 7).foldl (fun b i => put b (2 + 2 * i) (natBit (vidCode s) i, true)) b1
  let b3 := [16, 18, 26, 28, 30, 32, 34, 36, 38, 40, 42, 44, 46].foldl (fun b i => put b i (idlePin s pins i)) b2
  put (put (put b3 20 (openDrain (alertPin s))) 22 (openDrain s.boot.fatalN)) 24 (openDrain s.boot.thermtripN)

/-- How the pins of a differential link stand (R558). -/
inductive LinkPins where
  /-- high impedance, without termination: unpowered -/
  | open_
  /-- transmitters in electrical idle, receivers unterminated -/
  | silent
  /-- transmitters in electrical idle -/
  | idle
  | active
  deriving DecidableEq, Repr

/-- The host-link pins (R558): a fenced device keeps its link. -/
def hostPins (s : State) : LinkPins := if !s.boot.powered then .open_ else if pinsInReset s then .silent else .active
/-- The pins of a fabric port (R558): idle once the device is fenced or halted, and while the port is down or fenced. -/
def fabricPins (s : State) (p : Nat) : LinkPins :=
  if !s.boot.powered then .open_
  else if pinsInReset s then .silent
  else if fenced s || suStep s == 15 || portState s p == 0 || portState s p == 4 then .idle
  else .active
/-- The reference-clock inputs are terminated (R549, R558): while powered, with VPHY above its warning level. -/
def clocksTerminated (s : State) : Bool := s.boot.powered && !s.power.failed.contains 1 && (sget (fun _ => none) s.power.dips 1).isNone

/-- EXTEST and CLAMP act on the pins: only while PERST_N is asserted (R554). -/
def boundaryDrives (s : State) : Bool :=
  s.boot.powered && perstPin s && (s.jtag.instruction == 0 || s.jtag.instruction == 4)
/-- HIGHZ acts on the pins. -/
def boundaryReleases (s : State) : Bool := s.boot.powered && perstPin s && s.jtag.instruction == 5

/-- Data and enable of the pin whose data cell is `i` (R553, R554): THERMTRIP_N and FATAL_N assert whatever instruction is
loaded. -/
def pinState (s : State) (pins : BitVec 48) (i : Nat) : Bool × Bool :=
  let own := captured s pins
  if (i = 22 && s.boot.fatalN) || (i = 24 && s.boot.thermtripN) then (false, true)
  else if boundaryDrives s then (bitAt s.jtag.boundary i, bitAt s.jtag.boundary (i + 1))
  else if boundaryReleases s then (bitAt own i, false)
  else (bitAt own i, bitAt own (i + 1))

/- Boundary scan (R553, R554) -/

/-- The test access port works while VAUX is good (R558); loading an instruction. -/
def loadInstruction (s : State) (op : Byte) : State :=
  if s.boot.powered then { s with jtag := { s.jtag with instruction := op } } else s

/-- Load an instruction under which the boundary register is captured and shifted, or, where `bypass` says so, the bypass register, whose
one bit captures 0; then its data register takes what shifts in. The pins shift out as they stood when the instruction was in force. -/
def scanThrough (s : State) (op : Byte) (bypass : Bool) (pins tdi : BitVec 48) : State :=
  if !s.boot.powered then s
  else if bypass then emit (loadInstruction s op) (.scan 1 0)
  else emit { s with jtag := ⟨op, tdi⟩ } (.scan 48 (captured s pins).toNat)

/-- EXTEST: the boundary register is captured and shifted (IEEE 1149.1; R553); it acts on the pins only while PERST_N is asserted. -/
def execExtest (pins tdi : BitVec 48) (s : State) : Host.Outcome State Fault Refusal := .next (scanThrough s 0 false pins tdi)
/-- CLAMP: while PERST_N is asserted the bypass register lies between TDI and TDO (IEEE 1149.1); at other times the boundary register
is captured and shifted as under SAMPLE/PRELOAD (R554). -/
def execClamp (pins tdi : BitVec 48) (s : State) : Host.Outcome State Fault Refusal := .next (scanThrough s 4 (perstPin s) pins tdi)
/-- HIGHZ, as CLAMP. -/
def execHighz (pins tdi : BitVec 48) (s : State) : Host.Outcome State Fault Refusal := .next (scanThrough s 5 (perstPin s) pins tdi)
/-- TAP_RESET: IDCODE is selected. -/
def execTapReset (s : State) : Host.Outcome State Fault Refusal := .next (loadInstruction s 1)

/-- IDCODE: 0xB441_009F shifts out; what shifts in is kept nowhere. -/
def execIdcode (_tdi : BitVec 32) (s : State) : Host.Outcome State Fault Refusal :=
  .next (if s.boot.powered then emit (loadInstruction s 1) (.scan 32 0xB441009F) else s)

/-- SAMPLE_PRELOAD: the pins are captured and shift out; the boundary register takes what shifts in. -/
def execSamplePreload (pins tdi : BitVec 48) (s : State) : Host.Outcome State Fault Refusal :=
  .next (scanThrough s 2 false pins tdi)

/-- Opcodes of the other instructions. -/
def otherOpcode (op : Byte) : Bool := op == 0 || op == 1 || op == 2 || op == 4 || op == 5

/-- BYPASS, and every opcode that R553 does not list: one bit lies between TDI and TDO, which captures 0. -/
def execBypass (opcode : Byte) (_tdi : Bool) (s : State) : Host.Outcome State Fault Refusal :=
  .next (if s.boot.powered && !otherOpcode opcode then emit (loadInstruction s opcode) (.scan 1 0) else s)

end Sys2Proof.Machine
end

