-- ==== Sys2Proof/Machine/Tray.lean ====
section
/-! DEFINITION. The tray's management controller: samples, alarms, its log, fencing and the power of its devices (spec 18
R465 to R477, R495, R498, R499). -/

namespace Sys2Proof.Machine

/-- The TMC writes a register of the modelled device over the management bus (R466). -/
def tmcWrite (s : State) (off v : Nat) : State :=
  if busAcks s then setupWrite s .tmc 0 0 off 4 (BitVec.ofNat 64 v) else s

/- The event log (R469, R495) -/

/-- A log record (R495). -/
def logRecord (rtc seq kind alarm pos : Nat) (cell : Bool) (value : Int) (stamp : Nat) : List Byte :=
  let b := toBytes 8 rtc ++ toBytes 4 seq ++ toBytes 1 kind ++ toBytes 1 alarm ++ toBytes 1 pos ++
    toBytes 1 (bit01 cell) ++ toBytes 4 (BitVec.ofInt 32 value).toNat ++ toBytes 8 stamp
  b ++ toBytes 4 (crc32 b).toNat

/-- The RTC of tray `t` at an event: as a sample gives it, else later than the last reading by less than a sample's interval, a
free value (log entry 27). -/
def rtcRead (s : State) (t : Nat) (sampled : Option W64) : W64 × State :=
  let (r, s1) := match sampled with
    | some r => (r, s)
    | none =>
      let (v, s1) := freeNext s
      let x := trayOf s t
      ((match x.rtc with | some y => y + BitVec.ofNat 64 (v.toNat % (if x.onCell then 1000 else 100)) | none => v), s1)
  (r, setTray s1 t { trayOf s1 t with rtc := some r })

/-- SEQ of the newest record that the rack manager's copy holds. -/
def copySeq (x : Tray) : Nat := x.copy.getLast?.elim 0 (fun r => numAt r 8 4)
/-- How many records SEQ `q` stands behind SEQ `from_`, modulo 2^32. -/
def seqAhead (q from_ : Nat) : Nat := (q + 2 ^ 32 - from_) % 2 ^ 32
/-- The rack manager reads the records of the tray's log whose SEQ follows the last that it holds (R472, R498). -/
def syncCopy (x : Tray) : Tray :=
  let l := x.copy ++ x.log.filter (fun r =>
    let d := seqAhead (numAt r 8 4) (copySeq x)
    d != 0 && decide (d ≤ seqAhead x.logSeq (copySeq x)))
  { x with copy := l.drop (l.length - 65536) }
/-- Writes to the event log succeed (R499). -/
def logWrites (x : Tray) : Bool := x.last.all (fun m => m.logOk)

/-- Write a log record of tray `t`, stamped with its RTC (R469), and send it to the rack manager, which keeps a copy (R495); a log that
cannot be written does not hold it (R499). A VALUE that R495 does not name is a free value (log entry 27). -/
def trayLog (s : State) (t : Nat) (sampled : Option W64) (kind alarm pos : Nat) (value : Option Int) (stamp : Nat) : State :=
  let (r, s1) := rtcRead s t sampled
  let (v, s2) := match value with
    | some x => (x, s1)
    | none =>
      let (y, s') := freeNext s1
      ((y.setWidth 32).toInt, s')
  let x := trayOf s2 t
  let seq := (x.logSeq + 1) % 2 ^ 32
  let b := logRecord r.toNat seq kind alarm pos x.onCell v stamp
  let l := x.log ++ [b]
  let k := x.copy ++ [b]
  setTray s2 t { x with
    logSeq := seq
    log := if logWrites x then l.drop (l.length - 131072) else x.log
    copy := if x.silent then x.copy else k.drop (k.length - 65536) }

/-- TBC of the device concerned: known for the modelled device, else 0 (R495). -/
def stampOf (s : State) (t p : Nat) : Nat := if t = s.system.homeTray && p = s.system.homePos then s.tbc.toNat else 0

/- Power of the modelled device (21 R555 to R558, R561) -/

/-- Its rails go: unpowered, and its latched fault outputs fall with VAUX. The TMC holds PERST_N until it has powered the device again and
asserted PWRGD (21 R562); the host's PERST# is its own. -/
def powerOff (s : State) : State :=
  let s1 := wipe s true
  { s1 with
    boot := { bootReset with powered := false, pwrgd := false, perst := s.boot.perst, tmcHold := true, kind := 1 }
    jtag := ⟨1, 0⟩
    power := { s1.power with dips := [], failed := [] } }
/-- Its rails are up in the order of 21 R555; PWRGD and PERST_N follow. The TMC has to return the records that it keeps (20 R537). -/
def powerOn (s : State) : State :=
  { s with
    boot := { s.boot with powered := true }
    power := { s.power with hoursAt := s.tbc }
    system := { s.system with toReturn := s.system.records.length - s.system.returned } }

/- Shares (R481) -/

/-- Devices powered in a tray. -/
def devCount (x : Tray) : Nat := ((List.range 4).filter (fun p => bitAt x.devOn p)).length
/-- N and P of R481. -/
def poweredCounts (s : State) : Nat × Nat :=
  let l := ((List.range 32).map (fun t => devCount (trayOf s t))).filter (fun n => n != 0)
  (l.sum, l.length)
/-- DEVICE_LIMIT, W (R481); with no powered device it stands. -/
def shareOf (s : State) (limit : Nat) : Nat :=
  let (n, p) := poweredCounts s
  if n = 0 then (rackOf s).deviceLimit
  else max 130 (min 780 ((limit - 300 - 40 * p) * 94 / (100 * n)))
/-- RAMP_UP and RAMP_DOWN, mW/s. -/
def shareRamp (s : State) : Nat :=
  let n := (poweredCounts s).1
  if n = 0 then 0 else ((rackOf s).facility.toNat % 2 ^ 16) * 94000 / n
/-- T > 40 °C or Q < 75 L/min: every device is at 130 W (R480). -/
def coolantPoor (r : RackMgr) : Bool := decide (40000 < r.inlet) || decide (r.flow < 7500)
/-- The limit that the shares call for, mW. -/
def wantedLimit (s : State) : Nat := if coolantPoor (rackOf s) then 130000 else 1000 * (rackOf s).deviceLimit

/-- The TMC writes the shares to the modelled device and locks them (R481); a limit of R474 in force stays (R497). -/
def writeShares (s : State) : State :=
  let t := s.system.homeTray
  if !homePowered s t || !(trayOf s t).up then s
  else
    let s1 := if (trayOf s t).limited then s else tmcWrite s Reg.pwrLimit ((rackOf s).written / 1000)
    let r := shareRamp s
    let s2 := if r = 0 then s1 else tmcWrite (tmcWrite s1 Reg.rampUp r) Reg.rampDown r
    tmcWrite (tmcWrite s2 Reg.fill (rackOf s).fill.toNat) Reg.pwrLock 1

/-- Shares are computed anew after a change of N or P. -/
def recomputeShares (s : State) : State :=
  let r := rackOf s
  writeShares (setRack s { r with deviceLimit := if r.rackLimit = 0 then r.deviceLimit else shareOf s r.rackLimit })

/- The rack's states (R485, R486) -/

/-- RM_CMD_STATUS. -/
def cmdWord (cmd : Nat) (busy : Bool) (result detail : Nat) : W32 :=
  BitVec.ofNat 32 (cmd + bit01 busy * 16 + result * 32 + detail * 256)
/-- Set RM_CMD_STATUS. -/
def setCmd (s : State) (cmd : Nat) (busy : Bool) (result detail : Nat) : State :=
  setRack s { rackOf s with cmdStatus := cmdWord cmd busy result detail }
/-- A command is in progress. -/
def rackBusy (s : State) : Bool := bitAt (rackOf s).cmdStatus 4

/-- The slot switch of a tray opens: its devices lose power and its TMC runs on its cell. A fence in progress is complete with
that (R476). -/
def openSlot (s : State) (t : Nat) : State :=
  let x := { trayOf s t with slotOn := false }
  if x.state = 0 || x.onCell then setTray s t x
  else
    let s1 := setTray s t { x with onCell := true, devOn := 0, fencing := false, limited := false,
                                   state := if x.state = 4 || x.fencing then 4 else 1 }
    let s2 := if homePowered s t then powerOff s1 else s1
    if !x.up then s2
    else
      let s3 := trayLog s2 t none 3 0xFF 0xFF none 0
      let s4 := ((List.range 4).filter (fun p => bitAt x.devOn p)).foldl
        (fun st p => trayLog st t none 9 0xFF p none (stampOf s t p)) s3
      if x.fencing then trayLog s4 t none 7 0xFF 0xFF none 0 else s4

/-- Every slot switch opens and the rack enters service state (R486). The modelled device, wherever it stands, is unpowered with that, and
its ID_PLACE.VALID is clear (01 R25). -/
def enterService (s : State) : State :=
  let s1 := (List.range 32).foldl openSlot s
  let s2 := if s1.boot.powered then powerOff s1 else s1
  setRack s2 { rackOf s2 with state := 2 }

/- Fencing (R475 to R477) -/

/-- RM_FENCED bit t, and the shares anew (R476). -/
def rackFenced (s : State) (t : Nat) : State :=
  let r := rackOf s
  recomputeShares (setRack s { r with fenced := r.fenced ||| BitVec.ofNat 32 (2 ^ t) })
/-- With every tray fenced, and none with its regulators still enabled, the rack enters service state by itself (R476). -/
def rackAllFenced (s : State) : State :=
  let r := rackOf s
  if r.fenced = BitVec.allOnes 32 && r.state != 2 && !(List.range 32).any (fun u => (trayOf s u).fencing) then
    let s1 := enterService s
    if rackBusy s1 then setCmd s1 ((rackOf s1).cmdStatus.toNat % 16) false (if r.state = 3 then 2 else 0) 0 else s1
  else s

/-- Steps 2 and 3 of R476: every regulator is disabled, the fence is logged, TRAY_STATE is fenced. -/
def fenceFinish (s : State) (t : Nat) : State :=
  let x := trayOf s t
  let s1 := setTray s t { x with devOn := 0, fencing := false, limited := false, state := 4 }
  let s2 := if homePowered s t then powerOff s1 else s1
  rackAllFenced (rackFenced (if x.up then trayLog s2 t none 7 0xFF 0xFF none 0 else s2) t)

/-- Step 1 of R476: PORT_CTRL.FENCE on every port of the modelled device. -/
def fencePorts (s : State) : State := (List.range 12).foldl (fun st p => tmcWrite st (Reg.portCtrl p) 1) s

/-- The TMC fences its tray (R476): the regulators follow within 1 ms, at once for a leak or a loss of input. -/
def fenceBegin (s : State) (t : Nat) (atOnce : Bool) : State :=
  let x := trayOf s t
  if (x.state = 4 && x.devOn = 0) || x.fencing then s
  else
    let s1 := if homePowered s t then fencePorts s else s
    if x.devOn = 0 || atOnce then fenceFinish s1 t
    else rackFenced (setTray s1 t { trayOf s1 t with fencing := true }) t

/-- REGULATOR_DISABLE (R476 steps 2 and 3). -/
def execRegulatorDisable (tray : BitVec 5) (s : State) : Host.Outcome State Fault Refusal :=
  .next (if (trayOf s tray.toNat).fencing then fenceFinish s tray.toNat else s)

/-- FENCE_TRAY's effect (R475): by the TMC, or through the slot switch when it is silent; false: refused, the slot is
empty. -/
def fenceTrayNow (s : State) (t : Nat) : Bool × State :=
  let x := trayOf s t
  if !trayKnown s t then (false, s)
  else if x.up && !x.silent then (true, fenceBegin s t false)
  else if x.state = 4 && x.devOn = 0 then (true, s)
  else
    let s1 := openSlot s t
    (true, rackAllFenced (rackFenced (setTray s1 t { trayOf s1 t with state := 4 }) t))

/- Alarms (R468, R473, R474) -/

/-- One alarm after a reading: whether it is set, its clearing timer, and whether it was raised or cleared. `bad`: the
reading raises it; `limit`: ms of continuous good readings that clear it, none when only the operator clears. -/
def alarmStep (set : Bool) (timer dt : Nat) (bad : Bool) (limit : Option Nat) : Bool × Nat × Option Bool :=
  if bad then (true, 0, if set then none else some true)
  else if !set then (false, 0, none)
  else
    match limit with
    | none => (true, 0, none)
    | some l => if l ≤ timer + dt then (false, 0, some false) else (true, timer + dt, none)

/-- Alarm `b` of tray `t` meets a reading: the raise or clear is logged with VALUE (R469). -/
def alarmSet (s : State) (t b dt : Nat) (bad : Bool) (limit : Option Nat) (rtc : Option W64) (value : Option Int) : State :=
  let x := trayOf s t
  let (on, timer, change) := alarmStep (bitAt x.alarms b) (sget (fun _ => 0) x.timers b) dt bad limit
  let s1 := setTray s t { x with alarms := setBit x.alarms b on, timers := sset (fun _ => 0) x.timers b timer }
  match change with
  | none => s1
  | some up => trayLog s1 t rtc (if up then 1 else 2) b (if 7 ≤ b && b ≤ 10 then b - 7 else 0xFF) value
      (if 7 ≤ b && b ≤ 10 then stampOf s1 t (b - 7) else 0)

/-- The highest of a list of readings. -/
def hottest (l : List Int) : Int := l.foldl max (l.headD 0)
/-- The lowest wet leak sensor. -/
def wetSensor (m : TraySample) : Option Int := ((List.range 5).find? (fun i => bitAt m.leak i)).map (fun i => (i : Int))

/-- Every alarm of R468 that a sample can move, on the tray's present supply. -/
def sampleAlarms (s : State) (t : Nat) (m : TraySample) : State :=
  let cell := (trayOf s t).onCell
  let dt := if cell then 1000 else 100
  let go (st : State) (b : Nat) (bad : Bool) (limit : Option Nat) (v : Option Int) : State :=
    alarmSet st t b dt bad limit (some m.rtcMs) v
  let s1 := go s 0 (m.leak != 0) none (wetSensor m)
  let s2 := go s1 1 (decide (55000 ≤ m.outletMC)) (some 600000) (some m.outletMC)
  let s3 := go s2 2 (m.plateMC.any (fun x => decide (70000 ≤ x))) (some 600000) (some (hottest m.plateMC))
  let s4 := go s3 3 (decide (75000 ≤ m.boardMC)) (some 600000) (some m.boardMC)
  let s5 := if cell then s4
    else
      let a := go s4 4 (decide (m.flowCl.toNat < 400)) (some 600000) (some (m.flowCl.toNat : Int))
      let b := go a 5 m.inputOut (some 10000) (some (m.inputMv.toNat : Int))
      (List.range 4).foldl (fun st p =>
        go st (7 + p) (bitAt m.devTrip p || (homePowered st t && p == st.system.homePos && st.boot.thermtripN)) none none) b
  let pct := m.cellPct.toNat
  let s6 := go s5 11 (decide (pct < 20)) (if 30 ≤ pct then some 0 else none) (some (m.cellMv.toNat : Int))
  go s6 13 (!m.logOk) none none

/-- Alarms that fence a powered tray (R474). -/
def fencingAlarms : BitVec 14 := 0x27C1
/-- Alarms under which the devices run at 130 W (R474). -/
def limitAlarms : BitVec 14 := 0x001E
/-- Alarms that block power-up (R468). -/
def blockingAlarms : BitVec 14 := 0x27FF

/-- What the TMC does on its alarms while the tray's devices are powered (R474, R475; 20 R527). `calls`: the input was outside
44 V to 56 V, or a device asserts its fatal output. -/
def alarmActs (s : State) (t : Nat) (calls : Bool) : State :=
  let x := trayOf s t
  if x.devOn = 0 then s
  else
    let hot := x.alarms &&& limitAlarms != 0
    let s1 := if hot = x.limited then s
      else
        let s' := setTray s t { x with limited := hot }
        if homePowered s t then tmcWrite s' Reg.pwrLimit (if hot then 130 else (rackOf s).written / 1000) else s'
    if x.alarms &&& fencingAlarms != 0 || calls || (homePowered s t && s.boot.fatalN) then
      fenceBegin s1 t (bitAt x.alarms 0)
    else s1

/-- One complete sample (R469, R472). -/
def takeSample (s : State) (t : Nat) (m : TraySample) : State :=
  let s1 := setTray s t { trayOf s t with last := some m, rtc := some m.rtcMs }
  let s2 := sampleAlarms s1 t m
  let s3 := if homePowered s2 t then tmcWrite s2 Reg.wearCell m.cellPct.toNat else s2
  alarmActs s3 t (!(trayOf s3 t).onCell && (m.inputFar || m.devFatal != 0))

/-- TMC_SAMPLE (R469): every 100 ms on main power, every 1 s on the cell. -/
def execTmcSample (tray : BitVec 5) (sample : TraySample) (s : State) : Host.Outcome State Fault Refusal :=
  .next (if tmcRuns s tray.toNat then takeSample s tray.toNat sample else s)

/-- REGULATOR_POLL (R466, R468): on main power, STATUS_WORD; any fault bit raises REGULATOR. -/
def execRegulatorPoll (tray : BitVec 5) (faults : BitVec 16) (s : State) : Host.Outcome State Fault Refusal :=
  let t := tray.toNat
  .next (if tmcRuns s t && !(trayOf s t).onCell then
      let s1 := setTray s t { trayOf s t with faults := faults }
      if faults = 0 then s1 else alarmActs (alarmSet s1 t 6 0 true none none none) t false
    else s)

/- The backplane (R466, R475) -/

/-- TMC_HEARTBEAT (R466): the rack manager hears the tray. The tray of a powered modelled device, first heard, runs on main
power (log entry 5). -/
def execTmcHeartbeat (tray : BitVec 5) (s : State) : Host.Outcome State Fault Refusal :=
  let t := tray.toNat
  let x := trayOf s t
  .next (if x.state = 0 then
      if t = s.system.homeTray && s.boot.powered then
        homeTrayRuns { s with system := { s.system with homeKnown := true } } t
      else setTray s t { x with up := true, state := 1, onCell := true }
    else if x.up then setTray s t (syncCopy { x with silent := false })
    else s)

/-- HEARTBEAT_LOSS (R475, R476): the slot switch opens and the tray is fenced. -/
def execHeartbeatLoss (tray : BitVec 5) (s : State) : Host.Outcome State Fault Refusal :=
  let t := tray.toNat
  .next (if !trayKnown s t || (trayOf s t).silent then s
    else
      let s1 := openSlot s t
      rackAllFenced (rackFenced (setTray s1 t { trayOf s1 t with silent := true, state := 4 }) t))

/- Main power and the cell (R470 to R472, R475) -/

/-- MAIN_POWER_LOST (R475): a powered tray is fenced, and the TMC moves to its cell. -/
def execMainPowerLost (tray : BitVec 5) (s : State) : Host.Outcome State Fault Refusal :=
  let t := tray.toNat
  .next (if !trayKnown s t || (trayOf s t).onCell then s
    else
      let x := trayOf s t
      let s1 := setTray s t { x with onCell := true, state := if x.devOn = 0 && x.state != 4 then 1 else x.state }
      let s2 := if x.up then trayLog s1 t none 3 0xFF 0xFF none 0 else s1
      if x.devOn = 0 then s2
      else if x.fencing then fenceFinish s2 t
      else fenceBegin s2 t true)

/-- CELL_CUTOFF (R471): VALUE of the final record holds the cell voltage in its low half and the alarm bits in force above it
(DESIGN CHOICE, log entry 27); the alarms stay, and the stop restarts the clearing timers (R473). -/
def execCellCutoff (tray : BitVec 5) (mv : BitVec 16) (s : State) : Host.Outcome State Fault Refusal :=
  let t := tray.toNat
  .next (if !tmcRuns s t || !(trayOf s t).onCell || decide (10000 < mv.toNat) then s
    else
      let s1 := trayLog s t none 5 0xFF 0xFF (some ((mv.toNat + (trayOf s t).alarms.toNat * 2 ^ 16 : Nat) : Int)) 0
      setTray s1 t { trayOf s1 t with up := false, timers := [] })

/-- MAIN_POWER_RESTORED (R472, R485): the slot switch is closed, and the TMC starts if it had stopped, samples, logs, and presents its alarms. -/
def execMainPowerRestored (tray : BitVec 5) (sample : TraySample) (s : State) : Host.Outcome State Fault Refusal :=
  let t := tray.toNat
  .next (if !trayKnown s t || !(trayOf s t).slotOn || !(trayOf s t).onCell || decide (sample.inputMv.toNat < 46000) then s
    else
      let x := trayOf s t
      let s1 := setTray s t { x with onCell := false, up := true, acked := false, state := if x.state = 4 then 4 else 2 }
      let s2 := if x.up then s1 else alarmSet s1 t 12 0 true none (some sample.rtcMs) none
      trayLog (takeSample s2 t sample) t (some sample.rtcMs) 4 0xFF 0xFF none 0)

/-- ALARM_ACK (R472): the rack manager acknowledges what the TMC presents. -/
def execAlarmAck (tray : BitVec 5) (s : State) : Host.Outcome State Fault Refusal :=
  .next (if tmcRuns s tray.toNat then setTray s tray.toNat (syncCopy { trayOf s tray.toNat with acked := true }) else s)

/-- TMC_RESTART (R498): regulators keep their states; the clearing timers restart (R473). -/
def execTmcRestart (tray : BitVec 5) (s : State) : Host.Outcome State Fault Refusal :=
  let t := tray.toNat
  .next (if tmcRuns s t then
      let s1 := trayLog s t none 6 0xFF 0xFF none 0
      setTray s1 t { trayOf s1 t with timers := [] }
    else s)

/- Power-up (R472, R477, R483) -/

/-- The wait of R483 between one tray and the next, in measurements of 10 ms. -/
def powerWait (r : RackMgr) : Nat :=
  let ms := max 20 (cdiv 5532 (max 1 (r.facility.toNat % 2 ^ 16)))
  cdiv ms 10
/-- TRAY_POWER_UP (R483): in verifying state, in ascending order, after the wait and the acknowledgement and with no blocking alarm.
A fenced tray stays fenced until verification passes (R477), though its devices are powered to be verified (log entry 27). -/
def execTrayPowerUp (tray : BitVec 5) (s : State) : Host.Outcome State Fault Refusal :=
  let t := tray.toNat
  let x := trayOf s t
  let r := rackOf s
  .next (if r.state != 3 || !tmcRuns s t || x.silent || x.onCell || !x.acked || x.fencing || x.devOn != 0 ||
      r.poweredAt.any (fun a => decide (r.ticks < a + powerWait r)) ||
      x.alarms &&& blockingAlarms != 0 || (List.range t).any (fun u => (trayOf s u).devOn == 0) then s
    else
      let s1 := setTray (setRack s { r with poweredAt := some r.ticks }) t { x with
        devOn := 0xF, setPoints := railSetPoints, state := if x.state = 4 then 4 else 3 }
      let s2 := if t = s.system.homeTray then powerOn s1 else s1
      let s3 := (List.range 4).foldl (fun st p => trayLog st t none 8 0xFF p none (stampOf st t p)) s2
      recomputeShares s3)

/- The operator's clear (R468, R473) -/

/-- Alarms that the operator may clear now. -/
def operatorMask (x : Tray) : BitVec 14 :=
  let m : BitVec 14 := 0x17C0
  let dry := match x.last with | some l => l.leak == 0 | none => false
  let ok := match x.last with | some l => l.logOk | none => false
  m ||| (if dry then 1 else 0) ||| (if ok then 0x2000 else 0)

/-- Clear the masked alarms that may be cleared, the faults of the regulators with REGULATOR (R466); false: some masked alarm that is set stays. -/
def alarmClearNow (s : State) (t : Nat) (mask : BitVec 14) : Bool × State :=
  if !tmcRuns s t then (false, s)
  else
    let x := trayOf s t
    let may := mask &&& x.alarms &&& operatorMask x
    let s1 := setTray s t { x with alarms := x.alarms &&& ~~~may, faults := if bitAt may 6 then 0 else x.faults }
    let s2 := ((List.range 14).filter (fun b => bitAt may b)).foldl (fun st b => trayLog st t none 11 b 0xFF none 0) s1
    (mask &&& x.alarms == may, s2)

end Sys2Proof.Machine
end

