-- ==== Sys2Proof/Machine/Rack.lean ====
section
/-! DEFINITION. The rack manager: power and coolant limits, service, the cabling plan, lane results, the rack management
port (spec 18 R480 to R498). -/

namespace Sys2Proof.Machine

/- Power and coolant (R480 to R482) -/

/-- RACK_LIMIT, W, of a measurement; with T above 40 °C, for which R480 gives no kT, kT is a free value, as `f` / 2^16. -/
def rackLimitOf (facKw inlet flow f : Nat) : Nat :=
  let kq := min 15000 flow
  let kt := if inlet ≤ 35000 then 1000000 else if inlet ≤ 40000 then 1000000 - 60 * (inlet - 35000) else f % 2 ^ 16 * 1000000 / 2 ^ 16
  min (facKw * 1000) (115000 * kt * kq / (1000000 * 15000))

/-- Written limits follow the shares: down no faster than RAMP_DOWN over 10 ms (R481, R497), up at once, unless R482 has lowered
them. -/
def followShares (s : State) : State :=
  let r := rackOf s
  let want := wantedLimit s
  setRack s { r with written :=
    if want < r.written then max want (r.written - shareRamp s / 100) else if r.isOver then r.written else want }

/-- R482 on one measurement of 10 ms: OVER after 100 ms above RACK_LIMIT; below 97 % of it, the limits rise by 2 % each
second until they have returned. -/
def overStep (s : State) : State :=
  let r := rackOf s
  let above := decide (r.rackLimit < r.watts)
  let below := decide (100 * r.watts < 97 * r.rackLimit)
  let overRun := if above then min (r.overRun + 1) 10 else 0
  let isOver := r.isOver || decide (10 ≤ overRun)
  let underRun := if isOver && below then r.underRun + 1 else 0
  if isOver && decide (100 ≤ underRun) then
    let w := min (wantedLimit s) (r.written * 102 / 100)
    setRack s { r with overRun := overRun, underRun := 0, written := w, isOver := decide (w < wantedLimit s) }
  else setRack s { r with overRun := overRun, underRun := underRun, isOver := isOver }

/- Wiring verification (R488, R489) -/

/-- A lane of the rack's lane-result file: tray, position, port, lane (R496). -/
def laneParts (i : Nat) : Nat × Nat × Nat × Nat := (i / 240, i / 60 % 4, i / 5 % 12, i % 5)
/-- Lane `i` belongs to a planned link. -/
def lanePlanned (s : State) (p : Plan) (i : Nat) : Bool :=
  let (t, q, port, _) := laneParts i
  (planFar p (slotDevice s t q) port).isSome
/-- Lanes of a rack. -/
def laneCount : Nat := 7680
/-- A record of the lane-result file. -/
def laneRec (s : State) (i : Nat) : LaneRec := sget (fun _ => laneRecReset) (rackOf s).lanes i
/-- Replace one. -/
def setLane (s : State) (i : Nat) (x : LaneRec) : State :=
  setRack s { rackOf s with lanes := sset (fun _ => laneRecReset) (rackOf s).lanes i x }

/-- Verification fails at device `d`: the failure is recorded, every slot switch opens (R489). -/
def verifyFails (s : State) (d : Nat) : State :=
  let s1 := enterService s
  setCmd (setRack s1 { rackOf s1 with laneDone := none }) 2 false 2 d
/-- Verification passes: the results are stored, the fenced-tray bits clear, and the rack runs (R489, R477). -/
def verifyPasses (s : State) (p : Plan) (results : List Nat) : State :=
  let s1 := ((List.range laneCount).filter (lanePlanned s p)).foldl (fun st i =>
    setLane st i { laneRec st i with errors := results.getD i 0, flags := 1 }) s
  let s2 := (List.range 32).foldl (fun st t =>
    let x := trayOf st t
    if x.devOn = 0 then st else setTray st t { x with state := 3 }) s1
  setCmd (setRack s2 { rackOf s2 with state := 0, fenced := 0, laneDone := none, period := 0 }) 2 false 0 0
/-- The lane test has passed, and verification ends when the identity exchange after it has settled (R488, R489): every planned port of
the modelled device is up, or an identity does not match, there (its port is fenced) or at another device. -/
def verifyStep (s : State) : State :=
  match (rackOf s).state, (rackOf s).plan, (rackOf s).laneDone with
  | 3, some (_, p), some (results, others) =>
    let me := slotDevice s s.system.homeTray s.system.homePos
    let ports := (List.range 12).filter (fun q => homePowered s s.system.homeTray && (planFar p me q).isSome)
    let bad := others ++ (if ports.any (fun q => portState s q == 4) then [me] else [])
    if bad != [] then verifyFails s (bad.foldl min 1023)
    else if ports.all (portUp s) then verifyPasses s p results
    else s
  | _, _, _ => s

/-- The lane fails the lane test: more than 3 errors (R488), or a tray whose devices are not all powered. -/
def laneFails (s : State) (results : List Nat) (i : Nat) : Bool :=
  decide (3 < results.getD i 0xFFFFFFFF) || (trayOf s (laneParts i).1).devOn != 0xF

/-- LANE_TEST_END (R488, R489): every lane of every planned link is judged; the identity exchange follows. `others` are the devices,
other than the modelled one, at which it finds an identity that does not match (log entry 27). -/
def execLaneTestEnd (results others : List Nat) (s : State) : Host.Outcome State Fault Refusal :=
  .next (match (rackOf s).state, (rackOf s).plan with
    | 3, some (_, p) =>
      match ((List.range laneCount).filter (lanePlanned s p)).find? (laneFails s results) with
      | some i => verifyFails s (slotDevice s (laneParts i).1 (laneParts i).2.1)
      | none => verifyStep (setRack s { rackOf s with laneDone := some (results, others) })
    | _, _ => s)

/-- RACK_MEASURE (R480 to R482): input power, inlet temperature and flow; OUTLET, which comes with them, is a free value. The rack
manager's clock counts these measurements of 10 ms (log entry 27). -/
def execRackMeasure (watts : BitVec 17) (inletMilliC flowCentiL : BitVec 20) (s : State) : Host.Outcome State Fault Refusal :=
  let (f, sf) := if 40000 < inletMilliC.toNat then freeNext s else (0, s)
  let (v, s0) := freeNext sf
  let r := { rackOf s0 with ticks := (rackOf s0).ticks + 1, outlet := v.toNat % 2 ^ 8 }
  let inlet := inletMilliC.toNat
  let flow := flowCentiL.toNat
  let limit := rackLimitOf (r.facility.toNat / 2 ^ 16 % 2 ^ 8) inlet flow f.toNat
  let s1 := setRack s0 { r with watts := watts.toNat, inlet := inlet, flow := flow, rackLimit := limit,
                                coolant := decide (40000 < inlet) || decide (flow < 7500) || decide (inlet < 17000) }
  let s2 := setRack s1 { rackOf s1 with deviceLimit := shareOf s1 limit }
  .next (verifyStep (writeShares (followShares (overStep s2))))

/-- RACK_OVER_STEP (R482): while the input stays above RACK_LIMIT, every written limit falls by 2 %, down to 130 W. -/
def execRackOverStep (s : State) : Host.Outcome State Fault Refusal :=
  let r := rackOf s
  .next (if r.isOver && decide (r.rackLimit < r.watts) then
      writeShares (setRack s { r with written := max 130000 (r.written * 98 / 100) })
    else s)

/- Service (R485 to R487) -/

/-- SERVICE_ENTER: from running to draining; else refused. -/
def serviceEnterNow (s : State) : State :=
  if (rackOf s).state = 0 then setCmd (setRack s { rackOf s with state := 1, drainFrom := (rackOf s).ticks }) 1 true 0 0
  else setCmd s 1 false 1 0
/-- SERVICE_ENTER (R485, R486). -/
def execServiceEnter (s : State) : Host.Outcome State Fault Refusal := .next (if rackBusy s then s else serviceEnterNow s)

/-- The drain ends: slot switches open (R486). -/
def drainEnd (s : State) : State := setCmd (enterService s) 1 false 0 0
/-- DRAIN_COMPLETE (R486): no operation is in flight on any device. -/
def execDrainComplete (s : State) : Host.Outcome State Fault Refusal :=
  .next (if (rackOf s).state = 1 && s.ops.isEmpty then drainEnd s else s)
/-- Every completion that can be written is written: each goes as its turn comes (07 R199). -/
def writeCompletions (s : State) : State :=
  (List.range s.ops.length).foldl (fun st _ => st.ops.foldl (fun a o => completeOp a o.id) st) s
/-- DRAIN_TIMEOUT (R486): DRAIN_S has passed; the TMCs stop every tenant, the remaining work ends ABORTED and its completions are written
(07 R212), and the rack enters service state. -/
def execDrainTimeout (s : State) : Host.Outcome State Fault Refusal :=
  let r := rackOf s
  .next (if r.state = 1 && decide (r.drainFrom + 100 * (r.drain.toNat % 2 ^ 12) ≤ r.ticks) then
      drainEnd (writeCompletions ((List.range 129).foldl (fun st t => tmcWrite st (Reg.tenState t) 1) s))
    else s)

/-- SERVICE_EXIT is refused without a plan, with an empty slot, or with a blocking alarm (R487). -/
def exitRefused (s : State) : Bool :=
  (rackOf s).plan.isNone ||
  (List.range 32).any (fun t => !trayKnown s t || (trayOf s t).alarms &&& blockingAlarms != 0)
/-- SERVICE_EXIT: slot power returns to every slot at once, and verification begins. -/
def serviceExitNow (s : State) : State :=
  if (rackOf s).state != 2 || exitRefused s then setCmd s 2 false 1 0
  else
    let s1 := (List.range 32).foldl (fun st t => setTray st t { trayOf st t with slotOn := true }) s
    setCmd (setRack s1 { rackOf s1 with state := 3, poweredAt := none, laneDone := none }) 2 true 0 0
/-- SERVICE_EXIT (R485, R487). -/
def execServiceExit (s : State) : Host.Outcome State Fault Refusal := .next (if rackBusy s then s else serviceExitNow s)

/- The cabling plan (R491, R492) -/

/-- ID_SERIAL of a device of the rack, as its TMC reads it. -/
def serialOf (s : State) (d : Nat) : W64 :=
  if d = slotDevice s s.system.homeTray s.system.homePos then Config.serial else Config.deviceSerial d
/-- A serial written `*` is replaced. -/
def fillSerials (s : State) (p : Plan) : Plan := { p with devices := p.devices.map (fun e => (e.1, some (e.2.getD (serialOf s e.1)))) }

/-- PLAN_COMMIT: in service state only; the plan is rejected whole at its first failing line. -/
def planCommitNow (s : State) : State :=
  let r := rackOf s
  if r.state != 2 then setCmd s 3 false 1 0
  else
    let text := (List.range r.planLen.toNat).map (fun i => sget memDflt r.planBuf i)
    match planParse true text with
    | .inr n => setCmd s 3 false 2 n
    | .inl p =>
      if planComplete p then setCmd (setRack s { r with plan := some (text, fillSerials s p) }) 3 false 0 0
      else setCmd s 3 false 2 0
/-- PLAN_COMMIT (R492). -/
def execPlanCommit (s : State) : Host.Outcome State Fault Refusal := .next (if rackBusy s then s else planCommitNow s)

/- Operator commands on a tray (R473, R475) -/

/-- The result of FENCE_TRAY or ALARM_CLEAR, unless another command is in progress (log entry 27). -/
def setCmdFree (s : State) (cmd : Nat) (ok : Bool) : State :=
  if rackBusy s then s else setCmd s cmd false (if ok then 0 else 1) 0
/-- FENCE_TRAY (R475, R497). -/
def execFenceTray (tray : BitVec 5) (s : State) : Host.Outcome State Fault Refusal :=
  let (ok, s1) := fenceTrayNow s tray.toNat
  .next (setCmdFree s1 4 ok)
/-- ALARM_CLEAR (R468, R473). -/
def execAlarmClear (tray : BitVec 5) (mask : BitVec 14) (s : State) : Host.Outcome State Fault Refusal :=
  let (ok, s1) := alarmClearNow s tray.toNat mask
  .next (setCmdFree s1 5 ok)

/- Lane tests between services (R490) -/

/-- The lane is one of the modelled device. -/
def homeLane (s : State) (i : Nat) : Bool :=
  let (t, q, _, _) := laneParts i
  homePowered s t && q == s.system.homePos

/-- One lane at an hourly read: spare role and LANE_PRBS. -/
def laneHour (s : State) (i : Nat) (read : Option (Bool × Nat)) : State :=
  let x := laneRec s i
  match read with
  | none => if x.wasSpare then setLane s i { x with wasSpare := false } else s
  | some (spare, n) =>
    setLane s i { x with
      hours := if spare && x.wasSpare then x.hours + 1 else x.hours
      fresh := x.fresh + (if x.count ≤ n then n - x.count else n)
      count := n
      wasSpare := spare }

/-- LANE_HOURLY_READ (R490): each read is a lane of R496, its spare role (0 or 1) and its LANE_PRBS; those of the modelled
device are its own. -/
def execLaneHourlyRead (reads : List (Nat × Nat × Nat)) (s : State) : Host.Outcome State Fault Refusal :=
  .next (if (rackOf s).state != 0 then s
    else
      (List.range laneCount).foldl (fun st i =>
        let (_, _, port, lane) := laneParts i
        let read : Option (Bool × Nat) :=
          if homeLane st i then some (spareLane st port == lane, (regGet st (Reg.lanePrbs (8 * port + lane))).toNat)
          else (reads.find? (fun r => r.1 == i)).map (fun r => (r.2.1 == 1, min r.2.2 0xFFFFFFFF))
        laneHour st i read) (setRack s { rackOf s with period := (rackOf s).period + 1 }))

/-- One lane at the end of a period: pass, fail or UNTESTED; RM_LANE_FAIL for a lane that fails or is UNTESTED twice in
succession. -/
def laneEvaluate (s : State) (i : Nat) : State :=
  let x := laneRec s i
  let saturated := decide (0xFFFFFFFF ≤ x.count)
  let untested := !saturated && x.hours == 0
  let pass := !saturated && x.hours != 0 && decide (2 * x.fresh ≤ 765 * x.hours)
  let s1 := setLane s i { x with errors := x.fresh, flags := bit01 pass + 2 * bit01 untested + 4, hours := 0, fresh := 0,
                                 untested := untested }
  if (!pass && !untested) || (untested && x.untested) then
    setRack s1 { rackOf s1 with laneFail := (rackOf s1).laneFail ||| BitVec.ofNat 32 (2 ^ (laneParts i).1) }
  else s1

/-- LANE_PERIOD_EVALUATION (R490): at the end of a period of PERIOD_DAYS days, which the hourly reads count. -/
def execLanePeriodEvaluation (s : State) : Host.Outcome State Fault Refusal :=
  .next (match (rackOf s).state, (rackOf s).plan with
    | 0, some (_, p) =>
      if (rackOf s).period < 24 * ((rackOf s).wiring.toNat % 2 ^ 8) then s
      else ((List.range laneCount).filter (lanePlanned s p)).foldl laneEvaluate (setRack s { rackOf s with period := 0 })
    | _, _ => s)

/- Registers (R494) -/

/-- RM_STATUS.ALARM: the facility alarm contact is closed (R484). -/
def contactClosed (s : State) : Bool :=
  (rackOf s).coolant || (List.range 32).any (fun t =>
    let x := trayOf s t
    x.silent || (x.up && x.alarms != 0))
/-- Whole degrees of m°C, in a field of 8 bits. -/
def degrees (m : Int) : Nat := (BitVec.ofInt 8 (m / 1000)).toNat

/-- A 32-bit register of a tray slot. -/
def trayWord (s : State) (t off : Nat) : Nat :=
  let x := trayOf s t
  let sample (f : TraySample → Nat) : Nat := match x.last with | some m => f m | none => 0
  match off with
  | 0x00 => x.state + bit01 (x.onCell && x.state != 0) * 8 + bit01 (x.up && x.alarms != 0) * 16 + x.devOn.toNat * 32 +
      (if x.state = 0 then 0 else t * 2 ^ 9) + bit01 x.silent * 2 ^ 14
  | 0x04 => x.alarms.toNat
  | 0x08 => x.logSeq
  | 0x0C => sample (fun m => m.cellPct.toNat + m.cellMv.toNat * 2 ^ 16)
  | 0x10 => sample (fun m => degrees m.inletMC + degrees m.outletMC * 2 ^ 8 + degrees (hottest m.plateMC) * 2 ^ 16 +
      degrees m.boardMC * 2 ^ 24)
  | 0x14 => sample (fun m => m.flowCl.toNat)
  | 0x18 => sample (fun m => m.inputMv.toNat + m.inputW.toNat * 2 ^ 16)
  | _ => 0

/-- A 32-bit register; RM_CMD reads zero. -/
def rackWord (s : State) (off : Nat) : Nat :=
  let r := rackOf s
  match off with
  | 0x00 => r.state + bit01 r.plan.isSome * 4 + bit01 (contactClosed s) * 8 + bit01 r.coolant * 16 + bit01 r.isOver * 32
  | 0x04 => r.config.toNat
  | 0x0C => r.cmdStatus.toNat
  | 0x10 => r.facility.toNat
  | 0x14 => r.fill.toNat
  | 0x18 => r.inlet / 1000 % 2 ^ 8 + r.outlet * 2 ^ 8 + r.flow / 100 % 2 ^ 12 * 2 ^ 16
  | 0x1C => r.watts
  | 0x20 => r.rackLimit % 2 ^ 17 + r.deviceLimit * 2 ^ 17
  | 0x24 => r.drain.toNat
  | 0x28 => r.wiring.toNat
  | 0x2C => r.fenced.toNat
  | 0x30 => r.laneFail.toNat
  | 0x38 => r.planLen.toNat
  | off => if 0x1000 ≤ off then trayWord s ((off - 0x1000) / 0x80) (off % 0x80) else 0

/-- A 64-bit register of a tray slot, when one stands there: TRAY_RTC, TRAY_SERIALp. -/
def rackWord64 (s : State) (off : Nat) : Option Nat :=
  if off < 0x1000 || 0x2000 ≤ off then none
  else
    let t := (off - 0x1000) / 0x80
    let x := trayOf s t
    match off % 0x80 with
    | 0x20 => some (x.rtc.elim 0 BitVec.toNat)
    | o => if 0x40 ≤ o && o < 0x60 && o % 8 = 0 then
        some (if bitAt x.devOn ((o - 0x40) / 8) then (serialOf s (slotDevice s t ((o - 0x40) / 8))).toNat else 0)
      else none

/-- Bytes that a 64-bit register covers. -/
def inRegister64 (off : Nat) : Bool :=
  decide (0x1000 ≤ off) && decide (off < 0x2000) &&
    ((decide (0x20 ≤ off % 0x80) && decide (off % 0x80 < 0x28)) || (decide (0x40 ≤ off % 0x80) && decide (off % 0x80 < 0x60)))

/-- A field that keeps its value when the written encoding is reserved (00 R10). -/
def takeField (old new lo w min_ max_ : Nat) : Nat :=
  let v := new / 2 ^ lo % 2 ^ w
  (if min_ ≤ v ∧ v ≤ max_ then v else old / 2 ^ lo % 2 ^ w) * 2 ^ lo

/-- RM_CMD: commands of the operator. False: another command is in progress. -/
def rackCommand (s : State) (v : Nat) : Bool × State :=
  let t := v / 2 ^ 8 % 2 ^ 8
  match v % 16 with
  | 1 => if rackBusy s then (false, s) else (true, serviceEnterNow s)
  | 2 => if rackBusy s then (false, s) else (true, serviceExitNow s)
  | 3 => if rackBusy s then (false, s) else (true, planCommitNow s)
  | 4 => if t < 32 then
      let (ok, s1) := fenceTrayNow s t
      (true, setCmdFree s1 4 ok)
    else (true, s)
  | 5 => if t < 32 then
      let (ok, s1) := alarmClearNow s t (BitVec.ofNat 14 (v / 2 ^ 16))
      (true, setCmdFree s1 5 ok)
    else (true, s)
  | _ => (true, s)

/-- A write of a 32-bit register: STATUS of R493 and the state. -/
def rackStore (s : State) (off v : Nat) : Nat × State :=
  let r := rackOf s
  match off with
  | 0x04 => if r.state = 2 then (0, setRack s { r with config := BitVec.ofNat 32 (v % 8) }) else (4, s)
  | 0x08 =>
    let (ok, s1) := rackCommand s v
    (if ok then 0 else 3, s1)
  | 0x10 =>
    let f := takeField r.facility.toNat v 0 16 10 10000 + takeField r.facility.toNat v 16 8 1 115
    (0, writeShares (setRack s { r with facility := BitVec.ofNat 32 f }))
  | 0x14 => (0, writeShares (setRack s { r with fill := BitVec.ofNat 32 v }))
  | 0x24 => (0, setRack s { r with drain := BitVec.ofNat 32 (takeField r.drain.toNat v 0 12 10 3600) })
  | 0x28 => (0, setRack s { r with wiring := BitVec.ofNat 32 (takeField r.wiring.toNat v 0 8 1 90) })
  | 0x38 => (0, if v ≤ 1048576 then setRack s { r with planLen := BitVec.ofNat 32 v } else s)
  | off =>
    let reserved := off == 0x34 || (decide (0x3C ≤ off) && decide (off < 0x1000)) ||
      (decide (0x1000 ≤ off) && (off % 0x80 == 0x1C || (decide (0x28 ≤ off % 0x80) && decide (off % 0x80 < 0x40)) ||
        decide (0x60 ≤ off % 0x80)))
    (if reserved then 0 else 4, s)

/- Frames (R493) -/

/-- A response: the header repeated with bit 7 of OP and STATUS, then the payload. -/
def frameAnswer (s : State) (op status : Nat) (h : Frame) (payload : List Byte) : State :=
  emit s (.answer (toBytes 1 (op ||| 128) ++ toBytes 1 status ++ toBytes 2 payload.length ++ toBytes 4 h.seq.toNat ++
    toBytes 8 h.addr.toNat ++ payload))

/-- A frame that addresses a 32-bit register. -/
def addr32 (a : Nat) : Bool := a % 4 == 0 && decide (a < 0x2000) && !inRegister64 a

/-- READ32; a frame whose OP is that of no command answers STATUS 1. -/
def execRead32 (op : Byte) (h : Frame) (s : State) : Host.Outcome State Fault Refusal :=
  let a := h.addr.toNat
  .next (if op != 1 then frameAnswer s op.toNat 1 h []
    else if addr32 a then frameAnswer s 1 0 h (toBytes 4 (rackWord s a))
    else frameAnswer s 1 2 h [])

/-- WRITE32. -/
def execWrite32 (h : Frame) (payload : List Byte) (s : State) : Host.Outcome State Fault Refusal :=
  let a := h.addr.toNat
  .next (if addr32 a && payload.length == 4 then
      let (st, s1) := rackStore s a (ofBytes payload)
      frameAnswer s1 2 st h []
    else frameAnswer s 2 2 h [])

/-- READ64. -/
def execRead64 (h : Frame) (s : State) : Host.Outcome State Fault Refusal :=
  .next (match rackWord64 s h.addr.toNat with
    | some v => frameAnswer s 3 0 h (toBytes 8 v)
    | none => frameAnswer s 3 2 h [])

/-- WRITE64: every 64-bit register of the rack manager is read-only. -/
def execWrite64 (h : Frame) (_payload : List Byte) (s : State) : Host.Outcome State Fault Refusal :=
  .next (frameAnswer s 4 (if (rackWord64 s h.addr.toNat).isSome then 4 else 2) h [])

/-- Bytes of the lane-result file's record `i` (R496). -/
def laneBytes (s : State) (i : Nat) : List Byte :=
  let x := laneRec s i
  toBytes 4 (min x.errors 0xFFFFFFFF) ++ toBytes 1 x.flags ++ [0, 0, 0]

/-- The records of a tray's file, oldest first: one whose CRC fails is skipped (R499). -/
def logFile (s : State) (t : Nat) : List (List Byte) :=
  (trayOf s t).copy.filter (fun r => numAt r 28 4 == (crc32 (r.take 28)).toNat)
/-- Length of a file, when there is one of this number. -/
def fileLength (s : State) (f : Nat) : Option Nat :=
  if f = 0 then some 1048576
  else if f ≤ 32 then some (32 * (logFile s (f - 1)).length)
  else if f = 33 then some (8 * laneCount)
  else none
/-- `n` bytes of a file from `a`. -/
def fileBytes (s : State) (f a n : Nat) : List Byte :=
  if f = 0 then (List.range n).map (fun i => sget memDflt (rackOf s).planBuf (a + i))
  else if f ≤ 32 then ((logFile s (f - 1)).flatten.drop a).take n
  else (((List.range laneCount).flatMap (laneBytes s)).drop a).take n

/-- FILE_PUT: only the plan buffer is written. -/
def execFilePut (h : Frame) (payload : List Byte) (s : State) : Host.Outcome State Fault Refusal :=
  let a := h.addr.toNat
  .next (if 33 < h.file.toNat || 4096 < payload.length then frameAnswer s 5 2 h []
    else if h.file != 0 then frameAnswer s 5 4 h []
    else if 1048576 < a + payload.length then frameAnswer s 5 5 h []
    else frameAnswer (setRack s { rackOf s with planBuf := putBytes (rackOf s).planBuf a payload }) 5 0 h [])

/-- FILE_GET: LEN bytes from ADDR. -/
def execFileGet (h : Frame) (s : State) : Host.Outcome State Fault Refusal :=
  let a := h.addr.toNat
  let n := h.len.toNat
  .next (match fileLength s h.file.toNat with
    | none => frameAnswer s 6 2 h []
    | some l =>
      if 4096 < n then frameAnswer s 6 2 h []
      else if l < a + n then frameAnswer s 6 5 h []
      else frameAnswer s 6 0 h (fileBytes s h.file.toNat a n))

/-- RM_RESTART (R498): RWS fields, the committed plan, the shares, fences and lane results stand, and every tray's log is read from the
last SEQ held; what is neither kept in flash nor read from the trays starts anew (log entry 27). -/
def execRmRestart (s : State) : Host.Outcome State Fault Refusal :=
  let s1 := (List.range 32).foldl (fun st t => if tmcRuns st t then setTray st t (syncCopy (trayOf st t)) else st) s
  .next (setRack s1 { rackOf s1 with cmdStatus := if rackBusy s1 then (rackOf s1).cmdStatus else 0, planLen := 0, planBuf := [],
                                     overRun := 0, underRun := 0 })

end Sys2Proof.Machine
end

