-- ==== Sys2Proof/Machine/Dispatch.lean ====
section
/-! DEFINITION. One arm per command: a direct call of its meaning. -/

namespace Sys2Proof.Machine

def exec (i : Instr) (s : State) : Host.Outcome State Fault Refusal :=
  match i with
  -- Registers and time base (02, 00)
  | .registerWrite agent fn_ off size value => Sys2Proof.Machine.execRegisterWrite agent fn_ off size value s
  | .timeFlitSend => Sys2Proof.Machine.execTimeFlitSend s
  | .timeFlit link txTbc rxTbc master hops aligned offset => Sys2Proof.Machine.execTimeFlit link txTbc rxTbc master hops aligned offset s
  | .holdoverExpiry => Sys2Proof.Machine.execHoldoverExpiry s
  | .masterElection winner => Sys2Proof.Machine.execMasterElection winner s
  | .tbControlWrite agent value => Sys2Proof.Machine.execTbControlWrite agent value s
  | .refclkLoss => Sys2Proof.Machine.execRefclkLoss s
  | .refclkReturn => Sys2Proof.Machine.execRefclkReturn s
  | .opPointUpdate => Sys2Proof.Machine.execOpPointUpdate s
  -- Headland cores: illegal words and integer instructions (05 R119, R122)
  | .illegalInstruction core word => Sys2Proof.Machine.execIllegalInstruction core word s
  | .add core rd rs1 rs2 => Sys2Proof.Machine.execAdd core rd rs1 rs2 s
  | .sub core rd rs1 rs2 => Sys2Proof.Machine.execSub core rd rs1 rs2 s
  | .and core rd rs1 rs2 => Sys2Proof.Machine.execAnd core rd rs1 rs2 s
  | .or core rd rs1 rs2 => Sys2Proof.Machine.execOr core rd rs1 rs2 s
  | .xor core rd rs1 rs2 => Sys2Proof.Machine.execXor core rd rs1 rs2 s
  | .shl core rd rs1 rs2 => Sys2Proof.Machine.execShl core rd rs1 rs2 s
  | .shr core rd rs1 rs2 => Sys2Proof.Machine.execShr core rd rs1 rs2 s
  | .sar core rd rs1 rs2 => Sys2Proof.Machine.execSar core rd rs1 rs2 s
  | .slt core rd rs1 rs2 => Sys2Proof.Machine.execSlt core rd rs1 rs2 s
  | .sltu core rd rs1 rs2 => Sys2Proof.Machine.execSltu core rd rs1 rs2 s
  | .min core rd rs1 rs2 => Sys2Proof.Machine.execMin core rd rs1 rs2 s
  | .max core rd rs1 rs2 => Sys2Proof.Machine.execMax core rd rs1 rs2 s
  | .mul core rd rs1 rs2 => Sys2Proof.Machine.execMul core rd rs1 rs2 s
  | .mulh core rd rs1 rs2 => Sys2Proof.Machine.execMulh core rd rs1 rs2 s
  | .mulhu core rd rs1 rs2 => Sys2Proof.Machine.execMulhu core rd rs1 rs2 s
  | .div core rd rs1 rs2 => Sys2Proof.Machine.execDiv core rd rs1 rs2 s
  | .divu core rd rs1 rs2 => Sys2Proof.Machine.execDivu core rd rs1 rs2 s
  | .rem core rd rs1 rs2 => Sys2Proof.Machine.execRem core rd rs1 rs2 s
  | .remu core rd rs1 rs2 => Sys2Proof.Machine.execRemu core rd rs1 rs2 s
  | .addi core rd rs1 imm => Sys2Proof.Machine.execAddi core rd rs1 imm s
  | .andi core rd rs1 imm => Sys2Proof.Machine.execAndi core rd rs1 imm s
  | .ori core rd rs1 imm => Sys2Proof.Machine.execOri core rd rs1 imm s
  | .xori core rd rs1 imm => Sys2Proof.Machine.execXori core rd rs1 imm s
  | .shiShl core rd rs1 amount => Sys2Proof.Machine.execShiShl core rd rs1 amount s
  | .shiShr core rd rs1 amount => Sys2Proof.Machine.execShiShr core rd rs1 amount s
  | .shiSar core rd rs1 amount => Sys2Proof.Machine.execShiSar core rd rs1 amount s
  | .lui core rd rs1 imm => Sys2Proof.Machine.execLui core rd rs1 imm s
  | .lshi core rd rs1 imm => Sys2Proof.Machine.execLshi core rd rs1 imm s
  | .slti core rd rs1 imm => Sys2Proof.Machine.execSlti core rd rs1 imm s
  -- Headland cores: memory accesses (05 R126, R127)
  | .ldb core rd rs1 imm => Sys2Proof.Machine.execLdb core rd rs1 imm s
  | .ldbu core rd rs1 imm => Sys2Proof.Machine.execLdbu core rd rs1 imm s
  | .ldh core rd rs1 imm => Sys2Proof.Machine.execLdh core rd rs1 imm s
  | .ldhu core rd rs1 imm => Sys2Proof.Machine.execLdhu core rd rs1 imm s
  | .ldw core rd rs1 imm => Sys2Proof.Machine.execLdw core rd rs1 imm s
  | .ldwu core rd rs1 imm => Sys2Proof.Machine.execLdwu core rd rs1 imm s
  | .ldd core rd rs1 imm => Sys2Proof.Machine.execLdd core rd rs1 imm s
  | .ldq core rd rs1 imm => Sys2Proof.Machine.execLdq core rd rs1 imm s
  | .stb core rd rs1 imm => Sys2Proof.Machine.execStb core rd rs1 imm s
  | .sth core rd rs1 imm => Sys2Proof.Machine.execSth core rd rs1 imm s
  | .stw core rd rs1 imm => Sys2Proof.Machine.execStw core rd rs1 imm s
  | .std core rd rs1 imm => Sys2Proof.Machine.execStd core rd rs1 imm s
  | .stq core rd rs1 imm => Sys2Proof.Machine.execStq core rd rs1 imm s
  | .cld core rd rs1 imm => Sys2Proof.Machine.execCld core rd rs1 imm s
  | .cst core rd rs1 imm => Sys2Proof.Machine.execCst core rd rs1 imm s
  | .fld core rd rs1 imm => Sys2Proof.Machine.execFld core rd rs1 imm s
  | .fst core rd rs1 imm => Sys2Proof.Machine.execFst core rd rs1 imm s
  | .atomicSwap core rd rs1 rs2 wide => Sys2Proof.Machine.execAtomicSwap core rd rs1 rs2 wide s
  | .atomicAdd core rd rs1 rs2 wide => Sys2Proof.Machine.execAtomicAdd core rd rs1 rs2 wide s
  | .atomicAnd core rd rs1 rs2 wide => Sys2Proof.Machine.execAtomicAnd core rd rs1 rs2 wide s
  | .atomicOr core rd rs1 rs2 wide => Sys2Proof.Machine.execAtomicOr core rd rs1 rs2 wide s
  | .atomicXor core rd rs1 rs2 wide => Sys2Proof.Machine.execAtomicXor core rd rs1 rs2 wide s
  | .atomicMin core rd rs1 rs2 wide => Sys2Proof.Machine.execAtomicMin core rd rs1 rs2 wide s
  | .atomicMax core rd rs1 rs2 wide => Sys2Proof.Machine.execAtomicMax core rd rs1 rs2 wide s
  | .atomicMinu core rd rs1 rs2 wide => Sys2Proof.Machine.execAtomicMinu core rd rs1 rs2 wide s
  | .atomicMaxu core rd rs1 rs2 wide => Sys2Proof.Machine.execAtomicMaxu core rd rs1 rs2 wide s
  | .cas core rd rs1 rs2 wide => Sys2Proof.Machine.execCas core rd rs1 rs2 wide s
  | .msadd core rd rs1 rs2 fmt => Sys2Proof.Machine.execMsadd core rd rs1 rs2 fmt s
  -- Headland cores: branches, jumps, gates through capabilities (05 R120, R124, 06 R151)
  | .beq core rs1 rs2 imm => Sys2Proof.Machine.execBeq core rs1 rs2 imm s
  | .bne core rs1 rs2 imm => Sys2Proof.Machine.execBne core rs1 rs2 imm s
  | .blt core rs1 rs2 imm => Sys2Proof.Machine.execBlt core rs1 rs2 imm s
  | .bge core rs1 rs2 imm => Sys2Proof.Machine.execBge core rs1 rs2 imm s
  | .bltu core rs1 rs2 imm => Sys2Proof.Machine.execBltu core rs1 rs2 imm s
  | .bgeu core rs1 rs2 imm => Sys2Proof.Machine.execBgeu core rs1 rs2 imm s
  | .jmp core imm => Sys2Proof.Machine.execJmp core imm s
  | .jal core imm => Sys2Proof.Machine.execJal core imm s
  | .cjalr core rd rs1 rs2 => Sys2Proof.Machine.execCjalr core rd rs1 rs2 s
  | .cjalg core rd rs1 rs2 => Sys2Proof.Machine.execCjalg core rd rs1 rs2 s
  -- Headland cores: capabilities (05 R123, 03 R69-R77)
  | .cmov core rd rs1 rs2 => Sys2Proof.Machine.execCmov core rd rs1 rs2 s
  | .csetcur core rd rs1 rs2 => Sys2Proof.Machine.execCsetcur core rd rs1 rs2 s
  | .cinccur core rd rs1 rs2 => Sys2Proof.Machine.execCinccur core rd rs1 rs2 s
  | .cinccuri core rd rs1 imm => Sys2Proof.Machine.execCinccuri core rd rs1 imm s
  | .csetb core rd rs1 rs2 => Sys2Proof.Machine.execCsetb core rd rs1 rs2 s
  | .csetbx core rd rs1 rs2 => Sys2Proof.Machine.execCsetbx core rd rs1 rs2 s
  | .candr core rd rs1 rs2 => Sys2Proof.Machine.execCandr core rd rs1 rs2 s
  | .csetring core rd rs1 rs2 => Sys2Proof.Machine.execCsetring core rd rs1 rs2 s
  | .cseal core rd rs1 rs2 => Sys2Proof.Machine.execCseal core rd rs1 rs2 s
  | .cunseal core rd rs1 rs2 => Sys2Proof.Machine.execCunseal core rd rs1 rs2 s
  | .cclrtag core rd rs1 rs2 => Sys2Proof.Machine.execCclrtag core rd rs1 rs2 s
  | .cqbase core rd rs1 rs2 => Sys2Proof.Machine.execCqbase core rd rs1 rs2 s
  | .cqlen core rd rs1 rs2 => Sys2Proof.Machine.execCqlen core rd rs1 rs2 s
  | .cqrights core rd rs1 rs2 => Sys2Proof.Machine.execCqrights core rd rs1 rs2 s
  | .cqtype core rd rs1 rs2 => Sys2Proof.Machine.execCqtype core rd rs1 rs2 s
  | .cqtag core rd rs1 rs2 => Sys2Proof.Machine.execCqtag core rd rs1 rs2 s
  | .cqring core rd rs1 rs2 => Sys2Proof.Machine.execCqring core rd rs1 rs2 s
  | .cqcur core rd rs1 rs2 => Sys2Proof.Machine.execCqcur core rd rs1 rs2 s
  | .csealh core rd rs1 rs2 => Sys2Proof.Machine.execCsealh core rd rs1 rs2 s
  | .cunsealh core rd rs1 rs2 => Sys2Proof.Machine.execCunsealh core rd rs1 rs2 s
  | .cclrtags core rd rs1 rs2 => Sys2Proof.Machine.execCclrtags core rd rs1 rs2 s
  -- Headland cores: binary64 (05 R125)
  | .fadd core rd rs1 rs2 => Sys2Proof.Machine.execFadd core rd rs1 rs2 s
  | .fsub core rd rs1 rs2 => Sys2Proof.Machine.execFsub core rd rs1 rs2 s
  | .fmul core rd rs1 rs2 => Sys2Proof.Machine.execFmul core rd rs1 rs2 s
  | .fdiv core rd rs1 rs2 => Sys2Proof.Machine.execFdiv core rd rs1 rs2 s
  | .fsqrt core rd rs1 rs2 => Sys2Proof.Machine.execFsqrt core rd rs1 rs2 s
  | .fmin core rd rs1 rs2 => Sys2Proof.Machine.execFmin core rd rs1 rs2 s
  | .fmax core rd rs1 rs2 => Sys2Proof.Machine.execFmax core rd rs1 rs2 s
  | .feq core rd rs1 rs2 => Sys2Proof.Machine.execFeq core rd rs1 rs2 s
  | .flt core rd rs1 rs2 => Sys2Proof.Machine.execFlt core rd rs1 rs2 s
  | .fle core rd rs1 rs2 => Sys2Proof.Machine.execFle core rd rs1 rs2 s
  | .fcvtld core rd rs1 rs2 => Sys2Proof.Machine.execFcvtld core rd rs1 rs2 s
  | .fcvtdl core rd rs1 rs2 => Sys2Proof.Machine.execFcvtdl core rd rs1 rs2 s
  | .fcvtsd core rd rs1 rs2 => Sys2Proof.Machine.execFcvtsd core rd rs1 rs2 s
  | .fcvtds core rd rs1 rs2 => Sys2Proof.Machine.execFcvtds core rd rs1 rs2 s
  | .fmvgf core rd rs1 rs2 => Sys2Proof.Machine.execFmvgf core rd rs1 rs2 s
  | .fmvfg core rd rs1 rs2 => Sys2Proof.Machine.execFmvfg core rd rs1 rs2 s
  | .fma core rd rs1 rs2 rs3 => Sys2Proof.Machine.execFma core rd rs1 rs2 rs3 s
  | .fms core rd rs1 rs2 rs3 => Sys2Proof.Machine.execFms core rd rs1 rs2 rs3 s
  | .fnma core rd rs1 rs2 rs3 => Sys2Proof.Machine.execFnma core rd rs1 rs2 rs3 s
  | .fnms core rd rs1 rs2 rs3 => Sys2Proof.Machine.execFnms core rd rs1 rs2 rs3 s
  -- Headland cores: core state, ordering, synchronisation, queues, gates and traps (05 R140-R143, 06, 16)
  | .csrr core rd csr capForm => Sys2Proof.Machine.execCsrr core rd csr capForm s
  | .csrw core rs1 csr capForm => Sys2Proof.Machine.execCsrw core rs1 csr capForm s
  | .fenceFull core => Sys2Proof.Machine.execFenceFull core s
  | .fenceLoad core => Sys2Proof.Machine.execFenceLoad core s
  | .fenceStore core => Sys2Proof.Machine.execFenceStore core s
  | .isync core => Sys2Proof.Machine.execIsync core s
  | .rdtb core rd => Sys2Proof.Machine.execRdtb core rd s
  | .scinc core rd rs1 rs2 => Sys2Proof.Machine.execScinc core rd rs1 rs2 s
  | .scwait core rd rs1 rs2 => Sys2Proof.Machine.execScwait core rd rs1 rs2 s
  | .scwaitSatisfied core => Sys2Proof.Machine.execScwaitSatisfied core s
  | .screset core rd rs1 rs2 => Sys2Proof.Machine.execScreset core rd rs1 rs2 s
  | .wfi core => Sys2Proof.Machine.execWfi core s
  | .wfiWake core => Sys2Proof.Machine.execWfiWake core s
  | .halt core => Sys2Proof.Machine.execHalt core s
  | .cstart core rd rs1 rs2 rs3 => Sys2Proof.Machine.execCstart core rd rs1 rs2 rs3 s
  | .qput core rd rs1 rs2 queue => Sys2Proof.Machine.execQput core rd rs1 rs2 queue s
  | .gate core k => Sys2Proof.Machine.execGate core k s
  | .retgRs1 core rs1 rs2 => Sys2Proof.Machine.execRetgRs1 core rs1 rs2 s
  | .retgRs1St core rs1 rs2 => Sys2Proof.Machine.execRetgRs1St core rs1 rs2 s
  | .retgBankO core => Sys2Proof.Machine.execRetgBankO core s
  | .retgBankM core => Sys2Proof.Machine.execRetgBankM core s
  | .interruptEntry core => Sys2Proof.Machine.execInterruptEntry core s
  | .machineCheck core => Sys2Proof.Machine.execMachineCheck core s
  | .trapTimerExpiry core => Sys2Proof.Machine.execTrapTimerExpiry core s
  | .watchdogExpiry core => Sys2Proof.Machine.execWatchdogExpiry core s
  | .intSend agent value => Sys2Proof.Machine.execIntSend agent value s
  -- Capability block and ACU (03 R90, 04)
  | .advance agent fn_ => Sys2Proof.Machine.execAdvance agent fn_ s
  | .sealForce agent tenant => Sys2Proof.Machine.execSealForce agent tenant s
  | .epochAdvanceDone tenant => Sys2Proof.Machine.execEpochAdvanceDone tenant s
  | .switch agent => Sys2Proof.Machine.execSwitch agent s
  | .acuCopy agent => Sys2Proof.Machine.execAcuCopy agent s
  | .acuClear agent => Sys2Proof.Machine.execAcuClear agent s
  | .acuSwitch => Sys2Proof.Machine.execAcuSwitch s
  | .acuDrainEnd => Sys2Proof.Machine.execAcuDrainEnd s
  -- Host port (07)
  | .pollScan fn_ stores sqFails cqFails => Sys2Proof.Machine.execPollScan fn_ stores sqFails cqFails s
  | .wakePageWrite fn_ stores sqFails cqFails => Sys2Proof.Machine.execWakePageWrite fn_ stores sqFails cqFails s
  | .descriptorIngest fn_ sq fetchFails => Sys2Proof.Machine.execDescriptorIngest fn_ sq fetchFails s
  | .nop op => Sys2Proof.Machine.execNop op s
  | .copy op hostFail => Sys2Proof.Machine.execCopy op hostFail s
  | .changeSet op hostFail => Sys2Proof.Machine.execChangeSet op hostFail s
  | .changeSetPrepare => Sys2Proof.Machine.execChangeSetPrepare s
  | .changeSetSwitch => Sys2Proof.Machine.execChangeSetSwitch s
  | .changeSetDeadline => Sys2Proof.Machine.execChangeSetDeadline s
  | .coveClearDone cove => Sys2Proof.Machine.execCoveClearDone cove s
  | .completionWrite op => Sys2Proof.Machine.execCompletionWrite op s
  | .cqIntDelayExpiry fn_ cq => Sys2Proof.Machine.execCqIntDelayExpiry fn_ cq s
  | .descriptorTimeout op => Sys2Proof.Machine.execDescriptorTimeout op s
  | .sqCtrlWrite agent fn_ sq value => Sys2Proof.Machine.execSqCtrlWrite agent fn_ sq value s
  | .cqCtrlWrite agent fn_ cq value => Sys2Proof.Machine.execCqCtrlWrite agent fn_ cq value s
  | .tenantStop agent tenant => Sys2Proof.Machine.execTenantStop agent tenant s
  | .tenantResume agent tenant => Sys2Proof.Machine.execTenantResume agent tenant s
  | .functionLevelReset fn_ => Sys2Proof.Machine.execFunctionLevelReset fn_ s
  | .vfDisable enable numVfs => Sys2Proof.Machine.execVfDisable enable numVfs s
  | .linkDown => Sys2Proof.Machine.execLinkDown s
  | .hostLinkTraining flit rate width => Sys2Proof.Machine.execHostLinkTraining flit rate width s
  -- Strand cores (08 R236)
  | .strandNop core => Sys2Proof.Machine.execStrandNop core s
  | .mpy core d fa fb sg qi moves => Sys2Proof.Machine.execMpy core d fa fb sg qi moves s
  | .mac core d fa fb sg qi moves => Sys2Proof.Machine.execMac core d fa fb sg qi moves s
  | .msu core d fa fb sg qi moves => Sys2Proof.Machine.execMsu core d fa fb sg qi moves s
  | .move core d fa fb sg qi moves => Sys2Proof.Machine.execMove core d fa fb sg qi moves s
  | .clr core d reg u imm moves => Sys2Proof.Machine.execClr core d reg u imm moves s
  | .adda core d reg u imm moves => Sys2Proof.Machine.execAdda core d reg u imm moves s
  | .suba core d reg u imm moves => Sys2Proof.Machine.execSuba core d reg u imm moves s
  | .neg core d reg u imm moves => Sys2Proof.Machine.execNeg core d reg u imm moves s
  | .abs core d reg u imm moves => Sys2Proof.Machine.execAbs core d reg u imm moves s
  | .sha core d reg u imm moves => Sys2Proof.Machine.execSha core d reg u imm moves s
  | .lda core d reg u imm moves => Sys2Proof.Machine.execLda core d reg u imm moves s
  | .addr core d reg u imm moves => Sys2Proof.Machine.execAddr core d reg u imm moves s
  | .subr core d reg u imm moves => Sys2Proof.Machine.execSubr core d reg u imm moves s
  | .movr core d reg u imm moves => Sys2Proof.Machine.execMovr core d reg u imm moves s
  | .movp core d reg u imm moves => Sys2Proof.Machine.execMovp core d reg u imm moves s
  | .movm core d reg u imm moves => Sys2Proof.Machine.execMovm core d reg u imm moves s
  | .movg core d reg u imm moves => Sys2Proof.Machine.execMovg core d reg u imm moves s
  | .setp core d reg u imm moves => Sys2Proof.Machine.execSetp core d reg u imm moves s
  | .setm core d reg u imm moves => Sys2Proof.Machine.execSetm core d reg u imm moves s
  | .setg core d reg u imm moves => Sys2Proof.Machine.execSetg core d reg u imm moves s
  | .strandLoad core p mode reg => Sys2Proof.Machine.execStrandLoad core p mode reg s
  | .strandStore core p mode reg => Sys2Proof.Machine.execStrandStore core p mode reg s
  | .ldi core reg imm => Sys2Proof.Machine.execLdi core reg imm s
  | .strandAddi core reg imm => Sys2Proof.Machine.execStrandAddi core reg imm s
  | .mov core rd rs moves => Sys2Proof.Machine.execMov core rd rs moves s
  | .strandAdd core rd rs moves => Sys2Proof.Machine.execStrandAdd core rd rs moves s
  | .strandSub core rd rs moves => Sys2Proof.Machine.execStrandSub core rd rs moves s
  | .strandAnd core rd rs moves => Sys2Proof.Machine.execStrandAnd core rd rs moves s
  | .strandOr core rd rs moves => Sys2Proof.Machine.execStrandOr core rd rs moves s
  | .strandXor core rd rs moves => Sys2Proof.Machine.execStrandXor core rd rs moves s
  | .cmp core rd rs moves => Sys2Proof.Machine.execCmp core rd rs moves s
  | .cmpu core rd rs moves => Sys2Proof.Machine.execCmpu core rd rs moves s
  | .br core cond target => Sys2Proof.Machine.execBr core cond target s
  | .strandRepeat core rsel reg n => Sys2Proof.Machine.execStrandRepeat core rsel reg n s
  | .loop core rot reg le => Sys2Proof.Machine.execLoop core rot reg le s
  | .strandHalt core code => Sys2Proof.Machine.execStrandHalt core code s
  | .dma core dir ch pb pl => Sys2Proof.Machine.execDma core dir ch pb pl s
  | .strandDmaDone core => Sys2Proof.Machine.execStrandDmaDone core s
  | .waitd core k => Sys2Proof.Machine.execWaitd core k s
  | .waitdResume core => Sys2Proof.Machine.execWaitdResume core s
  | .reti core => Sys2Proof.Machine.execReti core s
  | .strandInterrupt core => Sys2Proof.Machine.execStrandInterrupt core s
  | .strAttn agent value => Sys2Proof.Machine.execStrAttn agent value s
  | .strandGroupOffline agent group => Sys2Proof.Machine.execStrandGroupOffline agent group s
  | .strandGroupReset agent group => Sys2Proof.Machine.execStrandGroupReset agent group s
  | .run op => Sys2Proof.Machine.execRun op s
  | .strandStop op => Sys2Proof.Machine.execStrandStop op s
  -- Video coding unit (09)
  | .vcuConfig op => Sys2Proof.Machine.execVcuConfig op s
  | .encode op => Sys2Proof.Machine.execEncode op s
  | .decode op => Sys2Proof.Machine.execDecode op s
  | .flush op => Sys2Proof.Machine.execFlush op s
  | .keyRequest op => Sys2Proof.Machine.execKeyRequest op s
  | .pictureStart pipe => Sys2Proof.Machine.execPictureStart pipe s
  | .ctuRowBegin pipe => Sys2Proof.Machine.execCtuRowBegin pipe s
  | .pictureEnd pipe upset => Sys2Proof.Machine.execPictureEnd pipe upset s
  | .decodeWatchdog pipe => Sys2Proof.Machine.execDecodeWatchdog pipe s
  | .vcuOffline agent => Sys2Proof.Machine.execVcuOffline agent s
  | .vcuReset agent => Sys2Proof.Machine.execVcuReset agent s
  -- Gather engines (10)
  | .gatherRows op => Sys2Proof.Machine.execGatherRows op s
  | .scatterRows op => Sys2Proof.Machine.execScatterRows op s
  | .walk op => Sys2Proof.Machine.execWalk op s
  | .indexCheckRetire cove => Sys2Proof.Machine.execIndexCheckRetire cove s
  | .geOffline agent cove => Sys2Proof.Machine.execGeOffline agent cove s
  | .geReset agent cove => Sys2Proof.Machine.execGeReset agent cove s
  -- Embedding tables (11)
  | .tableDefine op => Sys2Proof.Machine.execTableDefine op s
  | .tableSwitch op => Sys2Proof.Machine.execTableSwitch op s
  | .lookup op => Sys2Proof.Machine.execLookup op s
  | .update op => Sys2Proof.Machine.execUpdate op s
  | .tableRetire op => Sys2Proof.Machine.execTableRetire op s
  | .skewWindowEnd => Sys2Proof.Machine.execSkewWindowEnd s
  | .migrationCopyDone entry => Sys2Proof.Machine.execMigrationCopyDone entry s
  | .recordDrainEnd table => Sys2Proof.Machine.execRecordDrainEnd table s
  | .embOffline agent => Sys2Proof.Machine.execEmbOffline agent s
  | .embReset agent => Sys2Proof.Machine.execEmbReset agent s
  -- Dense transform arrays (12)
  | .matmul op => Sys2Proof.Machine.execMatmul op s
  | .segmentSum op => Sys2Proof.Machine.execSegmentSum op s
  | .dtaOffline agent cove => Sys2Proof.Machine.execDtaOffline agent cove s
  | .dtaReset agent cove => Sys2Proof.Machine.execDtaReset agent cove s
  -- Stacked memory (14)
  | .hbmTempReading stack reading => Sys2Proof.Machine.execHbmTempReading stack reading s
  | .cattrip stack => Sys2Proof.Machine.execCattrip stack s
  | .patrolScrub addr syndrome speculative => Sys2Proof.Machine.execPatrolScrub addr syndrome speculative s
  | .hbmRefresh stack bank => Sys2Proof.Machine.execHbmRefresh stack bank s
  | .segmentZeroed segment => Sys2Proof.Machine.execSegmentZeroed segment s
  | .memorySideAdd op tenant fmt addr addend => Sys2Proof.Machine.execMemorySideAdd op tenant fmt addr addend s
  | .hbmThermWrite agent value => Sys2Proof.Machine.execHbmThermWrite agent value s
  | .hbmPhyRelock => Sys2Proof.Machine.execHbmPhyRelock s
  | .hbmRelockTimeout stack => Sys2Proof.Machine.execHbmRelockTimeout stack s
  -- Fabric links (15 R388-R398)
  | .laneRotation port => Sys2Proof.Machine.execLaneRotation port s
  | .laneMove port clean => Sys2Proof.Machine.execLaneMove port clean s
  | .flitTransmit port vc => Sys2Proof.Machine.execFlitTransmit port vc s
  | .idleFlit link => Sys2Proof.Machine.execIdleFlit link s
  | .badFlit port uncorrectable => Sys2Proof.Machine.execBadFlit port uncorrectable s
  | .nak link => Sys2Proof.Machine.execNak link s
  | .retrainRequest link => Sys2Proof.Machine.execRetrainRequest link s
  | .laneLockLoss port => Sys2Proof.Machine.execLaneLockLoss port s
  | .portRetrain agent port => Sys2Proof.Machine.execPortRetrain agent port s
  | .retrainComplete port ok badLane => Sys2Proof.Machine.execRetrainComplete port ok badLane s
  | .linkTrainingDone port => Sys2Proof.Machine.execLinkTrainingDone port s
  | .identityFlit link serial farPort trayPos tray rack => Sys2Proof.Machine.execIdentityFlit link serial farPort trayPos tray rack s
  | .withdraw link => Sys2Proof.Machine.execWithdraw link s
  | .portFence agent port => Sys2Proof.Machine.execPortFence agent port s
  | .portUnfence agent port => Sys2Proof.Machine.execPortUnfence agent port s
  -- Fabric messages (15 R399-R409)
  | .messageForward link msg => Sys2Proof.Machine.execMessageForward link msg s
  | .read link src tenant addr rid len access => Sys2Proof.Machine.execRead link src tenant addr rid len access s
  | .write link src tenant addr rid payload access => Sys2Proof.Machine.execWrite link src tenant addr rid payload access s
  | .remoteCld link src tenant addr rid ldc => Sys2Proof.Machine.execRemoteCld link src tenant addr rid ldc s
  | .remoteCst link src tenant addr rid value tag => Sys2Proof.Machine.execRemoteCst link src tenant addr rid value tag s
  | .atomic link src tenant addr rid func operand compare => Sys2Proof.Machine.execAtomic link src tenant addr rid func operand compare s
  | .remoteMsadd link src tenant addr rid fmt addend => Sys2Proof.Machine.execRemoteMsadd link src tenant addr rid fmt addend s
  | .readRsp link rid status payload => Sys2Proof.Machine.execReadRsp link rid status payload s
  | .writeRsp link rid status => Sys2Proof.Machine.execWriteRsp link rid status s
  | .cldRsp link rid status value tag => Sys2Proof.Machine.execCldRsp link rid status value tag s
  | .cstRsp link rid status => Sys2Proof.Machine.execCstRsp link rid status s
  | .atomicRsp link rid status old => Sys2Proof.Machine.execAtomicRsp link rid status old s
  | .msaddRsp link rid status => Sys2Proof.Machine.execMsaddRsp link rid status s
  | .requestTimeout rid => Sys2Proof.Machine.execRequestTimeout rid s
  -- Collectives and sync registers (15 R410-R420, 16 R438)
  | .allReduce op => Sys2Proof.Machine.execAllReduce op s
  | .reduceScatter op => Sys2Proof.Machine.execReduceScatter op s
  | .allGather op => Sys2Proof.Machine.execAllGather op s
  | .broadcast op => Sys2Proof.Machine.execBroadcast op s
  | .barrier op => Sys2Proof.Machine.execBarrier op s
  | .collJoin link object join => Sys2Proof.Machine.execCollJoin link object join s
  | .collData link object generation index flags payload poison tenant => Sys2Proof.Machine.execCollData link object generation index flags payload poison tenant s
  | .collAbort link object generation device lost tenant => Sys2Proof.Machine.execCollAbort link object generation device lost tenant s
  | .fabBarWrite agent object value => Sys2Proof.Machine.execFabBarWrite agent object value s
  | .scValueWrite agent counter value => Sys2Proof.Machine.execScValueWrite agent counter value s
  -- Power, heat and wear (17)
  | .governorStep power demand => Sys2Proof.Machine.execGovernorStep power demand s
  | .fillHoldExpiry => Sys2Proof.Machine.execFillHoldExpiry s
  | .junctionReading hottest failed => Sys2Proof.Machine.execJunctionReading hottest failed s
  | .junctionTrip => Sys2Proof.Machine.execJunctionTrip s
  | .dipBegin rail mv => Sys2Proof.Machine.execDipBegin rail mv s
  | .rideThroughExpiry rail => Sys2Proof.Machine.execRideThroughExpiry rail s
  | .dipEnd rail minMv => Sys2Proof.Machine.execDipEnd rail minMv s
  | .pcieL0Timeout => Sys2Proof.Machine.execPcieL0Timeout s
  | .railFail rail reading => Sys2Proof.Machine.execRailFail rail reading s
  | .supplyResetRelease => Sys2Proof.Machine.execSupplyResetRelease s
  | .canarySample rates => Sys2Proof.Machine.execCanarySample rates s
  | .wearSample meanW => Sys2Proof.Machine.execWearSample meanW s
  | .pwrPolicyWrite agent value => Sys2Proof.Machine.execPwrPolicyWrite agent value s
  | .tjThermWrite agent value => Sys2Proof.Machine.execTjThermWrite agent value s
  -- Tray and rack (18)
  | .tmcSample tray sample => Sys2Proof.Machine.execTmcSample tray sample s
  | .regulatorDisable tray => Sys2Proof.Machine.execRegulatorDisable tray s
  | .regulatorPoll tray faults => Sys2Proof.Machine.execRegulatorPoll tray faults s
  | .tmcHeartbeat tray => Sys2Proof.Machine.execTmcHeartbeat tray s
  | .heartbeatLoss tray => Sys2Proof.Machine.execHeartbeatLoss tray s
  | .mainPowerLost tray => Sys2Proof.Machine.execMainPowerLost tray s
  | .cellCutoff tray mv => Sys2Proof.Machine.execCellCutoff tray mv s
  | .mainPowerRestored tray sample => Sys2Proof.Machine.execMainPowerRestored tray sample s
  | .alarmAck tray => Sys2Proof.Machine.execAlarmAck tray s
  | .rackMeasure watts inletMilliC flowCentiL => Sys2Proof.Machine.execRackMeasure watts inletMilliC flowCentiL s
  | .rackOverStep => Sys2Proof.Machine.execRackOverStep s
  | .trayPowerUp tray => Sys2Proof.Machine.execTrayPowerUp tray s
  | .serviceEnter => Sys2Proof.Machine.execServiceEnter s
  | .drainComplete => Sys2Proof.Machine.execDrainComplete s
  | .drainTimeout => Sys2Proof.Machine.execDrainTimeout s
  | .serviceExit => Sys2Proof.Machine.execServiceExit s
  | .planCommit => Sys2Proof.Machine.execPlanCommit s
  | .fenceTray tray => Sys2Proof.Machine.execFenceTray tray s
  | .alarmClear tray mask => Sys2Proof.Machine.execAlarmClear tray mask s
  | .laneTestEnd results others => Sys2Proof.Machine.execLaneTestEnd results others s
  | .laneHourlyRead reads => Sys2Proof.Machine.execLaneHourlyRead reads s
  | .lanePeriodEvaluation => Sys2Proof.Machine.execLanePeriodEvaluation s
  | .read32 op hdr => Sys2Proof.Machine.execRead32 op hdr s
  | .write32 hdr payload => Sys2Proof.Machine.execWrite32 hdr payload s
  | .read64 hdr => Sys2Proof.Machine.execRead64 hdr s
  | .write64 hdr payload => Sys2Proof.Machine.execWrite64 hdr payload s
  | .filePut hdr payload => Sys2Proof.Machine.execFilePut hdr payload s
  | .fileGet hdr => Sys2Proof.Machine.execFileGet hdr s
  | .rmRestart => Sys2Proof.Machine.execRmRestart s
  | .tmcRestart tray => Sys2Proof.Machine.execTmcRestart tray s
  -- Start-up and firmware (19)
  | .perstRelease => Sys2Proof.Machine.execPerstRelease s
  | .perstAssert => Sys2Proof.Machine.execPerstAssert s
  | .pwrgdRise => Sys2Proof.Machine.execPwrgdRise s
  | .pwrgdFall => Sys2Proof.Machine.execPwrgdFall s
  | .deviceReset agent confirm => Sys2Proof.Machine.execDeviceReset agent confirm s
  | .startupMemoriesZeroed => Sys2Proof.Machine.execStartupMemoriesZeroed s
  | .bootRecordRead => Sys2Proof.Machine.execBootRecordRead s
  | .stackTrainingDone tripped => Sys2Proof.Machine.execStackTrainingDone tripped s
  | .imageLoaded readError => Sys2Proof.Machine.execImageLoaded readError s
  | .bootOk agent => Sys2Proof.Machine.execBootOk agent s
  | .bootDeadlineExpiry => Sys2Proof.Machine.execBootDeadlineExpiry s
  | .aliasOff agent => Sys2Proof.Machine.execAliasOff agent s
  | .install agent => Sys2Proof.Machine.execInstall agent s
  | .select agent now => Sys2Proof.Machine.execSelect agent now s
  | .settingsCommit agent => Sys2Proof.Machine.execSettingsCommit agent s
  | .raiseSvn agent => Sys2Proof.Machine.execRaiseSvn agent s
  | .revokeKey agent key => Sys2Proof.Machine.execRevokeKey agent key s
  | .fwRequestDone writeError readError => Sys2Proof.Machine.execFwRequestDone writeError readError s
  -- Errors (20)
  | .fenceDevice agent confirm => Sys2Proof.Machine.execFenceDevice agent confirm s
  | .errImport agent value => Sys2Proof.Machine.execErrImport agent value s
  | .correctedRateWindow source => Sys2Proof.Machine.execCorrectedRateWindow source s
  -- Management bus (21 R550-R552)
  | .regWrite32 off value pecOk => Sys2Proof.Machine.execRegWrite32 off value pecOk s
  | .regWrite64 off value pecOk => Sys2Proof.Machine.execRegWrite64 off value pecOk s
  | .regAddr off width pecOk => Sys2Proof.Machine.execRegAddr off width pecOk s
  | .regRead pecOk => Sys2Proof.Machine.execRegRead pecOk s
  | .place trayPos tray rack pecOk => Sys2Proof.Machine.execPlace trayPos tray rack pecOk s
  | .plan text pecOk => Sys2Proof.Machine.execPlan text pecOk s
  | .planEnd value pecOk => Sys2Proof.Machine.execPlanEnd value pecOk s
  | .record pecOk => Sys2Proof.Machine.execRecord pecOk s
  | .status pecOk => Sys2Proof.Machine.execStatus pecOk s
  -- Boundary scan (21 R553, R554)
  | .extest pins tdi => Sys2Proof.Machine.execExtest pins tdi s
  | .idcode tdi => Sys2Proof.Machine.execIdcode tdi s
  | .samplePreload pins tdi => Sys2Proof.Machine.execSamplePreload pins tdi s
  | .clamp pins tdi => Sys2Proof.Machine.execClamp pins tdi s
  | .highz pins tdi => Sys2Proof.Machine.execHighz pins tdi s
  | .bypass opcode tdi => Sys2Proof.Machine.execBypass opcode tdi s
  -- Reference clocks and other events (21 R565, 14 R386, 04 R111, 08 R238, 19 R502, 17 R446)
  | .fabClkLoss => Sys2Proof.Machine.execFabClkLoss s
  | .fabClkLossTimeout => Sys2Proof.Machine.execFabClkLossTimeout s
  | .fabClkReturn => Sys2Proof.Machine.execFabClkReturn s
  | .hbmPhyRelockDone stack => Sys2Proof.Machine.execHbmPhyRelockDone stack s
  | .acuWritebackDone => Sys2Proof.Machine.execAcuWritebackDone s
  | .engineResetDone queue => Sys2Proof.Machine.execEngineResetDone queue s
  | .tbPllLocked => Sys2Proof.Machine.execTbPllLocked s
  | .tapReset => Sys2Proof.Machine.execTapReset s
  | .vcoreSlewStep => Sys2Proof.Machine.execVcoreSlewStep s

end Sys2Proof.Machine
end

