-- ==== Sys2Proof/Machine/Strikes.lean ====
section
/-! DEFINITION. Errors that no command brings: what Vesol does when a check code or parity finds one (spec 04 R117; 05 R147; 08
R245; 09 R276; 10 R300; 11 R326; 12 R350; 14 R366, R370; 15 R423; 16 R444; 20 R524 to R529, R545), and the tick that passes
while no command waits. -/

namespace Sys2Proof.Machine

/-- End the operation `lost` that used an engine's memory, with POISON for an uncorrectable error there: UE and the record come first
(20 R535). The engine of queue `q` in reset has ended it already, and the record is still written (20 R543). -/
def engineLost (s : State) (lost : Option Op) (q err bit source unit owner : Nat) : State :=
  let event (tenant : Nat) (payload : List Byte) : ErrEvent :=
    { cls := 3, source := source, unit := unit, code := 1, tenant := tenant, action := 3, addr := 0, payload := payload }
  match lost with
  | some o => dropEnded (endOp (recordEvent (regOr s err (2 ^ bit)) (event o.tenant.toNat (opPayload o 6 0))) o.id (compl 6 0 0 0))
  | none =>
    if sget markDflt s.resetting q then recordEvent (regOr s err (2 ^ bit)) (event owner []) else s

/-- The operation of another cove whose walk has the gather engine of cove `c` fetch a part for it (10 R287). -/
def walkServed (s : State) (c : Nat) : Option Op :=
  s.ops.find? (fun o => o.phase == .running && s.walks.any (fun e => e.1 != c && e.2.op == o.id && walkFetches e.2 c))
/-- The operation that uses the struck memory of a gather engine: its own, or the one that it fetches a part for. -/
def gatherUser (s : State) (c : Nat) (part : Bool) : Option Op := if part then walkServed s c else runningOn s (0x20 + c)

/-- A cove granule (20 R529). -/
def granuleStrike (s : State) (a : Nat) (multi : Bool) : State :=
  match regionOf a with
  | .cove n =>
    if !accessReady s a || poisonAt s a then s
    else if !multi then corrected s 0x0F Reg.coveCorrected
    else
      let u := alignDown a 16
      recordEvent (regOr (poisonUnit s u) Reg.coveErr (2 ^ n))
        { cls := 2, source := 0x0F, unit := n, code := 1, tenant := 0xFF, action := 2, addr := u, payload := [] }
  | _ => s

/-- A strand word: an uncorrectable one is poison to whoever reads it (08 R245). -/
def strandStrike (s : State) (a : Nat) (multi : Bool) : State :=
  match regionOf a with
  | .strandX _ | .strandY _ | .strandP _ => 
    if poisonAt s a then s
    else if multi then poisonUnit { s with wordsRecorded := sset markDflt s.wordsRecorded (unitOf a).1 false } a
    else corrected s 4 Reg.strCorrected
  | _ => s

/-- A core's data cache without a line. -/
def lineGone (s : State) (k line : Nat) : State := setCore s k { coreOf s k with dcache := serase (coreOf s k).dcache line }
/-- A data-cache line (05 R147): a single-bit error is corrected in place; an uncorrectable one in a clean line is repaired by
fetching it again, and in a dirty line loses the granule, which is written back poisoned. Host memory holds no poison, and
nothing is written there (20 R528). -/
def dataStrike (s : State) (k a : Nat) (multi : Bool) : State :=
  let line := alignDown a 64
  match (coreOf s k).dcache.find? (fun e => e.1 == line) with
  | none => s
  | some e =>
    if !multi then corrected s 1 Reg.hlCorrected
    else if !e.2.dirty then corrected (lineGone s k line) 1 Reg.hlCorrected
    else
      let g := alignDown a 16
      let s1 := recordEvent (regOr (lineGone s k line) Reg.hlErr (2 ^ k))
        { cls := 2, source := 1, unit := k, code := 1, tenant := e.2.tenant.toNat, action := 2, addr := g, payload := [] }
      if regionOf g = .host then s1 else (unitsOf g 16).foldl (fun st u => poisonUnit st u.1) s1
/-- An instruction line is fetched again (05 R147). -/
def codeStrike (s : State) (k a : Nat) : State :=
  let line := alignDown a 64
  if (coreOf s k).icache.any (fun e => e.1 == line) then
    corrected (setCore s k { coreOf s k with icache := serase (coreOf s k).icache line }) 1 Reg.hlCorrected
  else s

/-- A rule becomes bad: the first read of it finds and reports that (04 R117). -/
def ruleStrike (s : State) (bank : Bool) (i : Nat) : State :=
  if acuBad s.acu bank i != 0 then s
  else if bank then { s with acu := { s.acu with bad1 := sset (fun _ => 0) s.acu.bad1 i 1 } }
  else { s with acu := { s.acu with bad0 := sset (fun _ => 0) s.acu.bad0 i 1 } }

/-- An embedding record (11 R326; 20 R525). -/
def embRecord (s : State) (code : Nat) : State :=
  recordEvent (regOr s Reg.embErr 1)
    { cls := 1, source := 7, unit := 0, code := code, tenant := 0xFF, action := 1, addr := 0, payload := [] }
/-- A directory entry: an uncorrectable one retires, so that reads go home (11 R326). -/
def directoryStrike (s : State) (k : Nat) (multi : Bool) : State :=
  if !s.dir.any (fun e => e.1 == k) then s
  else if multi then embRecord { s with dir := serase s.dir k } 1 else corrected s 7 Reg.embCorrected
/-- The candidate pairs: an uncorrectable error discards the window's (11 R326). -/
def pairsStrike (s : State) (multi : Bool) : State :=
  if s.skewPairs = [] then s else if multi then embRecord { s with skewPairs := [] } 2 else corrected s 7 Reg.embCorrected

/-- A fabric event of 15 R423 (20 R525). -/
def fabricRecord (s : State) (cls unit code tenant action : Nat) (payload : List Byte) : State :=
  recordEvent (regOr s Reg.fabErr 4)
    { cls := cls, source := 0x0A, unit := unit, code := code, tenant := tenant, action := action, addr := 0, payload := payload }
/-- A replay buffer: an uncorrectable error fences the port with reason 2 (15 R423). -/
def replayStrike (s : State) (p : Nat) (multi : Bool) : State :=
  if 12 ≤ p || !portUp s p then s
  else if multi then fencePort (fabricRecord s 4 p 2 0xFF 4 []) p 2 else corrected s 0x0A Reg.fabCorrected
/-- A routing entry: an uncorrectable one acts as REACH 0 until it is next written (15 R423). -/
def routeStrike (s : State) (d : Nat) (multi : Bool) : State :=
  if multi then setRoute (fabricRecord s 4 0 3 0xFF 4 []) d ((regGet s (Reg.route d)).toNat / 2 * 2) else corrected s 0x0A Reg.fabCorrected
/-- Collective state: an uncorrectable error ends the collective with POISON here and aborts the other members (15 R416, R423). -/
def collectiveStrike (s : State) (b : Nat) (multi : Bool) : State :=
  match (objOf s b).run with
  | none => s
  | some r =>
    if !multi then corrected s 0x0A Reg.fabCorrected
    else
      match findOp s r.op with
      | none => s
      | some o => dropEnded (endOp (fabricRecord s 3 b 4 o.tenant.toNat 3 (opPayload o 6 0)) o.id (compl 6 0 0 0))

/-- The tenant whose range holds a counter, 0 when none does. -/
def counterTenant (s : State) (n : Nat) : Nat := ((List.range 129).find? (fun t => t != 0 && scInRange s t n)).getD 0
/-- A sync counter (16 R444): an uncorrectable error poisons it. -/
def counterStrike (s : State) (n : Nat) (multi : Bool) : State :=
  if scPoisoned s n then s
  else if !multi then corrected s 0x0B Reg.scCorrected
  else
    let s1 := regSetFld (regOr (regOr s (Reg.scPoison (n / 32)) (2 ^ (n % 32))) Reg.scErr 1) Reg.scErr 8 8 n
    recordEvent s1 { cls := 2, source := 0x0B, unit := n, code := 1, tenant := counterTenant s n, action := 2, addr := 0, payload := [] }

/-- A log slot: its CRC is written as a failing value (20 R545), the complement of the one that passes; which one is the model's choice. -/
def logStrike (s : State) (i : Nat) : State :=
  let r := getRecord s 0 (0xE8000 + 0x80 * i)
  if numAt r 0 4 = 0 then s else putRecord s 0 (0xE8000 + 0x80 * i) (r.take 124 ++ toBytes 4 (~~~crc32 (r.take 124)).toNat)

/-- The errors block has failed to write the newest record (20 R545): its slot holds none, and that is itself a class 5 event, which
fences and resets the device (20 R540); an escalation wins over the reset (20 R543). R525 gives the event no source or code of its own
(log entry 40). -/
def writeStrike (s : State) : State :=
  if regGet s Reg.errSeq = 0 then s
  else
    let (v, s1) := freeNext (logStrike s ((regGet s Reg.errSeq).toNat % 256))
    let (escalated, s2) := recordDevice s1 { cls := 5, source := 0x10, unit := 0, code := v.toNat % 2 ^ 16, tenant := 0xFF, action := 9,
                                             addr := 0, payload := [] }
    if escalated then s2 else deviceReset (selfFence s2)

/-- A codeword with corrected symbols (15 R391), and bit errors of the PRBS on the spare lane (15 R390). -/
def fecStrike (s : State) (p n : Nat) : State := if portLinked s p then regWrapAdd s (Reg.portFecCorr p) n else s
def spareStrike (s : State) (p n : Nat) : State :=
  if portLinked s p then regSatAdd s (Reg.lanePrbs (8 * p + spareLane s p)) 32 n else s

/-- What an error does. -/
def strikeEffect (s : State) (k : Strike) : State :=
  match k with
  | .unit a x => if unitReadable s a then unitRead s a x 0 else s
  | .onDie n => if s.hbm.trained && !stackOffline s n.toNat then correctedStack s n.toNat else s
  | .parity a tries x => if unitReadable s a && decide (3 < tries) then unitLost s (alignDown a 32) x 0 else s
  | .granule a m => granuleStrike s a m
  | .strandWord a m => strandStrike s a m
  | .dataLine c a m => dataStrike s c.toNat a m
  | .codeLine c a => codeStrike s c.toNat a
  | .rule b i => ruleStrike s b i.toNat
  | .gather c m part =>
    if m then engineLost s (gatherUser s c.toNat part) (0x20 + c.toNat) Reg.geErr 0 6 c.toNat (coveOwnerOf s c.toNat).toNat else corrected s 6 Reg.geCorrected
  | .video => corrected s 5 Reg.vcuCorrected
  | .weight c => if (runningOn s c.toNat).isSome then corrected s 8 Reg.dtaCorrected else s
  | .accumulator c m =>
    if m then engineLost s (runningOn s c.toNat) c.toNat Reg.dtaErr 0 8 c.toNat (coveOwnerOf s c.toNat).toNat else corrected s 8 Reg.dtaCorrected
  | .directory e m => directoryStrike s e m
  | .pairs m => pairsStrike s m
  | .replay p m => replayStrike s p.toNat m
  | .route d m => routeStrike s d.toNat m
  | .collective b m => collectiveStrike s b.toNat m
  | .counter n m => counterStrike s n.toNat m
  | .fec p n => fecStrike s p.toNat n.toNat
  | .spareBits p n => spareStrike s p.toNat n.toNat
  | .logSlot i => logStrike s i.toNat
  | .recordWrite => writeStrike s

/-- The error of this tick, if one strikes; none while the device is held in reset. -/
def strikeTick (s : State) : State :=
  match Config.strike s.freeCtr with
  | some k => if inReset s then s else strikeEffect s k
  | none => s

/-- One nanosecond passes while no command waits (log entry 3): the time base advances, the start-up path takes up step 1, an error may
strike, the encode pipes code, and the gather engines run ahead. -/
def idle (s : State) : State :=
  let s1 := strikeTick (startTick { s with tbc := s.tbc + 1 })
  runAheadTick (encodeTick { s1 with freeCtr := s1.freeCtr + 1 })

end Sys2Proof.Machine
end

