-- ==== Sys2Proof/Safety.lean ====
section
/-! DEFINITION. What counts as a safe run, and the terms in which the statements speak: a command's answer, and what a
command left alone. -/

namespace Sys2Proof.Machine

/-- The outcome is a next state. -/
def Safe {σ φ ρ : Type} : Host.Outcome σ φ ρ → Prop
  | .next _ => True
  | _ => False

/-- The data, tags and poison of local memory, and host memory as last known, are canonical. -/
def State.memWf (s : State) : Bool :=
  Memory.wf memDflt s.mem && Memory.wf markDflt s.tags && Memory.wf markDflt s.poison && Memory.wf memDflt s.hostMem

/-- The command answers a next state, and `P` holds of it. -/
def Answers (c : Instr) (s : State) (P : State → Prop) : Prop := ∃ t, exec c s = .next t ∧ P t

/-- Every set-up register whose key is not in `K` reads as before. -/
def RegsKept (K : Nat → Bool) (s t : State) : Prop := ∀ k, K k = false → sget regReset t.regs k = sget regReset s.regs k

/-- Nothing but set-up registers changed, and of them only those whose keys are in `K`. -/
def OnlyRegs (K : Nat → Bool) (s t : State) : Prop := t = { s with regs := t.regs } ∧ RegsKept K s t

/-- Registers that writing an error record touches (20 R536, R542): INT_PENDn of the core told, the error block with its
log, the tenant views. -/
def errKey (k : Nat) : Bool :=
  (decide (0x21100 ≤ k) && decide (k < 0x21140)) || (decide (0xE0000 ≤ k) && decide (k < 0xF0000)) ||
  (decide (0x100000 ≤ k) && decide (0x3000 ≤ k % 0x100000) && decide (k % 0x100000 < 0x4000))

/-- Registers that a rule check touches when it finds a rule of bad parity or denies (04 R108, R114, R117). -/
def acuKey (k : Nat) : Bool := errKey k || (decide (0x10018 ≤ k) && decide (k < 0x1002C))

/-- A rule check was made: only the registers of `acuKey`, and which bad rules have been found, may differ. -/
def RuleChecked (s t : State) : Prop :=
  t = { s with regs := t.regs, acu := { s.acu with bad0 := t.acu.bad0, bad1 := t.acu.bad1 } } ∧ RegsKept acuKey s t

/- Headland cores -/

/-- Core `n` fetches its next instruction and nothing stops it there (05 R120, R160; 06 R156, R158, R168): it executes, no
interrupt and no watchdog goes first, the checks of the fetch pass, the memory answers now and holds no poison at the program
counter. -/
def HlFetches (s : State) (n : Nat) : Prop :=
  executing s n = true ∧ boundaryDue s n = false ∧
  (fetchCheck s (coreOf s n).exc (coreTenant (coreOf s n))).1 = none ∧
  accessReady (fetchCheck s (coreOf s n).exc (coreTenant (coreOf s n))).2.2 (localPart (capCursor (coreOf s n).exc).toNat) = true ∧
  poisonIn (fetchCheck s (coreOf s n).exc (coreTenant (coreOf s n))).2.2 (localPart (capCursor (coreOf s n).exc).toNat) 4 = false

/-- The state in which the body of an instruction runs, and whether its fetch missed the instruction cache. -/
def hlFetched (s : State) (n : Nat) : Bool × State :=
  let r := icacheAccess (fetchCheck s (coreOf s n).exc (coreTenant (coreOf s n))).2.2 n
    (alignDown (localPart (capCursor (coreOf s n).exc).toNat) 64) (coreTenant (coreOf s n))
    (fetchCheck s (coreOf s n).exc (coreTenant (coreOf s n))).2.1
  (r.1, setCore r.2 n { coreOf r.2 n with begun := false, fetched := none })

/-- `c'` is `c` but for cache lines that have left it (05 R134: another tenant's copies). -/
def LinesLeft (c c' : HlCore) : Prop :=
  c' = { c with icache := c'.icache, dcache := c'.dcache } ∧ (∀ e ∈ c'.icache, e ∈ c.icache) ∧ ∀ e ∈ c'.dcache, e ∈ c.dcache

/-- What one instruction's fetch and counters may change in its own core `c`, with nothing begun left: the instruction cache and
its replacement state, lines that leave the data cache (05 R134), the counters, and what is owed at its next boundary (06 R168). -/
def FetchedCore (c c' : HlCore) : Prop :=
  c' = { c with icache := c'.icache, irecent := c'.irecent, dcache := c'.dcache, perf := c'.perf, perfOvf := c'.perfOvf,
                begun := false, fetched := none, owed := c'.owed } ∧ ∀ e ∈ c'.dcache, e ∈ c.dcache

/-- Beside core `n` and what one instruction's fetch and counters touch (the rule check, the caches' free victim, lines that
leave other cores' caches, the interrupt of a counter), everything stands; core `n` holds `c`, but for `FetchedCore`. -/
def HlAfter (s t : State) (n : Nat) (c : HlCore) : Prop :=
  t = { s with regs := t.regs, acu := { s.acu with bad0 := t.acu.bad0, bad1 := t.acu.bad1 }, freeCtr := t.freeCtr,
               cores := t.cores } ∧
  RegsKept acuKey s t ∧ (∀ m, m ≠ n → LinesLeft (coreOf s m) (coreOf t m)) ∧ FetchedCore c (coreOf t n)

/-- `c'` is `c` but for its caches with their replacement states, its counters and what is owed at its next boundary, and
nothing begun is left. -/
def CachedCore (c c' : HlCore) : Prop :=
  c' = { c with icache := c'.icache, irecent := c'.irecent, dcache := c'.dcache, drecent := c'.drecent, perf := c'.perf,
                perfOvf := c'.perfOvf, begun := false, fetched := none, owed := c'.owed }

/-- As `HlAfter`, for an instruction that also meets memory: local memory with its tags and poison may differ, and so may
the core's data cache; lines may leave every other core's caches (05 R133, R134). -/
def HlMemAfter (s t : State) (n : Nat) (c : HlCore) : Prop :=
  t = { s with regs := t.regs, acu := { s.acu with bad0 := t.acu.bad0, bad1 := t.acu.bad1 }, freeCtr := t.freeCtr,
               cores := t.cores, mem := t.mem, tags := t.tags, poison := t.poison } ∧
  RegsKept acuKey s t ∧ (∀ m, m ≠ n → LinesLeft (coreOf s m) (coreOf t m)) ∧ CachedCore c (coreOf t n)

/-- `bs` stands at local address `a`, and every byte outside it reads as before. -/
def BytesWritten (s t : State) (a : Nat) (bs : List Byte) : Prop :=
  ∀ x, memByte t x = if a ≤ x ∧ x < a + bs.length then bs.getD (x - a) 0 else memByte s x

/-- The tags of the granules that [a, a + n) touches read `v`, every other as before. -/
def TagsWritten (s t : State) (a n : Nat) (v : Bool) : Prop :=
  ∀ x, tagAt t x = if alignDown a 16 ≤ alignDown x 16 ∧ alignDown x 16 < a + n then v else tagAt s x

/-- Local memory, its tags and its poison stand. -/
def MemKept (s t : State) : Prop := t.mem = s.mem ∧ t.tags = s.tags ∧ t.poison = s.poison

/-- No poison keeps a store of [a, a + n) from being taken: each unit that it meets is free of poison, or is covered whole and
does not lie in an offline stack (14 R371, R380). -/
def StoreTaken (s : State) (a n : Nat) : Prop :=
  ∀ i < n, poisonAt s (a + i) = false ∨
    (a ≤ (unitOf (a + i)).1 ∧ (unitOf (a + i)).1 + (unitOf (a + i)).2 ≤ a + n ∧
      (regionOf (a + i) = .hbm → stackOffline s (stackOf s (a + i)) = false))

/-- An instruction of core `n` that writes `v` to G register `rd` (a write to G0 is discarded, 05 R118), moves EXC to the
next instruction and leaves the rest. -/
def HlWrites (s t : State) (n rd : Nat) (v : Cap) : Prop :=
  HlAfter s t n { advance (coreOf s n) with g := (coreOf t n).g } ∧
  ∀ r, gGet (coreOf t n) r = if r = rd ∧ r ≠ 0 then v else gGet (coreOf s n) r

end Sys2Proof.Machine
end

