-- ==== Sys2Proof/WellFormed.lean ====
section
/-! DEFINITION. Which commands can reach the block at all: the senders, ports, tenants, lengths and formats that the spec's
tables admit. `exec` is total; a command outside these bounds is one that no sender can make. -/

namespace Sys2Proof

/-- A host driver's virtual function is 1 to 128 (spec 07 R176). -/
def agentOk : Agent → Bool
  | .pf => true
  | .vf n => decide (1 ≤ n.toNat) && decide (n.toNat ≤ 128)
  | .tmc | .ring .. => true

/-- A message to be forwarded carries at most 96 bytes (spec 15 R406), and its LEN tells how many it carries or asks for. -/
def msgOk (m : Msg) : Bool :=
  decide (m.payload.length ≤ 96) && decide (m.len.toNat ≤ 96) && decide (m.tenant.toNat ≤ 128)

/-- A message flit came by a port, on channel `vc` or, past the dateline, the one above it; collective messages have channel 4
alone (spec 15 R393, R402). -/
def linkOk (l : Link) (vc : Nat) : Bool := decide (l.port.toNat < 12) && (l.vc.toNat == vc || (vc != 4 && l.vc.toNat == vc + 1))

/-- Stores of the host to its own memory lie below 2^53 (spec 03 R81). -/
def storesOk (l : List (Nat × List Byte)) : Bool := l.all (fun e => decide (e.1 + e.2.length ≤ 2 ^ 53))

/-- A sample reads the four cold plates (spec 18 R465), and a capacity in per cent. -/
def sampleOk (m : TraySample) : Bool := decide (m.plateMC.length = 4) && decide (m.cellPct.toNat ≤ 100)

/-- The command is one that a sender of the block can make. -/
def Instr.wellFormed : Instr → Bool
  | .registerWrite agent fn _ size _ => agentOk agent && decide (fn.toNat ≤ 128) && decide (1 ≤ size.toNat) && decide (size.toNat ≤ 16)
  | .timeFlitSend => true
  | .timeFlit link _ _ _ _ _ _ => decide (link.port.toNat < 12)
  | .holdoverExpiry | .masterElection .. => true
  | .tbControlWrite agent _ => agentOk agent
  | .refclkLoss | .refclkReturn | .opPointUpdate => true
  | .illegalInstruction core word => decide (decodeHl core word = .illegalInstruction core word)
  | .add .. | .sub .. | .and .. | .or .. | .xor .. | .shl .. | .shr .. | .sar .. | .slt .. | .sltu .. | .min .. | .max ..
  | .mul .. | .mulh .. | .mulhu .. | .div .. | .divu .. | .rem .. | .remu .. | .addi .. | .andi .. | .ori .. | .xori ..
  | .shiShl .. | .shiShr .. | .shiSar .. | .lui .. | .lshi .. | .slti .. | .ldb .. | .ldbu .. | .ldh .. | .ldhu ..
  | .ldw .. | .ldwu .. | .ldd .. | .ldq .. | .stb .. | .sth .. | .stw .. | .std .. | .stq .. | .cld .. | .cst ..
  | .fld .. | .fst .. | .atomicSwap .. | .atomicAdd .. | .atomicAnd .. | .atomicOr .. | .atomicXor .. | .atomicMin ..
  | .atomicMax .. | .atomicMinu .. | .atomicMaxu .. | .cas .. => true
  | .msadd _ _ _ rs2 fmt => decide (fmt.toNat ≤ 4) && (fmt != 4 || rs2.toNat % 2 == 0)
  | .beq .. | .bne .. | .blt .. | .bge .. | .bltu .. | .bgeu .. | .jmp .. | .jal .. | .cjalr .. | .cjalg .. | .cmov ..
  | .csetcur .. | .cinccur .. | .cinccuri .. | .csetb .. | .csetbx .. | .candr .. | .csetring .. | .cseal ..
  | .cunseal .. | .cclrtag .. | .cqbase .. | .cqlen .. | .cqrights .. | .cqtype .. | .cqtag .. | .cqring .. | .cqcur ..
  | .csealh .. | .cunsealh .. | .cclrtags .. | .fadd .. | .fsub .. | .fmul .. | .fdiv .. | .fsqrt .. | .fmin ..
  | .fmax .. | .feq .. | .flt .. | .fle .. | .fcvtld .. | .fcvtdl .. | .fcvtsd .. | .fcvtds .. | .fmvgf .. | .fmvfg ..
  | .fma .. | .fms .. | .fnma .. | .fnms .. | .csrr .. | .csrw .. | .fenceFull .. | .fenceLoad .. | .fenceStore ..
  | .isync .. | .rdtb .. | .scinc .. | .scwait .. | .scwaitSatisfied .. | .screset .. | .wfi .. | .wfiWake .. | .halt ..
  | .cstart .. | .qput .. | .gate .. | .retgRs1 .. | .retgRs1St .. | .retgBankO .. | .retgBankM .. | .interruptEntry ..
  | .machineCheck .. | .trapTimerExpiry .. | .watchdogExpiry .. => true
  | .intSend agent _ => agentOk agent
  | .advance agent fn => agentOk agent && decide (fn.toNat ≤ 128)
  | .sealForce agent tenant => agentOk agent && decide (tenant.toNat ≤ 128)
  | .epochAdvanceDone tenant => decide (tenant.toNat ≤ 128)
  | .switch agent => agentOk agent
  | .acuCopy agent => agentOk agent
  | .acuClear agent => agentOk agent
  | .acuSwitch | .acuDrainEnd => true
  | .pollScan fn stores _ _ => decide (fn.toNat ≤ 128) && storesOk stores
  | .wakePageWrite fn stores _ _ => decide (fn.toNat ≤ 128) && storesOk stores
  | .descriptorIngest fn _ _ => decide (fn.toNat ≤ 128)
  | .nop .. | .copy .. | .changeSet .. | .changeSetPrepare | .changeSetSwitch | .changeSetDeadline | .coveClearDone ..
  | .completionWrite .. => true
  | .cqIntDelayExpiry fn _ => decide (fn.toNat ≤ 128)
  | .descriptorTimeout _ => true
  | .sqCtrlWrite agent fn _ _ => agentOk agent && decide (fn.toNat ≤ 128)
  | .cqCtrlWrite agent fn _ _ => agentOk agent && decide (fn.toNat ≤ 128)
  | .tenantStop agent tenant => agentOk agent && decide (tenant.toNat ≤ 128)
  | .tenantResume agent tenant => agentOk agent && decide (tenant.toNat ≤ 128)
  | .functionLevelReset fn => decide (fn.toNat ≤ 128)
  | .vfDisable .. | .linkDown | .hostLinkTraining .. | .strandNop .. | .mpy .. | .mac .. | .msu .. | .move .. | .clr ..
  | .adda .. | .suba .. | .neg .. | .abs .. | .sha .. | .lda .. | .addr .. | .subr .. | .movr .. | .movp .. | .movm ..
  | .movg .. | .setp .. | .setm .. | .setg .. | .strandLoad .. | .strandStore .. | .ldi .. | .strandAddi .. | .mov ..
  | .strandAdd .. | .strandSub .. | .strandAnd .. | .strandOr .. | .strandXor .. | .cmp .. | .cmpu .. | .br ..
  | .strandRepeat .. | .loop .. | .strandHalt .. | .dma .. | .strandDmaDone .. | .waitd .. | .waitdResume .. | .reti ..
  | .strandInterrupt .. => true
  | .strAttn agent _ => agentOk agent
  | .strandGroupOffline agent _ => agentOk agent
  | .strandGroupReset agent _ => agentOk agent
  | .run .. | .strandStop .. | .vcuConfig .. | .encode .. | .decode .. | .flush .. | .keyRequest .. | .pictureStart ..
  | .ctuRowBegin .. | .pictureEnd .. | .decodeWatchdog .. => true
  | .vcuOffline agent => agentOk agent
  | .vcuReset agent => agentOk agent
  | .gatherRows .. | .scatterRows .. | .walk .. | .indexCheckRetire .. => true
  | .geOffline agent _ => agentOk agent
  | .geReset agent _ => agentOk agent
  | .tableDefine .. | .tableSwitch .. | .lookup .. | .update .. | .tableRetire .. | .skewWindowEnd
  | .migrationCopyDone .. | .recordDrainEnd .. => true
  | .embOffline agent => agentOk agent
  | .embReset agent => agentOk agent
  | .matmul .. | .segmentSum .. => true
  | .dtaOffline agent _ => agentOk agent
  | .dtaReset agent _ => agentOk agent
  | .hbmTempReading .. | .cattrip .. | .patrolScrub .. | .hbmRefresh .. | .segmentZeroed .. => true
  | .memorySideAdd _ tenant fmt _ _ => decide (tenant.toNat ≤ 128) && decide (fmt.toNat ≤ 4)
  | .hbmThermWrite agent _ => agentOk agent
  | .hbmPhyRelock | .hbmRelockTimeout .. => true
  | .laneRotation port => decide (port.toNat < 12)
  | .laneMove port _ => decide (port.toNat < 12)
  | .flitTransmit port _ => decide (port.toNat < 12)
  | .idleFlit link => decide (link.port.toNat < 12)
  | .badFlit port _ => decide (port.toNat < 12)
  | .nak link => decide (link.port.toNat < 12)
  | .retrainRequest link => decide (link.port.toNat < 12)
  | .laneLockLoss port => decide (port.toNat < 12)
  | .portRetrain agent port => agentOk agent && decide (port.toNat < 12)
  | .retrainComplete port _ _ => decide (port.toNat < 12)
  | .linkTrainingDone port => decide (port.toNat < 12)
  | .identityFlit link _ _ _ _ _ => decide (link.port.toNat < 12)
  | .withdraw link => decide (link.port.toNat < 12)
  | .portFence agent port => agentOk agent && decide (port.toNat < 12)
  | .portUnfence agent port => agentOk agent && decide (port.toNat < 12)
  | .messageForward link msg => decide (link.port.toNat < 12) && decide (link.vc.toNat < 5) && msgOk msg
  | .read link _ tenant _ _ len _ => linkOk link 0 && decide (tenant.toNat ≤ 128) && decide (1 ≤ len.toNat) && decide (len.toNat ≤ 64)
  | .write link _ tenant _ _ payload _ => linkOk link 0 && decide (tenant.toNat ≤ 128) && decide (1 ≤ payload.length) && decide (payload.length ≤ 64)
  | .remoteCld link _ tenant _ _ _ => linkOk link 0 && decide (tenant.toNat ≤ 128)
  | .remoteCst link _ tenant _ _ _ _ => linkOk link 0 && decide (tenant.toNat ≤ 128)
  | .atomic link _ tenant _ _ func _ _ => linkOk link 0 && decide (tenant.toNat ≤ 128) && decide (func.toNat % 16 ≤ 9)
  | .remoteMsadd link _ tenant _ _ fmt _ => linkOk link 0 && decide (tenant.toNat ≤ 128) && decide (fmt.toNat ≤ 4)
  | .readRsp link _ _ payload => linkOk link 2 && decide (payload.length ≤ 64)
  | .writeRsp link _ _ => linkOk link 2
  | .cldRsp link _ _ _ _ => linkOk link 2
  | .cstRsp link _ _ => linkOk link 2
  | .atomicRsp link _ _ _ => linkOk link 2
  | .msaddRsp link _ _ => linkOk link 2
  | .requestTimeout .. | .allReduce .. | .reduceScatter .. | .allGather .. | .broadcast .. | .barrier .. => true
  | .collJoin link _ _ => linkOk link 4
  | .collData link _ _ _ _ payload _ _ => linkOk link 4 && decide (payload.length ≤ 96)
  | .collAbort link _ _ _ _ _ => linkOk link 4
  | .fabBarWrite agent _ _ => agentOk agent
  | .scValueWrite agent _ _ => agentOk agent
  | .governorStep .. | .fillHoldExpiry | .junctionReading .. | .junctionTrip | .dipBegin .. | .rideThroughExpiry ..
  | .dipEnd .. | .pcieL0Timeout | .railFail .. | .supplyResetRelease => true
  | .canarySample rates => decide (rates.length = 16)
  | .wearSample _ => true
  | .pwrPolicyWrite agent _ => agentOk agent
  | .tjThermWrite agent _ => agentOk agent
  | .tmcSample _ sample => sampleOk sample
  | .regulatorDisable .. | .regulatorPoll .. | .tmcHeartbeat .. | .heartbeatLoss .. | .mainPowerLost .. | .cellCutoff .. => true
  | .mainPowerRestored _ sample => sampleOk sample
  | .alarmAck .. | .rackMeasure .. | .rackOverStep | .trayPowerUp .. | .serviceEnter | .drainComplete | .drainTimeout
  | .serviceExit | .planCommit | .fenceTray .. | .alarmClear .. => true
  | .laneTestEnd results others => decide (results.length = 7680) && others.all (fun d => decide (d < 1024))
  | .laneHourlyRead reads => reads.all (fun r => decide (r.1 < 7680) && decide (r.2.1 ≤ 1))
  | .lanePeriodEvaluation => true
  | .read32 op _ => op == 1 || op == 0 || decide (6 < op.toNat)
  | .write32 hdr payload => decide (payload.length = hdr.len.toNat) && decide (payload.length ≤ 4096)
  | .read64 _ => true
  | .write64 hdr payload => decide (payload.length = hdr.len.toNat) && decide (payload.length ≤ 4096)
  | .filePut hdr payload => decide (payload.length = hdr.len.toNat) && decide (payload.length ≤ 4096)
  | .fileGet .. | .rmRestart | .tmcRestart .. | .perstRelease | .perstAssert | .pwrgdRise | .pwrgdFall => true
  | .deviceReset agent _ => agentOk agent
  | .startupMemoriesZeroed | .bootRecordRead | .stackTrainingDone .. | .imageLoaded .. => true
  | .bootOk agent => agentOk agent
  | .bootDeadlineExpiry => true
  | .aliasOff agent => agentOk agent
  | .install agent => agentOk agent
  | .select agent _ => agentOk agent
  | .settingsCommit agent => agentOk agent
  | .raiseSvn agent => agentOk agent
  | .revokeKey agent _ => agentOk agent
  | .fwRequestDone _ _ => true
  | .fenceDevice agent _ => agentOk agent
  | .errImport agent _ => agentOk agent
  | .correctedRateWindow .. | .regWrite32 .. | .regWrite64 .. | .regAddr .. | .regRead .. | .place .. => true
  | .plan text _ => decide (1 ≤ text.length) && decide (text.length ≤ 255)
  | .planEnd .. | .record .. | .status .. | .extest .. | .idcode .. | .samplePreload .. | .clamp .. | .highz .. => true
  | .bypass opcode _ => !(opcode == 0 || opcode == 1 || opcode == 2 || opcode == 4 || opcode == 5)
  | .fabClkLoss | .fabClkLossTimeout | .fabClkReturn | .hbmPhyRelockDone .. | .acuWritebackDone | .engineResetDone ..
  | .tbPllLocked | .tapReset | .vcoreSlewStep => true

end Sys2Proof
end

