-- ==== Sys2Proof/Certificates/Slice0/Obligations.lean ====
section
/-! DEFINITION. The statements for the provers, after the terms that only statements use. -/

open Sys2Proof Sys2Proof.Machine

namespace Sys2Proof.Terms

/- Headland instructions as the tables of 05 R119 to R125 give them -/

/-- G register `r` of core `core` as an unsigned and as a signed number. -/
def gu (s : State) (core : BitVec 4) (r : BitVec 5) : Nat := (gInt (coreOf s core.toNat) r.toNat).toNat
def gi (s : State) (core : BitVec 4) (r : BitVec 5) : Int := (gInt (coreOf s core.toNat) r.toNat).toInt
/-- A number modulo 2^64. -/
def ofI (x : Int) : Option W64 := some (BitVec.ofInt 64 x)
def ofN (x : Nat) : Option W64 := some (BitVec.ofNat 64 x)
/-- A truth value. -/
def ofP (p : Prop) [Decidable p] : Option W64 := some (if p then 1 else 0)

/-- What an integer instruction writes, by 05 R122: its core, rd, and the value; a value of `none` is one that the spec
does not state (a shift by 64 or more, a divisor of 0, the most negative number by -1: log entries 9 and 10). -/
def intResult (s : State) : Instr → Option (BitVec 4 × BitVec 5 × Option W64)
  | .add k d a b => some (k, d, ofI (gi s k a + gi s k b))
  | .sub k d a b => some (k, d, ofI (gi s k a - gi s k b))
  | .and k d a b => some (k, d, ofN (gu s k a &&& gu s k b))
  | .or k d a b => some (k, d, ofN (gu s k a ||| gu s k b))
  | .xor k d a b => some (k, d, ofN (gu s k a ^^^ gu s k b))
  | .shl k d a b => some (k, d, if gu s k b < 64 then ofN (gu s k a * 2 ^ gu s k b) else none)
  | .shr k d a b => some (k, d, if gu s k b < 64 then ofN (gu s k a / 2 ^ gu s k b) else none)
  | .sar k d a b => some (k, d, if gu s k b < 64 then ofI (gi s k a / 2 ^ gu s k b) else none)
  | .slt k d a b => some (k, d, ofP (gi s k a < gi s k b))
  | .sltu k d a b => some (k, d, ofP (gu s k a < gu s k b))
  | .min k d a b => some (k, d, ofI (min (gi s k a) (gi s k b)))
  | .max k d a b => some (k, d, ofI (max (gi s k a) (gi s k b)))
  | .mul k d a b => some (k, d, ofI (gi s k a * gi s k b))
  | .mulh k d a b => some (k, d, ofI (gi s k a * gi s k b / 2 ^ 64))
  | .mulhu k d a b => some (k, d, ofN (gu s k a * gu s k b / 2 ^ 64))
  | .div k d a b => some (k, d,
      if gi s k b = 0 ∨ (gi s k a = -2 ^ 63 ∧ gi s k b = -1) then none else ofI ((gi s k a).tdiv (gi s k b)))
  | .divu k d a b => some (k, d, if gu s k b = 0 then none else ofN (gu s k a / gu s k b))
  | .rem k d a b => some (k, d,
      if gi s k b = 0 ∨ (gi s k a = -2 ^ 63 ∧ gi s k b = -1) then none else ofI ((gi s k a).tmod (gi s k b)))
  | .remu k d a b => some (k, d, if gu s k b = 0 then none else ofN (gu s k a % gu s k b))
  | .addi k d a i => some (k, d, ofI (gi s k a + i.toInt))
  | .andi k d a i => some (k, d, (some (BitVec.ofNat 64 (gu s k a) &&& BitVec.ofInt 64 i.toInt)))
  | .ori k d a i => some (k, d, (some (BitVec.ofNat 64 (gu s k a) ||| BitVec.ofInt 64 i.toInt)))
  | .xori k d a i => some (k, d, (some (BitVec.ofNat 64 (gu s k a) ^^^ BitVec.ofInt 64 i.toInt)))
  | .lui k d _ i => some (k, d, ofI (i.toInt * 2 ^ 16))
  | .lshi k d a i => some (k, d, ofN (gu s k a * 2 ^ 16 + i.toNat))
  | .slti k d a i => some (k, d, ofP (gi s k a < i.toInt))
  | .shiShl k d a n => some (k, d, ofN (gu s k a * 2 ^ n.toNat))
  | .shiShr k d a n => some (k, d, ofN (gu s k a / 2 ^ n.toNat))
  | .shiSar k d a n => some (k, d, ofI (gi s k a / 2 ^ n.toNat))
  | _ => none

end Sys2Proof.Terms

open Sys2Proof.Terms

/-- Every integer instruction completes: it writes the value of R122 to rd as an integer, moves EXC on, and leaves every other
register, memory and core. That DIV truncates toward zero, that REM has the sign of the dividend, and that MIN, MAX and MULH are
signed, is the model's choice (log entry 12). -/
def Obligations.IntegerInstructionsWriteTheirResult : Prop :=
  ∀ (i : Instr) (s : State) (k : BitVec 4) (d : BitVec 5) (v : Option W64),
    intResult s i = some (k, d, v) → HlFetches s k.toNat →
    Answers i s (fun t => ∃ w, (∀ x, v = some x → w = x) ∧ HlWrites s t k.toNat d.toNat (capOfInt w))

namespace Sys2Proof.Terms

/-- G register `r` of core `core` as a capability. -/
def gc (s : State) (core : BitVec 4) (r : BitVec 5) : Cap := gGet (coreOf s core.toNat) r.toNat

/-- What a capability instruction that touches no memory writes (05 R123, 03 R69 to R71): its core, rd, the result. -/
def capResult (s : State) : Instr → Option (BitVec 4 × BitVec 5 × Cap)
  | .cmov k d a _ => some (k, d, gc s k a)
  | .csetcur k d a b => some (k, d, capSetCursor (gc s k a) (BitVec.ofNat 64 (gu s k b)))
  | .cinccur k d a b => some (k, d, capIncCursor (gc s k a) (gi s k b))
  | .cinccuri k d a i => some (k, d, capIncCursor (gc s k a) i.toInt)
  | .csetb k d a b => some (k, d, capSetBounds (gc s k a) (gu s k b) false)
  | .csetbx k d a b => some (k, d, capSetBounds (gc s k a) (gu s k b) true)
  | .candr k d a b => some (k, d, capAndRights (gc s k a) (BitVec.ofNat 12 (gu s k b)))
  | .csetring k d a b => some (k, d, capSetRing (gc s k a) (BitVec.ofNat 2 (gu s k b)) (excRing (coreOf s k.toNat)))
  | .cseal k d a b => some (k, d, capSeal (gc s k a) (gc s k b) (excRing (coreOf s k.toNat)))
  | .cunseal k d a b => some (k, d, capUnseal (gc s k a) (gc s k b) (excRing (coreOf s k.toNat)))
  | .cclrtag k d a _ => some (k, d, ⟨false, (gc s k a).bits⟩)
  | .cqbase k d a _ => some (k, d, capOfInt (BitVec.ofInt 64 (capBounds (gc s k a)).1))
  | .cqlen k d a _ => some (k, d, capOfInt (BitVec.ofNat 64
      (min ((capBounds (gc s k a)).2 - (capBounds (gc s k a)).1).toNat (2 ^ 64 - 1))))
  | .cqrights k d a _ => some (k, d, capOfInt (BitVec.ofNat 64 (capRights (gc s k a)).toNat))
  | .cqtype k d a _ => some (k, d, capOfInt (BitVec.ofNat 64 (capOtype (gc s k a)).toNat))
  | .cqtag k d a _ => some (k, d, capOfInt (if (gc s k a).tag then 1 else 0))
  | .cqring k d a _ => some (k, d, capOfInt (BitVec.ofNat 64 (capRing (gc s k a)).toNat))
  | .cqcur k d a _ => some (k, d, capOfInt (BitVec.ofNat 64 (gu s k a)))
  | _ => none

/-- `r` carries no more authority than `c`: a tag only from a tag, the same or narrower bounds, no right that `c` lacks. -/
def CapWithin (r c : Cap) : Prop :=
  r.tag = true → c.tag = true ∧ (capBounds c).1 ≤ (capBounds r).1 ∧ (capBounds r).2 ≤ (capBounds c).2 ∧
    capRights r &&& ~~~capRights c = 0#12

/-- The source of a derivation (05 R123). -/
def capSource (s : State) : Instr → Option (BitVec 4 × Cap)
  | .cmov k _ a _ => some (k, gc s k a)
  | .csetcur k _ a _ => some (k, gc s k a)
  | .cinccur k _ a _ => some (k, gc s k a)
  | .cinccuri k _ a _ => some (k, gc s k a)
  | .csetb k _ a _ => some (k, gc s k a)
  | .csetbx k _ a _ => some (k, gc s k a)
  | .candr k _ a _ => some (k, gc s k a)
  | .csetring k _ a _ => some (k, gc s k a)
  | .cseal k _ a _ => some (k, gc s k a)
  | .cunseal k _ a _ => some (k, gc s k a)
  | .cclrtag k _ a _ => some (k, gc s k a)
  | _ => none

end Sys2Proof.Terms

/-- Every capability instruction that touches no memory completes: it writes its result to rd, moves EXC on, and leaves
every other register, memory and core; a derivation that fails is no fault. -/
def Obligations.CapabilityInstructionsWriteTheirResult : Prop :=
  ∀ (i : Instr) (s : State) (k : BitVec 4) (d : BitVec 5) (v : Cap),
    capResult s i = some (k, d, v) → HlFetches s k.toNat → Answers i s (fun t => HlWrites s t k.toNat d.toNat v)

/-- No derivation amplifies: whatever a derivation instruction leaves in its core's G registers, each register holds no more
authority than it held before or than the instruction's source holds. -/
def Obligations.DerivationNeverAmplifies : Prop :=
  ∀ (i : Instr) (s t : State) (k : BitVec 4) (src : Cap) (r : Nat),
    capSource s i = some (k, src) → HlFetches s k.toNat → exec i s = .next t →
    CapWithin (gGet (coreOf t k.toNat) r) (gGet (coreOf s k.toNat) r) ∨ CapWithin (gGet (coreOf t k.toNat) r) src

/-- CSEAL and CUNSEAL keep the tag exactly under the conditions of R70 and R71; otherwise they still write their result, with
the tag clear. -/
def Obligations.SealAndUnsealKeepTagExactlyWhenAllowed : Prop :=
  ∀ (s : State) (k : BitVec 4) (d a b : BitVec 5), HlFetches s k.toNat → d ≠ 0 →
    let cs := gc s k a
    let ck := gc s k b
    let ring := (excRing (coreOf s k.toNat)).toNat
    let cur := (capCursor ck).toNat
    Answers (.cseal k d a b) s (fun t =>
      (gc t k d).bits = setFld cs.bits 116 (BitVec.ofNat 8 cur) ∧
      ((gc t k d).tag = true ↔ cs.tag = true ∧ capOtype cs = 0 ∧ ck.tag = true ∧ capOtype ck = 0 ∧ capHas ck rSEAL = true ∧
        ring ≤ (capRing ck).toNat ∧ (capBounds ck).1 ≤ cur ∧ (cur : Int) < (capBounds ck).2 ∧
        ((1 ≤ cur ∧ cur ≤ 223) ∨ (240 ≤ cur ∧ cur ≤ 243 ∧ ring ≤ 1)))) ∧
    Answers (.cunseal k d a b) s (fun t =>
      (capOtype (gc t k d)) = 0 ∧ (capHas (gc t k d) rGLOB = (capHas cs rGLOB && capHas ck rGLOB)) ∧
      ((gc t k d).tag = true ↔ cs.tag = true ∧ ck.tag = true ∧ capOtype ck = 0 ∧ capHas ck rUNSEAL = true ∧
        ring ≤ (capRing ck).toNat ∧ cur = (capOtype cs).toNat ∧ (capBounds ck).1 ≤ cur ∧ (cur : Int) < (capBounds ck).2 ∧
        1 ≤ (capOtype cs).toNat ∧ (capOtype cs).toNat ≤ 223))

namespace Sys2Proof.Terms

/-- F register `r` of core `core`, and its value. -/
def fr (s : State) (core : BitVec 4) (r : BitVec 5) : W64 := fGet (coreOf s core.toNat) r.toNat
def fv (s : State) (core : BitVec 4) (r : BitVec 5) : FVal := fDecode fp64 (fr s core r).toNat
/-- The rounding mode in force. -/
def rm (s : State) (core : BitVec 4) : Nat := frm (coreOf s core.toNat)

/-- A fused multiply-add with the addend negated or the rounded result negated (log entry 13). -/
def fused (s : State) (k : BitVec 4) (a b c : BitVec 5) (negC negR : Bool) : Nat × FFlags :=
  let r := fMulAdd fp64 (rm s k) (fv s k a) (fv s k b) (if negC then fNegVal (fv s k c) else fv s k c)
  (if negR && r.1 != 0x7FF8000000000000 then r.1 ^^^ 2 ^ 63 else r.1, r.2 ||| sNaNs [fv s k a, fv s k b, fv s k c])

/-- The F register that an instruction writes, by 05 R125: its core, rd, the value and the flags raised. -/
def floatResult (s : State) : Instr → Option (BitVec 4 × BitVec 5 × Nat × FFlags)
  | .fadd k d a b =>
    let r := fAddVal (rm s k) (fv s k a) (fv s k b)
    some (k, d, fEncode fp64 (rm s k) false r.1 (r.2 ||| sNaNs [fv s k a, fv s k b]))
  | .fsub k d a b =>
    let r := fAddVal (rm s k) (fv s k a) (fNegVal (fv s k b))
    some (k, d, fEncode fp64 (rm s k) false r.1 (r.2 ||| sNaNs [fv s k a, fv s k b]))
  | .fmul k d a b =>
    let r := fMulVal (fv s k a) (fv s k b)
    some (k, d, fEncode fp64 (rm s k) false r.1 (r.2 ||| sNaNs [fv s k a, fv s k b]))
  | .fdiv k d a b =>
    let r := fDiv fp64 (rm s k) (fv s k a) (fv s k b)
    some (k, d, r.1, r.2 ||| sNaNs [fv s k a, fv s k b])
  | .fsqrt k d a _ =>
    let r := fSqrt fp64 (rm s k) (fv s k a)
    some (k, d, r.1, r.2 ||| sNaNs [fv s k a])
  | .fmin k d a b => some (k, d, fMinMax true (fr s k a) (fr s k b))
  | .fmax k d a b => some (k, d, fMinMax false (fr s k a) (fr s k b))
  | .fcvtdl k d a _ => some (k, d, fEncode fp64 (rm s k) false (.fin (decide (gi s k a < 0)) (gi s k a).natAbs 0) 0)
  | .fcvtds k d a _ =>
    let v := fDecode fp32 (gu s k a % 2 ^ 32)
    let r := fEncode fp64 (rm s k) false v 0
    some (k, d, r.1, r.2 ||| sNaNs [v])
  | .fmvgf k d a _ => some (k, d, gu s k a, 0)
  | .fma k d a b c => some (k, d, fused s k a b c false false)
  | .fms k d a b c => some (k, d, fused s k a b c true false)
  | .fnma k d a b c => some (k, d, fused s k a b c false true)
  | .fnms k d a b c => some (k, d, fused s k a b c true true)
  | _ => none

/-- The G register that a float instruction writes, and the flags it raises. -/
def floatToG (s : State) : Instr → Option (BitVec 4 × BitVec 5 × W64 × FFlags)
  | .feq k d a b => some (k, d, fCompare (coreOf s k.toNat) a b false (fun o => o == .eq))
  | .flt k d a b => some (k, d, fCompare (coreOf s k.toNat) a b true (fun o => o == .lt))
  | .fle k d a b => some (k, d, fCompare (coreOf s k.toNat) a b true (fun o => o != .gt))
  | .fcvtld k d a _ =>
    let r := fToInt 64 true (rm s k) (fv s k a)
    some (k, d, BitVec.ofInt 64 r.1, if r.2.1 then flInvalid else r.2.2)
  | .fcvtsd k d a _ =>
    let r := fEncode fp32 (rm s k) false (fv s k a) 0
    some (k, d, BitVec.ofNat 64 r.1, r.2 ||| sNaNs [fv s k a])
  | .fmvfg k d a _ => some (k, d, fr s k a, 0)
  | _ => none

/-- ST with flags added to ST.FFLAGS, bits [8:4], and every other bit as it was. -/
def StFlags (a b : W32) (fl : FFlags) : Prop :=
  ∀ i, i < 32 → b.getLsbD i = (a.getLsbD i || (decide (4 ≤ i) && decide (i ≤ 8) && fl.getLsbD (i - 4)))

/-- What is a NaN in binary64: the exponent field all ones and a fraction that is not zero. -/
def nan64 (x : W64) : Prop := x.toNat / 2 ^ 52 % 2 ^ 11 = 2 ^ 11 - 1 ∧ x.toNat % 2 ^ 52 ≠ 0

end Sys2Proof.Terms

/-- Every float instruction completes: it writes the rounded result to F register rd, or an integer to G register rd, adds its flags
to ST.FFLAGS, moves EXC on, and leaves every other register, bit of ST, memory and core. The conventions of comparison, of FMIN and
FMAX, of the fused forms and of the conversions that R125 leaves open, and which way FMVGF and FMVFG move, are the model's choices
(log entries 13 and 14). -/
def Obligations.FloatInstructionsWriteTheirResult : Prop :=
  (∀ (i : Instr) (s : State) (k : BitVec 4) (d : BitVec 5) (x : Nat) (fl : FFlags),
    floatResult s i = some (k, d, x, fl) → HlFetches s k.toNat →
    Answers i s (fun t =>
      let c := coreOf s k.toNat
      let c' := coreOf t k.toNat
      HlAfter s t k.toNat { advance c with f := c'.f, st := c'.st } ∧ StFlags c.st c'.st fl ∧
      ∀ r, fGet c' r = if r = d.toNat then BitVec.ofNat 64 x else fGet c r)) ∧
  (∀ (i : Instr) (s : State) (k : BitVec 4) (d : BitVec 5) (x : W64) (fl : FFlags),
    floatToG s i = some (k, d, x, fl) → HlFetches s k.toNat →
    Answers i s (fun t =>
      let c := coreOf s k.toNat
      let c' := coreOf t k.toNat
      HlAfter s t k.toNat { advance c with g := c'.g, st := c'.st } ∧ StFlags c.st c'.st fl ∧
      ∀ r, gGet c' r = if r = d.toNat ∧ r ≠ 0 then capOfInt x else gGet c r))

/-- Binary64 arithmetic never leaves a NaN but the canonical one, 0x7FF8_0000_0000_0000. -/
def Obligations.FloatResultsHoldOnlyTheCanonicalNaN : Prop :=
  ∀ (i : Instr) (s t : State) (k : BitVec 4) (d : BitVec 5) (x : Nat) (fl : FFlags),
    (∀ k d a b, i ≠ .fmvgf k d a b) → floatResult s i = some (k, d, x, fl) → HlFetches s k.toNat → exec i s = .next t →
    nan64 (fr t k d) → fr t k d = 0x7FF8000000000000

namespace Sys2Proof.Terms

/-- Branches and jumps (05 R120, R122): core, whether taken, the signed distance in instructions, the register that is
linked. -/
def branchOf (s : State) : Instr → Option (BitVec 4 × Bool × Int × Option Nat)
  | .beq k a b i => some (k, decide (gu s k a = gu s k b), i.toInt, none)
  | .bne k a b i => some (k, decide (gu s k a ≠ gu s k b), i.toInt, none)
  | .blt k a b i => some (k, decide (gi s k a < gi s k b), i.toInt, none)
  | .bge k a b i => some (k, decide (gi s k b ≤ gi s k a), i.toInt, none)
  | .bltu k a b i => some (k, decide (gu s k a < gu s k b), i.toInt, none)
  | .bgeu k a b i => some (k, decide (gu s k b ≤ gu s k a), i.toInt, none)
  | .jmp k i => some (k, true, i.toInt, none)
  | .jal k i => some (k, true, i.toInt, some 31)
  | _ => none

/-- EXC of core `n` with its cursor moved by `d` instructions, its tag kept under 03 R61. -/
def excBy (s : State) (n : Nat) (d : Int) : Cap :=
  capMoveCursor (coreOf s n).exc (BitVec.ofInt 64 ((capCursor (coreOf s n).exc).toNat + 4 * d))

/-- The first fetch at `k` passes R120, at the ring that it brings, after the instruction itself has been fetched. -/
def mayEnter (s : State) (n : Nat) (k : Cap) : Prop := (firstFetchFor (hlFetched s n).2 (coreOf s n) k).1 = none

/-- The return gate of R150. -/
def gateBack (s : State) (n : Nat) : Cap :=
  ⟨(excBy s n 1).tag, setFld (excBy s n 1).bits 116 (BitVec.ofNat 8 (240 + (excRing (coreOf s n)).toNat))⟩

/-- `k` with OTYPE 0. -/
def unsealed (k : Cap) : Cap := ⟨k.tag, setFld k.bits 116 (0 : BitVec 8)⟩

/-- A RETG may return to `k` (R154). -/
def mayReturn (s : State) (n : Nat) (k : Cap) : Prop :=
  k.tag = true ∧ ((capOtype k).toNat = 0 ∨ (capOtype k).toNat = 240 + (capRing k).toNat) ∧
  (excRing (coreOf s n)).toNat ≤ (capRing k).toNat ∧ capHas k rEX = true ∧ mayEnter s n k

/-- ST as R155 merges it from `v` at ring `ring`. -/
def StMerged (ring : Nat) (old v new : W32) : Prop :=
  ∀ i, i < 32 → new.getLsbD i =
    if (2 ≤ i ∧ i ≤ 8) ∨ (i = 0 ∧ ring ≤ 2) ∨ (i = 1 ∧ ring = 0) then v.getLsbD i else old.getLsbD i

/-- Step 3 of R156 on one bank: TSTK takes G30, and BUSY clears; every other register of the bank stands. -/
def BankReturned (g30 : Cap) (b b' : TrapBank) : Prop :=
  b' = { b with tstk := g30, tcause := b'.tcause } ∧
  ∀ i, i < 64 → b'.tcause.getLsbD i = (b.tcause.getLsbD i && decide (i ≠ 8))

/-- The trap bank after a trap entry (R165): what each register of the bank records. -/
def BankFilled (s : State) (n : Nat) (b' : TrapBank) (cause : Nat) (tval detail : W64) (word : W32) (fixed : Bool) : Prop :=
  let c := coreOf s n
  b'.tepc = c.exc ∧ b'.tauth = capNull ∧
  b'.tcause = BitVec.ofNat 64 (cause + (excRing c).toNat * 2 ^ 6 + 2 ^ 8 + if fixed then 2 ^ 10 else 0) ∧
  b'.tval = tval ∧ b'.tinsn = word.setWidth 64 ∧ b'.tst = c.st.setWidth 64 ∧ b'.ttbc = s.tbc ∧ b'.tdetail = detail ∧
  b'.tstk = gGet c 30

end Sys2Proof.Terms

/-- Branches and jumps complete: EXC.CURSOR becomes the target, counted in instructions from the branch, or moves on; the tag is kept
under R61 alone; JAL links G31; nothing else changes. That the offset counts from the branch itself is the model's choice (log entry
12). -/
def Obligations.BranchesAndJumpsMoveExc : Prop :=
  ∀ (i : Instr) (s : State) (k : BitVec 4) (taken : Bool) (d : Int) (link : Option Nat),
    branchOf s i = some (k, taken, d, link) → HlFetches s k.toNat →
    Answers i s (fun t =>
      HlAfter s t k.toNat { coreOf s k.toNat with exc := excBy s k.toNat (if taken then d else 1), g := (coreOf t k.toNat).g } ∧
      ∀ r, gGet (coreOf t k.toNat) r = if link = some r then excBy s k.toNat 1 else gGet (coreOf s k.toNat) r)

/-- CJALR, CJALG and GATE complete: the link or return gate is written and EXC is the target, in one step; a gate entry never
leaves at a ring numbered above the one it was made at. -/
def Obligations.CapabilityJumpsAndGatesEnter : Prop :=
  ∀ (s : State) (k : BitVec 4) (d a b : BitVec 5) (g : BitVec 2), HlFetches s k.toNat →
    let n := k.toNat
    let cs := gc s k a
    let ring := (excRing (coreOf s n)).toNat
    let code := entOf (coreOf s n) (2 * g.toNat)
    let stack := entOf (coreOf s n) (2 * g.toNat + 1)
    (capOtype cs = 0 → (capRing cs).toNat = ring →
      Answers (.cjalr k d a b) s (fun t =>
        HlAfter s t n { coreOf s n with exc := cs, g := (coreOf t n).g } ∧
        ∀ r, gGet (coreOf t n) r = if r = d.toNat ∧ r ≠ 0 then excBy s n 1 else gGet (coreOf s n) r)) ∧
    (cs.tag = true → (capOtype cs).toNat = 240 + (capRing cs).toNat → (capRing cs).toNat ≤ ring → capHas cs rEX = true →
      mayEnter s n cs →
      Answers (.cjalg k d a b) s (fun t =>
        HlAfter s t n { coreOf s n with exc := unsealed cs, g := (coreOf t n).g } ∧ (excRing (coreOf t n)).toNat ≤ ring ∧
        ∀ r, gGet (coreOf t n) r = if r = d.toNat ∧ r ≠ 0 then gateBack s n else gGet (coreOf s n) r)) ∧
    (g.toNat ≤ ring → code.tag = true → capOtype code = 0 → capRing code = g → capHas code rEX = true → mayEnter s n code →
      stack.tag = true → capOtype stack = 0 → capRing stack = g →
      Answers (.gate k g) s (fun t =>
        HlAfter s t n { coreOf s n with exc := code, g := (coreOf t n).g } ∧ (excRing (coreOf t n)).toNat ≤ ring ∧
        ∀ r, gGet (coreOf t n) r = if r = 31 then gateBack s n else if r = 30 then stack
          else if r = 29 then gGet (coreOf s n) 30 else gGet (coreOf s n) r))

/-- RETG in its four forms completes: EXC is the source unsealed, ST is merged by R155 where the form supplies one, a bank form
exchanges G30 with TSTK and clears that bank's BUSY; interrupts that stayed pending for a ring may be taken again. -/
def Obligations.GateReturnRestores : Prop :=
  ∀ (s : State) (k : BitVec 4) (a b : BitVec 5), HlFetches s k.toNat →
    let n := k.toNat
    let c := coreOf s n
    let ring := (excRing c).toNat
    (mayReturn s n (gc s k a) →
      Answers (.retgRs1 k a b) s (fun t => HlAfter s t n { c with exc := unsealed (gc s k a), deferred := [] }) ∧
      Answers (.retgRs1St k a b) s (fun t =>
        HlAfter s t n { c with exc := unsealed (gc s k a), deferred := [], st := (coreOf t n).st } ∧
        StMerged ring c.st (BitVec.ofNat 32 (gu s k b)) (coreOf t n).st)) ∧
    (mayReturn s n c.bankO.tepc → bankBusy c.bankO = true → ring ≤ 1 →
      Answers (.retgBankO k) s (fun t =>
        HlAfter s t n { c with exc := unsealed c.bankO.tepc, deferred := [], st := (coreOf t n).st, g := (coreOf t n).g,
                               bankO := (coreOf t n).bankO } ∧
        StMerged ring c.st (c.bankO.tst.setWidth 32) (coreOf t n).st ∧ BankReturned (gGet c 30) c.bankO (coreOf t n).bankO ∧
        ∀ r, gGet (coreOf t n) r = if r = 30 then c.bankO.tstk else gGet c r)) ∧
    (mayReturn s n c.bankM.tepc → bankBusy c.bankM = true → ring = 0 →
      Answers (.retgBankM k) s (fun t =>
        HlAfter s t n { c with exc := unsealed c.bankM.tepc, deferred := [], st := (coreOf t n).st, g := (coreOf t n).g,
                               bankM := (coreOf t n).bankM } ∧
        StMerged ring c.st (c.bankM.tst.setWidth 32) (coreOf t n).st ∧ BankReturned (gGet c 30) c.bankM (coreOf t n).bankM ∧
        ∀ r, gGet (coreOf t n) r = if r = 30 then c.bankM.tstk else gGet c r))

namespace Sys2Proof.Terms

/-- The checks of an access of core `n` pass (03 R63, R68, R69; 04 R97; 05 R126), nothing makes it wait, and it is at this
device. -/
def reaches (s : State) (n : Nat) (m : MemOp) : Prop :=
  let c := coreOf s n
  let u := (hlFetched s n).2
  ∃ la classes s1, hlReach u c (gGet c m.rs1) (memMask c m) (memExtra u c m (memAddr c m).toNat) true (memWrites m.kind)
    (memKinds m.kind) (memAddr c m).toNat (memSize m.kind) (memSize m.kind) = .here la classes s1

/-- The local address of an access at rs1.CURSOR + d (R126). -/
def laOf (s : State) (k : BitVec 4) (a : BitVec 5) (d : Int) : Nat := (BitVec.ofInt 64 (gu s k a + d)).toNat % 2 ^ 54

/-- The memories whose data the access itself holds: HBM, coves, strand memories, and for loads the fixed vectors. -/
def inMemory (a : Nat) : Prop :=
  match regionOf a with
  | .hbm => True | .cove _ => True | .strandX _ => True | .strandY _ => True | .strandP _ => True | .vectors => True | _ => False

/-- `n` bytes of local memory as a little-endian number. -/
def numIn (s : State) (a n : Nat) : Nat := ofBytes (memBytes s a n)

/-- Loads (05 R122, R126): core, the access, rs1, displacement, bytes, rd, and what rd is given: the number as it stands
or sign-extended, or 16 bytes whole. -/
def loadOf : Instr → Option (BitVec 4 × MemOp × BitVec 5 × Int × Nat × BitVec 5 × (Nat → Cap))
  | .ldb k d a i => some (k, ⟨.load 1 true, d.toNat, a.toNat, 0, i.toInt, encodeHl (.ldb k d a i)⟩, a, i.toInt, 1, d,
      fun x => capOfInt ((BitVec.ofNat 8 x).signExtend 64))
  | .ldbu k d a i => some (k, ⟨.load 1 false, d.toNat, a.toNat, 0, i.toInt, encodeHl (.ldbu k d a i)⟩, a, i.toInt, 1, d,
      fun x => capOfInt (BitVec.ofNat 64 x))
  | .ldh k d a i => some (k, ⟨.load 2 true, d.toNat, a.toNat, 0, i.toInt, encodeHl (.ldh k d a i)⟩, a, i.toInt, 2, d,
      fun x => capOfInt ((BitVec.ofNat 16 x).signExtend 64))
  | .ldhu k d a i => some (k, ⟨.load 2 false, d.toNat, a.toNat, 0, i.toInt, encodeHl (.ldhu k d a i)⟩, a, i.toInt, 2, d,
      fun x => capOfInt (BitVec.ofNat 64 x))
  | .ldw k d a i => some (k, ⟨.load 4 true, d.toNat, a.toNat, 0, i.toInt, encodeHl (.ldw k d a i)⟩, a, i.toInt, 4, d,
      fun x => capOfInt ((BitVec.ofNat 32 x).signExtend 64))
  | .ldwu k d a i => some (k, ⟨.load 4 false, d.toNat, a.toNat, 0, i.toInt, encodeHl (.ldwu k d a i)⟩, a, i.toInt, 4, d,
      fun x => capOfInt (BitVec.ofNat 64 x))
  | .ldd k d a i => some (k, ⟨.load 8 false, d.toNat, a.toNat, 0, i.toInt, encodeHl (.ldd k d a i)⟩, a, i.toInt, 8, d,
      fun x => capOfInt (BitVec.ofNat 64 x))
  | .ldq k d a i => some (k, ⟨.load 16 false, d.toNat, a.toNat, 0, i.toInt, encodeHl (.ldq k d a i)⟩, a, i.toInt, 16, d,
      fun x => ⟨false, BitVec.ofNat 128 x⟩)
  | _ => none

/-- Stores (05 R122, R126): core, the access, rs1, displacement, bytes, the number stored, the tag stored. -/
def storeOf (s : State) : Instr → Option (BitVec 4 × MemOp × BitVec 5 × Int × Nat × Nat × Bool)
  | .stb k d a i => some (k, ⟨.store 1, d.toNat, a.toNat, 0, i.toInt, encodeHl (.stb k d a i)⟩, a, i.toInt, 1, gu s k d % 2 ^ 8, false)
  | .sth k d a i => some (k, ⟨.store 2, d.toNat, a.toNat, 0, i.toInt, encodeHl (.sth k d a i)⟩, a, i.toInt, 2, gu s k d % 2 ^ 16, false)
  | .stw k d a i => some (k, ⟨.store 4, d.toNat, a.toNat, 0, i.toInt, encodeHl (.stw k d a i)⟩, a, i.toInt, 4, gu s k d % 2 ^ 32, false)
  | .std k d a i => some (k, ⟨.store 8, d.toNat, a.toNat, 0, i.toInt, encodeHl (.std k d a i)⟩, a, i.toInt, 8, gu s k d, false)
  | .stq k d a i => some (k, ⟨.store 16, d.toNat, a.toNat, 0, i.toInt, encodeHl (.stq k d a i)⟩, a, i.toInt, 16,
      (gc s k d).bits.toNat, false)
  | .fst k d a i => some (k, ⟨.fst, d.toNat, a.toNat, 0, i.toInt, encodeHl (.fst k d a i)⟩, a, i.toInt, 8, (fr s k d).toNat, false)
  | .cst k d a i => some (k, ⟨.cst, d.toNat, a.toNat, 0, i.toInt, encodeHl (.cst k d a i)⟩, a, i.toInt, 16,
      (gc s k d).bits.toNat, (gc s k d).tag)
  | _ => none

/-- What an atomic stores, by 05 R122 and R127, on words of `w` bits: `none` for a CAS that does not match. -/
def atomicStored {w : Nat} (f : Nat) (old b cmp : BitVec w) : Option (BitVec w) :=
  match f with
  | 0 => some b
  | 1 => some (old + b)
  | 2 => some (old &&& b)
  | 3 => some (old ||| b)
  | 4 => some (old ^^^ b)
  | 5 => some (if b.toInt < old.toInt then b else old)
  | 6 => some (if old.toInt < b.toInt then b else old)
  | 7 => some (if b.toNat < old.toNat then b else old)
  | 8 => some (if old.toNat < b.toNat then b else old)
  | _ => if old = cmp then some b else none

/-- Atomics: function, core, rd, rs1, rs2, 64 bits wide. -/
def atomicOf : Instr → Option (Nat × BitVec 4 × BitVec 5 × BitVec 5 × BitVec 5 × Bool)
  | .atomicSwap k d a b w => some (0, k, d, a, b, w)
  | .atomicAdd k d a b w => some (1, k, d, a, b, w)
  | .atomicAnd k d a b w => some (2, k, d, a, b, w)
  | .atomicOr k d a b w => some (3, k, d, a, b, w)
  | .atomicXor k d a b w => some (4, k, d, a, b, w)
  | .atomicMin k d a b w => some (5, k, d, a, b, w)
  | .atomicMax k d a b w => some (6, k, d, a, b, w)
  | .atomicMinu k d a b w => some (7, k, d, a, b, w)
  | .atomicMaxu k d a b w => some (8, k, d, a, b, w)
  | .cas k d a b w => some (9, k, d, a, b, w)
  | _ => none

/-- The number `x` stands in `n` bytes at `a`, and every byte outside them reads as before. -/
def NumWritten (s t : State) (a n x : Nat) : Prop :=
  numIn t a n = x % 2 ^ (8 * n) ∧ ∀ b, (b < a ∨ a + n ≤ b) → memByte t b = memByte s b

/-- A trap of core `n` for `cause` finds this handler: the gate of the vector table, or the fixed vector with ST.BOOT set
(06 R161 to R163). -/
def handlerIs (s : State) (n cause : Nat) (fixed : Bool) (h : Cap) : Prop :=
  let c := coreOf s n
  let u := (hlFetched s n).2
  bankBusy c.bankO = false ∧
  if fixed then
    c.st.getLsbD 1 = true ∧
      h = capMoveCursor c.bankM.last (BitVec.ofNat 64 (deviceNo s * 2 ^ 54 + 0x6000000000 + 16 * cause)) ∧
      (fetchCheck u h 0).1 = none ∧ capOtype h = 0 ∧ capRing h = 0
  else c.st.getLsbD 1 = false ∧ (∃ k s1, k.num = cause ∧ vectorEntry u n k = .gives (.inl h) s1) ∧
    (capRing h).toNat ≤ (excRing c).toNat

end Sys2Proof.Terms

/-- Loads, CLD and FLD from memory complete: the register receives the bytes at rs1.CURSOR + displacement, extended; a CLD keeps
the memory tag only under LDC; an LDQ clears it; memory, its tags and its poison stand. -/
def Obligations.LoadsDeliverMemory : Prop :=
  (∀ (i : Instr) (s : State) (k : BitVec 4) (m : MemOp) (a : BitVec 5) (x : Int) (n : Nat) (d : BitVec 5) (f : Nat → Cap),
    loadOf i = some (k, m, a, x, n, d, f) → HlFetches s k.toNat → reaches s k.toNat m → inMemory (laOf s k a x) →
    poisonIn s (laOf s k a x) n = false →
    Answers i s (fun t =>
      HlMemAfter s t k.toNat { advance (coreOf s k.toNat) with g := (coreOf t k.toNat).g } ∧ MemKept s t ∧
      ∀ r, gGet (coreOf t k.toNat) r = if r = d.toNat ∧ r ≠ 0 then f (numIn s (laOf s k a x) n) else gGet (coreOf s k.toNat) r)) ∧
  (∀ (s : State) (k : BitVec 4) (d a : BitVec 5) (i : BitVec 16), HlFetches s k.toNat →
    let la := laOf s k a i.toInt
    let n := k.toNat
    (reaches s n ⟨.cld, d.toNat, a.toNat, 0, i.toInt, encodeHl (.cld k d a i)⟩ → inMemory la → poisonIn s la 16 = false →
      Answers (.cld k d a i) s (fun t =>
        HlMemAfter s t n { advance (coreOf s n) with g := (coreOf t n).g } ∧ MemKept s t ∧
        ∀ r, gGet (coreOf t n) r = if r = d.toNat ∧ r ≠ 0 then
            ⟨hasTags (regionOf la) && tagAt s la && capHas (gc s k a) rLDC, BitVec.ofNat 128 (numIn s la 16)⟩
          else gGet (coreOf s n) r)) ∧
    (reaches s n ⟨.fld, d.toNat, a.toNat, 0, i.toInt, encodeHl (.fld k d a i)⟩ → inMemory la → poisonIn s la 8 = false →
      Answers (.fld k d a i) s (fun t =>
        HlMemAfter s t n { advance (coreOf s n) with f := (coreOf t n).f } ∧ MemKept s t ∧
        ∀ r, fGet (coreOf t n) r = if r = d.toNat then BitVec.ofNat 64 (numIn s la 8) else fGet (coreOf s n) r)))

/-- Stores to memory complete: exactly the stored bytes change, the tags of the granules touched clear (or take the stored tag,
for a CST where tags are stored), no register but EXC changes, and a CST of a capability without GLOB never passes an
authority with GLOB. -/
def Obligations.StoresWriteExactlyTheirBytes : Prop :=
  ∀ (i : Instr) (s : State) (k : BitVec 4) (m : MemOp) (a : BitVec 5) (x : Int) (n v : Nat) (tag : Bool),
    storeOf s i = some (k, m, a, x, n, v, tag) → HlFetches s k.toNat → reaches s k.toNat m → inMemory (laOf s k a x) →
    StoreTaken s (laOf s k a x) n →
    Answers i s (fun t =>
      HlMemAfter s t k.toNat (advance (coreOf s k.toNat)) ∧ NumWritten s t (laOf s k a x) n v ∧
      TagsWritten s t (laOf s k a x) n tag ∧ (tag = true → capHas (gc s k a) rGLOB = true → m.kind = .cst →
        capHas (gGet (coreOf s k.toNat) m.rd) rGLOB = true))

/-- Every load from and store to host memory, CLD, FLD, FST and CST among them, moves the bytes at the host bus address and leaves
local memory alone; no tag comes from there, and a tagged CST does not reach it. An atomic and a memory-side add, which have their
home in coves and stacks alone (05 R127), raise cause 9 there: the model's choice (log entry 30). -/
def Obligations.HeadlandReachesHostMemory : Prop :=
  (∀ (i : Instr) (s : State) (k : BitVec 4) (m : MemOp) (a : BitVec 5) (x : Int) (n : Nat) (d : BitVec 5) (f : Nat → Cap),
    loadOf i = some (k, m, a, x, n, d, f) → HlFetches s k.toNat → reaches s k.toNat m → regionOf (laOf s k a x) = .host →
    poisonIn s (laOf s k a x) n = false →
    Answers i s (fun t =>
      HlMemAfter s t k.toNat { advance (coreOf s k.toNat) with g := (coreOf t k.toNat).g } ∧ MemKept s t ∧
      ∀ r, gGet (coreOf t k.toNat) r =
        if r = d.toNat ∧ r ≠ 0 then f (ofBytes (hostBytes s (laOf s k a x - 2 ^ 53) n)) else gGet (coreOf s k.toNat) r)) ∧
  (∀ (s : State) (k : BitVec 4) (d a : BitVec 5) (i : BitVec 16), HlFetches s k.toNat →
    let la := laOf s k a i.toInt
    let n := k.toNat
    regionOf la = .host →
    (reaches s n ⟨.cld, d.toNat, a.toNat, 0, i.toInt, encodeHl (.cld k d a i)⟩ → poisonIn s la 16 = false →
      Answers (.cld k d a i) s (fun t =>
        HlMemAfter s t n { advance (coreOf s n) with g := (coreOf t n).g } ∧ MemKept s t ∧
        ∀ r, gGet (coreOf t n) r = if r = d.toNat ∧ r ≠ 0 then
          ⟨false, BitVec.ofNat 128 (ofBytes (hostBytes s (la - 2 ^ 53) 16))⟩ else gGet (coreOf s n) r)) ∧
    (reaches s n ⟨.fld, d.toNat, a.toNat, 0, i.toInt, encodeHl (.fld k d a i)⟩ → poisonIn s la 8 = false →
      Answers (.fld k d a i) s (fun t =>
        HlMemAfter s t n { advance (coreOf s n) with f := (coreOf t n).f } ∧ MemKept s t ∧
        ∀ r, fGet (coreOf t n) r =
          if r = d.toNat then BitVec.ofNat 64 (ofBytes (hostBytes s (la - 2 ^ 53) 8)) else fGet (coreOf s n) r))) ∧
  (∀ (i : Instr) (s : State) (k : BitVec 4) (m : MemOp) (a : BitVec 5) (x : Int) (n v : Nat) (tag : Bool),
    storeOf s i = some (k, m, a, x, n, v, tag) → HlFetches s k.toNat → reaches s k.toNat m → regionOf (laOf s k a x) = .host →
    poisonIn s (laOf s k a x) n = false →
    let h := laOf s k a x - 2 ^ 53
    tag = false ∧ Answers i s (fun t =>
      HlMemAfter { s with hostMem := t.hostMem } t k.toNat (advance (coreOf s k.toNat)) ∧ MemKept s t ∧
      ofBytes (hostBytes t h n) = v ∧ ∀ b, (b < h ∨ h + n ≤ b) → hostByte t b = hostByte s b)) ∧
  ∀ (i : Instr) (s : State) (k : BitVec 4) (m : MemOp) (a : BitVec 5) (fixed : Bool) (h : Cap),
    ((∃ f d b w, atomicOf i = some (f, k, d, a, b, w) ∧ m = ⟨.atomic f w, d.toNat, a.toNat, b.toNat, 0, encodeHl i⟩) ∨
      ∃ d b fmt, i = .msadd k d a b fmt ∧ fmt.toNat ≤ 4 ∧ (fmt = 4 → b.toNat % 2 = 0) ∧
        m = ⟨.msadd fmt.toNat, d.toNat, a.toNat, b.toNat, 0, encodeHl i⟩) →
    let n := k.toNat
    let c := coreOf s n
    HlFetches s n → reaches s n m → regionOf (laOf s k a 0) = .host → handlerIs s n 9 fixed h →
    Answers i s (fun t => MemKept s t ∧
      HlMemAfter s t n { c with exc := if fixed then h else unsealed h, bankO := (coreOf t n).bankO, g := (coreOf t n).g } ∧
      (coreOf t n).bankO.tepc = c.exc ∧ (coreOf t n).bankO.tauth = gc s k a ∧ (coreOf t n).bankO.tval = memAddr c m ∧
      (fld (coreOf t n).bankO.tcause 0 6).toNat = 9)

/-- Atomics and CAS complete at the home of the address: rd receives the old value (of 32 bits, in its low half: log entry 30),
memory the result, the granule's tag clears; a CAS that does not match stores nothing and clears nothing. -/
def Obligations.AtomicsExchangeWithMemory : Prop :=
  ∀ (i : Instr) (s : State) (f : Nat) (k : BitVec 4) (d a b : BitVec 5) (wide : Bool),
    atomicOf i = some (f, k, d, a, b, wide) → HlFetches s k.toNat →
    let n := k.toNat
    let la := laOf s k a 0
    let w := if wide then 64 else 32
    let old := BitVec.ofNat w (numIn s la (w / 8))
    let new := atomicStored f old (BitVec.ofNat w (gu s k b)) (BitVec.ofNat w (gu s k d))
    reaches s n ⟨.atomic f wide, d.toNat, a.toNat, b.toNat, 0, encodeHl i⟩ → hasTags (regionOf la) = true →
    poisonIn s la (w / 8) = false →
    Answers i s (fun t =>
      HlMemAfter s t n { advance (coreOf s n) with g := (coreOf t n).g } ∧
      (∀ r, r ≠ d.toNat → gGet (coreOf t n) r = gGet (coreOf s n) r) ∧
      (d ≠ 0 → (gc t k d).tag = false ∧ gu t k d % 2 ^ w = old.toNat ∧ (gc t k d).bits.toNat = gu t k d) ∧
      match new with
      | some v => NumWritten s t la (w / 8) v.toNat ∧ TagsWritten s t la (w / 8) false
      | none => MemKept s t)

/-- MSADD completes for every format: the sum stands in memory (an integer sum wraps), and no other byte changes; the tags of the
unit clear in HBM, those of the granules touched in a cove, and no other tag or poison changes; the line leaves every data cache;
no register of the core but EXC changes; an add in HBM is counted by its stack; and the rest of the device stands. -/
def Obligations.MsaddAddsInMemory : Prop :=
  ∀ (s : State) (k : BitVec 4) (d a b : BitVec 5) (fmt : BitVec 3), HlFetches s k.toNat →
    let n := k.toNat
    let la := laOf s k a 0
    let f := fmt.toNat
    let size := if f = 0 then 4 else if f = 1 then 8 else if f = 2 then 4 else if f = 3 then 2 else 32
    let addend := if f = 4 then (gc s k b).bits.toNat + (gInt (coreOf s n) (b.toNat + 1)).toNat * 2 ^ 128
      else gu s k b % 2 ^ (8 * size)
    f ≤ 4 → (f = 4 → b.toNat % 2 = 0) →
    reaches s n ⟨.msadd f, d.toNat, a.toNat, b.toNat, 0, encodeHl (.msadd k d a b fmt)⟩ → hasTags (regionOf la) = true →
    poisonIn s la size = false →
    Answers (.msadd k d a b fmt) s (fun t =>
      t = { s with regs := t.regs, acu := { s.acu with bad0 := t.acu.bad0, bad1 := t.acu.bad1 }, freeCtr := t.freeCtr,
                   cores := t.cores, mem := t.mem, tags := t.tags, poison := t.poison } ∧
      CachedCore (advance (coreOf s n)) (coreOf t n) ∧ (∀ m, m ≠ n → LinesLeft (coreOf s m) (coreOf t m)) ∧
      (∀ m, m < 16 → ∀ e ∈ (coreOf t m).dcache, e.1 ≠ alignDown la 64) ∧
      BytesWritten s t la (addResult f (numIn s la size) addend) ∧
      (f ≤ 1 → numIn t la size = (numIn s la size + addend) % 2 ^ (8 * size)) ∧ (∀ x, poisonAt t x = poisonAt s x) ∧
      (regionOf la = .hbm → TagsWritten s t (alignDown la 32) 32 false ∧
        RegsKept (fun x => acuKey x || (x == Reg.hbmAdds (stackOf s la))) s t ∧
        regGet t (Reg.hbmAdds (stackOf s la)) = regGet s (Reg.hbmAdds (stackOf s la)) + 1) ∧
      (regionOf la ≠ .hbm → TagsWritten s t la size false ∧ RegsKept acuKey s t))

/-- A load or store whose authority fails the checks of R63 traps with the first check's cause in the order of R63: TVAL is the
address, TAUTH the authority, TDETAIL tells a write, and no byte of memory changes. -/
def Obligations.FailedAccessTrapsInTheOrderOfItsChecks : Prop :=
  ∀ (i : Instr) (s : State) (k : BitVec 4) (m : MemOp) (cause : Nat) (fixed : Bool) (h : Cap),
    ((∃ a x n d f, loadOf i = some (k, m, a, x, n, d, f)) ∨ (∃ a x n v tag, storeOf s i = some (k, m, a, x, n, v, tag))) →
    HlFetches s k.toNat →
    let n := k.toNat
    let c := coreOf s n
    let auth := gGet c m.rs1
    let addr := (memAddr c m).toNat
    let b := capBounds auth
    (regionOf (localPart addr) = .setup → capHas auth rSYS = true) → localFabric s (platformCode c) addr = true →
    memExtra (hlFetched s n).2 c m addr = true →
    cause = (if auth.tag = false then 3 else if capOtype auth ≠ 0 then 4
      else if (capRing auth).toNat < (excRing c).toNat then 5 else if capHas auth (memMask c m) = false then 6
      else if (addr : Int) < b.1 ∨ b.2 < addr + memSize m.kind then 7 else if addr % memSize m.kind ≠ 0 then 8 else 0) →
    cause ≠ 0 → handlerIs s n cause fixed h →
    Answers i s (fun t => MemKept s t ∧
      HlMemAfter s t n { c with exc := if fixed then h else unsealed h, bankO := (coreOf t n).bankO, g := (coreOf t n).g } ∧
      (coreOf t n).bankO.tepc = c.exc ∧ (coreOf t n).bankO.tauth = auth ∧ (coreOf t n).bankO.tval = memAddr c m ∧
      (fld (coreOf t n).bankO.tcause 0 6).toNat = cause ∧ (coreOf t n).bankO.tinsn = m.word.setWidth 64 ∧
      (coreOf t n).bankO.tdetail = (if memWrites m.kind then 2 else 0))

/-- A word that the instruction tables do not list takes its trap: with bank O free, through the gate that the vector table holds, or with ST.BOOT set
through the fixed vector at ring 0; and with bank O busy, as cause 34 into bank M. The bank records what R165 lists, G30 and
TSTK are exchanged, ST and CTX stand, and nothing else of the core changes. -/
def Obligations.IllegalInstructionTakesItsTrap : Prop :=
  ∀ (s : State) (k : BitVec 4) (word : W32), HlFetches s k.toNat → decodeHl k word = .illegalInstruction k word →
    let n := k.toNat
    let c := coreOf s n
    let h34 := capMoveCursor c.bankM.last (BitVec.ofNat 64 (deviceNo s * 2 ^ 54 + 0x6000000000 + 16 * 34))
    (∀ fixed h, handlerIs s n 1 fixed h →
      Answers (.illegalInstruction k word) s (fun t => MemKept s t ∧
        HlMemAfter s t n { c with exc := if fixed then h else unsealed h, bankO := (coreOf t n).bankO, g := (coreOf t n).g } ∧
        BankFilled s n (coreOf t n).bankO 1 0 0 word fixed ∧
        ∀ r, gGet (coreOf t n) r = if r = 30 then c.bankO.tstk else gGet c r)) ∧
    (bankBusy c.bankO = true → bankBusy c.bankM = false → (fetchCheck (hlFetched s n).2 h34 0).1 = none → capOtype h34 = 0 →
      capRing h34 = 0 →
      Answers (.illegalInstruction k word) s (fun t =>
        HlAfter s t n { c with exc := h34, bankM := (coreOf t n).bankM, g := (coreOf t n).g } ∧
        BankFilled s n (coreOf t n).bankM 34 0 1 word true ∧
        ∀ r, gGet (coreOf t n) r = if r = 30 then c.bankM.tstk else gGet c r))

namespace Sys2Proof.Terms

/-- An access of core `n` through `auth` passes its checks in state `u` and is made in state `s1` (03 R63; 04 R97). -/
def passes (u : State) (c : HlCore) (auth : Cap) (mask : BitVec 12) (remote write : Bool) (kinds : BitVec 5)
    (size align : Nat) (s1 : State) : Prop :=
  ∃ la classes, hlReach u c auth mask true remote write kinds (capCursor auth).toNat size align = .here la classes s1

/-- The local address of a capability's cursor. -/
def laCur (c : Cap) : Nat := (capCursor c).toNat % 2 ^ 54

/-- Tag bits at the granules of [a, a + n), as offsets. -/
def tagsIn (s : State) (a n : Nat) : List Nat :=
  ((List.range (n / 16)).map (fun i => 16 * i)).filter (fun o => hasTags (regionOf a) && tagAt s (a + o))

/-- An operation without its place in the order of those that are ready to begin, which any operation that comes, begins or ends
may give it (17 R449). -/
def unready (o : Op) : Op := { o with readyAt := 0 }
/-- These operations stand in the machine, in this order. -/
def OpsAre (t : State) (l : List Op) : Prop := t.ops.map unready = l.map unready

end Sys2Proof.Terms

/-- CSEALH, CUNSEALH and CCLRTAGS complete. CSEALH writes the token of R73 for cs and advances that tenant's SEQUENCE alone;
CUNSEALH delivers BODY, tagged exactly when no check of R76 rejects it, and counts and records a rejection; CCLRTAGS clears the
tags of every granule of its range and changes no data. -/
def Sys2Proof.Terms.HostSealing : Prop :=
  ∀ (s : State) (k : BitVec 4) (d a b : BitVec 5), HlFetches s k.toNat →
    let n := k.toNat
    let c := coreOf s n
    let u := (hlFetched s n).2
    let ca := gc s k a
    let cs := gc s k d
    let la := laCur ca
    let opt := gu s k b
    let low := decide ((excRing c).toNat ≤ 1)
    let tenant := if low then opt / 2 ^ 8 % 2 ^ 8 else ctxTenant c
    (∀ s1, passes u c ca rST false true kWrite 32 32 s1 → inMemory la → StoreTaken s la 32 → cs.tag = true → capHas cs rGLOB = true →
      capOtype cs = 0 → (excRing c).toNat ≤ 2 → (low = true → tenant ≤ 128) →
      Answers (.csealh k d a b) s (fun t =>
        BytesWritten s t la (tokenMake s tenant cs (opt.testBit 0)).1 ∧ TagsWritten s t la 32 false ∧
        RegsKept (fun x => acuKey x || (x == regKey tenant Reg.sealSeq)) s t ∧
        (regGetFn t tenant Reg.sealSeq).toNat = ((regGetFn s tenant Reg.sealSeq).toNat % 2 ^ 22 + 1) % 2 ^ 22 ∧
        (∀ r, gGet (coreOf t n) r = gGet c r) ∧ (coreOf t n).exc = (advance c).exc)) ∧
    (∀ s1, passes u c ca rLD false false kRead 32 1 s1 → inMemory la → poisonIn s la 32 = false →
      let tok := memBytes s la 32
      let owner := numAt tok 16 1
      let reason := tokenReason s tok (if low then decide (owner ≤ 128) else owner == ctxTenant c) true
      let ten := if low then 0 else ctxTenant c
      Answers (.cunsealh k d a b) s (fun t =>
        MemKept s t ∧ (coreOf t n).exc = (advance c).exc ∧
        (∀ r, gGet (coreOf t n) r = if r = d.toNat ∧ r ≠ 0 then ⟨decide (reason = 0), BitVec.ofNat 128 (numAt tok 0 16)⟩
          else gGet c r) ∧
        RegsKept (fun x => acuKey x || (reason != 0 &&
          ((x == regKey ten Reg.sealRejects) || (x == regKey ten Reg.sealLastReject)))) s t ∧
        (reason ≠ 0 → (regGetFn t ten Reg.sealRejects).toNat = min ((regGetFn s ten Reg.sealRejects).toNat + 1) 0xFFFFFFFF ∧
          regGetFn t ten Reg.sealLastReject = BitVec.ofNat 64 (reason + numAt tok 17 3 * 2 ^ 8 +
            numAt tok 20 4 / 2 ^ 10 * 2 ^ 32 + numAt tok 20 4 % 2 ^ 10 * 2 ^ 54)))) ∧
    (∀ s1, passes u c ca rST false true kWrite opt 1 s1 → inMemory la →
      Answers (.cclrtags k d a b) s (fun t =>
        HlMemAfter s t n (advance c) ∧ t.mem = s.mem ∧ t.poison = s.poison ∧
        (opt = 0 → t.tags = s.tags) ∧ (opt ≠ 0 → TagsWritten s t la opt false)))

/-- QPUT completes: rd is the status of R137, and a status of 0 alone queues the entry, with the descriptor and its tags as they
stood, its tenant, its completion capability and the queue's next entry sequence; a STOP (08 R242) and a KEY_REQUEST (09 R264) may
have taken effect and ended by then. -/
def Sys2Proof.Terms.QputQueues : Prop :=
  ∀ (s : State) (k : BitVec 4) (d a b : BitVec 5) (q : BitVec 8), HlFetches s k.toNat →
    let n := k.toNat
    let c := coreOf s n
    let u := (hlFetched s n).2
    let ca := gc s k a
    let cc := gc s k b
    let la := laCur ca
    let size := 128 * (hdrExt (memBytes s la 128) + 1)
    let desc := memBytes s la size
    let tenant := if (excRing c).toNat ≤ 1 then actTenant c else ctxTenant c
    let status := queueStatus s q.toNat tenant desc
    ∀ s1 s2 s3, passes u c ca (rLD ||| rLDC) false false kRead 128 16 s1 → passes s1 c ca (rLD ||| rLDC) false false kRead size 16 s2 →
      (cc = capNull ∧ s3 = s2 ∨ cc ≠ capNull ∧ passes s2 c cc (rST ||| rDMA) false true kWrite 32 32 s3) →
      inMemory la → poisonIn s la size = false →
      Answers (.qput k d a b q) s (fun t =>
        MemKept s t ∧ (coreOf t n).exc = (advance c).exc ∧
        (∀ r, gGet (coreOf t n) r = if r = d.toNat ∧ r ≠ 0 then capOfInt (BitVec.ofNat 64 status) else gGet c r) ∧
        (status ≠ 0 → t.ops = s.ops) ∧
        (status = 0 → sget zDflt32 t.queueSeq q.toNat = sget zDflt32 s.queueSeq q.toNat + 1 ∧
          ∃ o, o.id = s.nextOp ∧ o.queue = q ∧ o.tenant = BitVec.ofNat 8 tenant ∧ o.desc = desc ∧
          o.opcode = BitVec.ofNat 8 (hdr desc 0 8) ∧ o.src = .core n (sget zDflt32 s.queueSeq q.toNat) cc ∧
          o.queued = true ∧ o.slots = slotsOf desc (tagsIn s la size) ∧
          (o.opcode ≠ 0x41 → o.opcode ≠ 0x54 → o.phase = .waiting ∧ OpsAre t (s.ops ++ [o])) ∧
          (o.opcode = 0x41 ∨ o.opcode = 0x54 → (∀ x ∈ s.ops, x.id ≠ s.nextOp) → findOp t s.nextOp = some o)))

/-- CSEALH, CUNSEALH, CCLRTAGS and QPUT complete, each with its whole effect. -/
def Obligations.HostSealingClearingAndQput : Prop := HostSealing ∧ QputQueues

namespace Sys2Proof.Terms

/-- Instructions that only order others, and what else they write: RDTB's register (05 R131; 16 R430). -/
def plainOf : Instr → Option (BitVec 4 × Option (BitVec 5))
  | .fenceFull k => some (k, none)
  | .fenceLoad k => some (k, none)
  | .fenceStore k => some (k, none)
  | .isync k => some (k, none)
  | .rdtb k d => some (k, some d)
  | _ => none

/-- The registers of R140 that hold a whole 64-bit value or a capability as it is written. -/
def csrPlain (n : Nat) (cap : Bool) : Prop :=
  if cap then n = 0x100 ∨ (0x110 ≤ n ∧ n ≤ 0x117) ∨ (0x120 ≤ n ∧ n ≤ 0x12F)
  else (n ∈ [0x021, 0x024, 0x025, 0x026, 0x027, 0x029, 0x02C, 0x02D, 0x02E, 0x02F])

/-- Registers in which the instruction's own counting may show. -/
def csrCounts (n : Nat) : Prop := (0x210 ≤ n ∧ n ≤ 0x217) ∨ n = 0x220

end Sys2Proof.Terms

/-- FENCE in its three kinds, ISYNC and RDTB complete: in a model of one order they change nothing, but that RDTB writes the TBC
to rd. -/
def Sys2Proof.Terms.FencesAdvance : Prop :=
  ∀ (i : Instr) (s : State) (k : BitVec 4) (d : Option (BitVec 5)), plainOf i = some (k, d) → HlFetches s k.toNat →
    Answers i s (fun t =>
      HlAfter s t k.toNat { advance (coreOf s k.toNat) with g := (coreOf t k.toNat).g } ∧
      ∀ r, gGet (coreOf t k.toNat) r = if d.map (fun x => x.toNat) = some r ∧ r ≠ 0 then capOfInt s.tbc
        else gGet (coreOf s k.toNat) r)

/-- CSRR and CSRW complete where R140 permits: CSRR delivers the register, with its tag only in the capability form; CSRW gives
the register the value and leaves every other register of the table; ST takes IE and BOOT only from a ring that may write them
(R141), and a reserved tenant leaves its field of CTX. -/
def Sys2Proof.Terms.CsrsReadAndWrite : Prop :=
  ∀ (s : State) (k : BitVec 4) (r : BitVec 5) (csr : BitVec 12) (cap : Bool), HlFetches s k.toNat →
    let n := k.toNat
    let c := coreOf s n
    let x := csr.toNat
    let ring := (excRing c).toNat
    let v := gc s k r
    let w := gInt c r.toNat
    (csrCheck c x false = none →
      Answers (.csrr k r csr cap) s (fun t => HlWrites s t n r.toNat
        (if cap = true ∧ (csrInfo x).map (fun p => p.2.2) = some true then csrGet c x else capOfInt (capCursor (csrGet c x))))) ∧
    (csrCheck c x true = none →
      Answers (.csrw k r csr cap) s (fun t =>
        let c' := coreOf t n
        MemKept s t ∧ c'.exc = (advance c).exc ∧ (∀ i, gGet c' i = gGet c i) ∧
        (∀ m, m ≠ n → LinesLeft (coreOf s m) (coreOf t m)) ∧ RegsKept acuKey s t ∧
        (∀ y, csrInfo y ≠ none → y ≠ x → ¬ csrCounts y → csrGet c' y = csrGet c y) ∧
        (cap = true → csrPlain x true → csrGet c' x = v) ∧ (csrPlain x false → csrGet c' x = capOfInt w) ∧
        (x = 0 → StMerged ring c.st (w.setWidth 32) c'.st) ∧
        (x = 1 → ctxTenant c' = (if (fld w 0 8).toNat ≤ 128 then (fld w 0 8).toNat else ctxTenant c) ∧
          actTenant c' = (if (fld w 8 8).toNat ≤ 128 then (fld w 8 8).toNat else actTenant c) ∧
          (ctxTenant c ≠ 0 → ctxTenant c' ≠ ctxTenant c →
            (∀ e ∈ c'.dcache ++ c'.icache, e.2.tenant.toNat ≠ ctxTenant c) ∧ c'.drecent = [] ∧ c'.irecent = []))))

/-- HALT, CSTART, WFI and WFI_WAKE complete: HALT stops its core; CSTART starts a halted core with EXC, G1 and every other register at
its reset value, and answers 1 for a running one; WFI waits only while no enabled interrupt is pending; the wake resumes it. That a
core started by CSTART has G2 null, core 0 too, is the model's choice (log entry 16). -/
def Obligations.CoresHaltStartAndWait : Prop :=
  ∀ (s : State) (k : BitVec 4) (d a b e : BitVec 5),
    let n := k.toNat
    let c := coreOf s n
    let target := gu s k e
    (HlFetches s n → (excRing c).toNat = 0 →
      Answers (.halt k) s (fun t => HlAfter s t n { advance c with running := false })) ∧
    (HlFetches s n → (excRing c).toNat = 0 → target ≤ 15 → target ≠ n → (coreOf s target).running = false →
      Answers (.cstart k d a b e) s (fun t =>
        coreOf t target = { coreReset with g := (coreOf t target).g, exc := gc s k a, running := true,
                                           dcache := (coreOf t target).dcache, icache := (coreOf t target).icache } ∧
        (∀ e ∈ (coreOf t target).dcache, e ∈ (coreOf s target).dcache) ∧
        (∀ e ∈ (coreOf t target).icache, e ∈ (coreOf s target).icache) ∧
        (∀ r, gGet (coreOf t target) r = if r = 1 then gc s k b else capNull) ∧
        (∀ r, gGet (coreOf t n) r = if r = d.toNat ∧ r ≠ 0 then capOfInt 0 else gGet c r) ∧
        (∀ m, m ≠ n → m ≠ target → LinesLeft (coreOf s m) (coreOf t m)) ∧ MemKept s t)) ∧
    (HlFetches s n → (excRing c).toNat = 0 → target ≤ 15 → (coreOf s target).running = true →
      Answers (.cstart k d a b e) s (fun t => HlWrites s t n d.toNat (capOfInt 1))) ∧
    (HlFetches s n →
      Answers (.wfi k) s (fun t =>
        HlAfter s t n { advance c with wait := if pendingCauses (hlFetched s n).2 n = [] then .wfi else .none })) ∧
    (c.running = true → c.wait = .wfi → pendingCauses s n ≠ [] → fenced s = false →
      Answers (.wfiWake k) s (fun t =>
        t = { s with cores := t.cores } ∧ coreOf t n = { c with wait := .none, owed := (coreOf t n).owed } ∧
        ∀ m, m ≠ n → coreOf t m = coreOf s m))

/-- The sync counters: SCINC saturates, with the counter's bit in SC_SAT, and answers the new value, SCWAIT completes when the
counter has reached its target and waits otherwise, SCRESET zeroes it and ends poison, a wait is satisfied when the target is
reached, or its counter is poisoned, and until then the core reads as WAITING; an interrupt ends a wait, which is made anew on
return, but one that is satisfied retires first; a poisoned counter answers POISONED, a name that is no
counter of the caller's range NOT_AVAILABLE, and a set-up write of those who may write sets the value; no other counter changes. -/
def Obligations.SyncCountersCount : Prop :=
  ∀ (s : State) (k : BitVec 4) (d a b : BitVec 5) (x : Nat),
    let n := k.toNat
    let c := coreOf s n
    (HlFetches s n → (256 ≤ gu s k a ∨ (2 ≤ (excRing c).toNat ∧ scInRange s (ctxTenant c) (gu s k a) = false)) →
      let unavailable := fun t : State => HlWrites s t n d.toNat (capOfInt 0x8000000000000000)
      Answers (.scinc k d a b) s unavailable ∧ Answers (.scwait k d a b) s unavailable ∧
      (b = 0 → Answers (.screset k d a b) s unavailable)) ∧
    (HlFetches s n → scNamed s c (gInt c a.toNat) = some x →
      let v := scVal s x
      (scPoisoned s x = false →
        Answers (.scinc k d a b) s (fun t =>
          let v' := min (v + gu s k b % 2 ^ 32) 0xFFFFFFFF
          scVal t x = v' ∧ (∀ y, y < 256 → y ≠ x → scVal t y = scVal s y) ∧
          regBit t (Reg.scSat (x / 32)) (x % 32) =
            (regBit s (Reg.scSat (x / 32)) (x % 32) || decide (0xFFFFFFFF < v + gu s k b % 2 ^ 32)) ∧
          (∀ r, gGet (coreOf t n) r = if r = d.toNat ∧ r ≠ 0 then capOfInt (BitVec.ofNat 64 v') else gGet c r) ∧
          (coreOf t n).exc = (advance c).exc ∧ MemKept s t)) ∧
      (scPoisoned s x = true →
        Answers (.scinc k d a b) s (fun t => HlWrites s t n d.toNat (capOfInt 0x4000000000000000)) ∧
        Answers (.scwait k d a b) s (fun t => HlWrites s t n d.toNat (capOfInt 0x4000000000000000))) ∧
      (scPoisoned s x = false → gu s k b % 2 ^ 32 ≤ v →
        Answers (.scwait k d a b) s (fun t =>
          (∀ r, gGet (coreOf t n) r = if r = d.toNat ∧ r ≠ 0 then capOfInt (BitVec.ofNat 64 v) else gGet c r) ∧
          (coreOf t n).exc = (advance c).exc ∧ (coreOf t n).wait = .none ∧ (∀ y, y < 256 → scVal t y = scVal s y) ∧ MemKept s t)) ∧
      (scPoisoned s x = false → v < gu s k b % 2 ^ 32 →
        Answers (.scwait k d a b) s (fun t =>
          FetchedCore { c with wait := .counter x (BitVec.ofNat 32 (gu s k b)) d.toNat } { coreOf t n with fetched := none } ∧
          (regRead t 0 (Reg.hlStatus n)).getLsbD 12 = true ∧
          (coreOf t n).icache = c.icache ∧ (coreOf t n).fetched = some (fetchCheck s c.exc (coreTenant c)).2.1 ∧
          (coreOf t n).perf = c.perf ∧ (∀ m, m ≠ n → coreOf t m = coreOf s m) ∧
          RegsKept acuKey s t ∧ MemKept s t)) ∧
      (b = 0 →
        Answers (.screset k d a b) s (fun t =>
          scVal t x = 0 ∧ scPoisoned t x = false ∧ (∀ y, y < 256 → y ≠ x → scVal t y = scVal s y ∧ scPoisoned t y = scPoisoned s y) ∧
          (∀ r, gGet (coreOf t n) r = if r = d.toNat ∧ r ≠ 0 then capOfInt 0 else gGet c r) ∧ MemKept s t))) ∧
    (∀ target rd, c.running = true → fenced s = false → c.wait = .counter x target rd → scPoisoned s x = false → target.toNat ≤ scVal s x →
      Answers (.scwaitSatisfied k) s (fun t =>
        (coreOf t n).wait = .none ∧ (coreOf t n).exc = (advance c).exc ∧
        (∀ r, gGet (coreOf t n) r = if r = rd ∧ r ≠ 0 then capOfInt (BitVec.ofNat 64 (scVal s x)) else gGet c r) ∧
        (∀ m, m ≠ n → LinesLeft (coreOf s m) (coreOf t m)) ∧ MemKept s t)) ∧
    (∀ target rd, c.running = true → fenced s = false → c.wait = .counter x target rd → scPoisoned s x = true →
      Answers (.scwaitSatisfied k) s (fun t =>
        (coreOf t n).wait = .none ∧ (coreOf t n).exc = (advance c).exc ∧ (∀ y, y < 256 → scVal t y = scVal s y) ∧
        (∀ r, gGet (coreOf t n) r = if r = rd ∧ r ≠ 0 then capOfInt 0x4000000000000000 else gGet c r) ∧
        (∀ m, m ≠ n → LinesLeft (coreOf s m) (coreOf t m)) ∧ MemKept s t)) ∧
    (∀ b cause target rd h s1, s.coresReleased = true → c.running = true → atBoundary c = true → c.deferred = [] → fenced s = false →
      c.wait = .counter x target rd → scPoisoned s x = false → c.st.getLsbD 0 = true → c.st.getLsbD 1 = false →
      bankBusy c.bankO = false → bankBusy c.bankM = false → b < 4 → pendingCauses s n = [cause] → cause = 16 + b →
      (scVal s x < target.toNat → vectorEntry s n (interruptAs c cause) = .gives (.inl h) s1 → (capRing h).toNat ≤ (excRing c).toNat →
        Answers (.interruptEntry k) s (fun t => (coreOf t n).wait = .none ∧ (coreOf t n).exc = unsealed h ∧
          (coreOf t n).bankO.tepc = c.exc ∧ (∀ y, y < 256 → scVal t y = scVal s y) ∧ MemKept s t)) ∧
      (target.toNat ≤ scVal s x → ∀ t, exec (.scwaitSatisfied k) s = .next t → exec (.interruptEntry k) s = exec (.interruptEntry k) t)) ∧
    (encodeHl (.scinc k d a b) = 0x3A#6 ++ d ++ a ++ b ++ 3#11 ∧ encodeHl (.scwait k d a b) = 0x3A#6 ++ d ++ a ++ b ++ 4#11 ∧
      encodeHl (.screset k d a b) = 0x3A#6 ++ d ++ a ++ b ++ 5#11) ∧
    (∀ agent value, platformAgent s agent = false → x < 256 →
      Answers (.scValueWrite agent (BitVec.ofNat 8 x) value) s (fun t => t = s)) ∧
    (∀ agent value, platformAgent s agent = true → x < 256 →
      Answers (.scValueWrite agent (BitVec.ofNat 8 x) value) s (fun t =>
        OnlyRegs (fun y => (y == Reg.scValue x) || (y == Reg.scPoison (x / 32))) s t ∧ scVal t x = value.toNat ∧
        scPoisoned t x = false ∧ ∀ y, y < 256 → y ≠ x → scPoisoned t y = scPoisoned s y))

/-- Interrupts and machine causes: INT_SEND and an expired timer set their pending bit and nothing else; an enabled pending
interrupt enters through bank O, with its pending bit cleared; an expired watchdog, whose register becomes 0 at once even where an
instruction has begun, and a machine check enter through bank M at ring 0. -/
def Obligations.InterruptsAndMachineCausesEnter : Prop :=
  ∀ (s : State) (k : BitVec 4),
    let n := k.toNat
    let c := coreOf s n
    let fixed : Nat → Cap := fun cause => capMoveCursor c.bankM.last
      (BitVec.ofNat 64 (deviceNo s * 2 ^ 54 + 0x6000000000 + 16 * cause))
    let enters : Nat → Prop := fun cause => (fetchCheck s (fixed cause) 0).1 = none ∧ capOtype (fixed cause) = 0 ∧
      capRing (fixed cause) = 0
    (∀ agent value, platformAgent s agent = true → value.getLsbD 31 = true →
      Answers (.intSend agent value) s (fun t =>
        OnlyRegs (fun x => x == Reg.intPend (value.toNat % 16)) s t ∧
        regGet t (Reg.intPend (value.toNat % 16)) = regGet s (Reg.intPend (value.toNat % 16)) ||| 2)) ∧
    (regGet s (Reg.trapTimer n) ≠ 0 → (regGet s (Reg.trapTimer n)).toNat ≤ s.tbc.toNat →
      Answers (.trapTimerExpiry k) s (fun t =>
        OnlyRegs (fun x => (x == Reg.trapTimer n) || (x == Reg.intPend n)) s t ∧ regGet t (Reg.trapTimer n) = 0 ∧
        regGet t (Reg.intPend n) = regGet s (Reg.intPend n) ||| 1)) ∧
    (∀ b cause h s1, s.coresReleased = true → c.running = true → atBoundary c = true → c.deferred = [] → fenced s = false →
      c.wait = .none → c.st.getLsbD 0 = true → c.st.getLsbD 1 = false → bankBusy c.bankO = false → bankBusy c.bankM = false → b < 4 →
      pendingCauses s n = [cause] → cause = 16 + b → vectorEntry s n (interruptAs c cause) = .gives (.inl h) s1 →
      (capRing h).toNat ≤ (excRing c).toNat →
      Answers (.interruptEntry k) s (fun t =>
        CachedCore { c with exc := unsealed h, bankO := (coreOf t n).bankO, g := (coreOf t n).g } (coreOf t n) ∧
        (∀ r, gGet (coreOf t n) r = if r = 30 then c.bankO.tstk else gGet c r) ∧ (coreOf t n).bankO.tepc = c.exc ∧
        (fld (coreOf t n).bankO.tcause 0 6).toNat = cause ∧ bankBusy (coreOf t n).bankO = true ∧
        (coreOf t n).bankO.tstk = gGet c 30 ∧ (regGet t (Reg.intPend n)).getLsbD b = false ∧ MemKept s t)) ∧
    (regGet s (Reg.trapWdog n) ≠ 0 → (regGet s (Reg.trapWdog n)).toNat ≤ s.tbc.toNat → atBoundary c = true → c.running = true →
      s.coresReleased = true → fenced s = false → c.wait = .none → bankBusy c.bankM = false → enters 33 →
      Answers (.watchdogExpiry k) s (fun t =>
        regGet t (Reg.trapWdog n) = 0 ∧ (coreOf t n).exc = fixed 33 ∧ excRing (coreOf t n) = 0 ∧
        (coreOf t n).bankM.tepc = c.exc ∧ (fld (coreOf t n).bankM.tcause 0 6).toNat = 33 ∧ bankBusy (coreOf t n).bankM = true ∧
        (coreOf t n).bankO = c.bankO ∧ (coreOf t n).st = c.st ∧ MemKept s t)) ∧
    (regGet s (Reg.trapWdog n) ≠ 0 → (regGet s (Reg.trapWdog n)).toNat ≤ s.tbc.toNat → atBoundary c = false → c.running = true →
      s.coresReleased = true → fenced s = false →
      Answers (.watchdogExpiry k) s (fun t => t = { s with regs := t.regs, cores := t.cores } ∧
        RegsKept (fun x => x == Reg.trapWdog n) s t ∧ regGet t (Reg.trapWdog n) = 0 ∧ coreOf t n = { c with wdogDue := true } ∧
        ∀ m, m ≠ n → coreOf t m = coreOf s m)) ∧
    (s.coresReleased = true → c.running = true → fenced s = false → bankBusy c.bankM = false → enters 36 →
      Answers (.machineCheck k) s (fun t =>
        (coreOf t n).exc = fixed 36 ∧ (coreOf t n).bankM.tepc = c.exc ∧ (fld (coreOf t n).bankM.tcause 0 6).toNat = 36 ∧
        bankBusy (coreOf t n).bankM = true ∧ (coreOf t n).bankO = c.bankO ∧ (coreOf t n).wait = .none ∧ MemKept s t))

/-- Fences, ISYNC and RDTB only advance, and CSRR and CSRW read and write the core-state registers as R140 permits. That a fence has
no further effect, commands being performed in their order (log entry 1), and what CSRW leaves of a capability register (log entry
16), are the model's choices. -/
def Obligations.FencesAdvanceAndCsrsHold : Prop := FencesAdvance ∧ CsrsReadAndWrite

namespace Sys2Proof.Terms

/-- Every core holds what it held but for cache lines that have left. -/
def CachesOnly (s t : State) : Prop := ∀ m, LinesLeft (coreOf s m) (coreOf t m)

/-- The operation holds the bank that it began under: it runs, or its record is still to be written through its capability under
that bank's check (04 R110; 07 R195). -/
def holdsBank (o : Op) : Bool :=
  match o.phase, o.src with
  | .waiting, _ => false
  | .running, _ => true
  | .done, .core _ _ cc => cc != capNull && o.beganAt != 0
  | .done, .host _ _ _ => false

/-- A switch of the ACU's banks takes place (04 R109 to R111). -/
def Switched (s t : State) : Prop :=
  t = { s with acu := t.acu, regs := t.regs, cores := t.cores } ∧
  t.acu = { s.acu with active := !s.acu.active, pending := false, released := false, epoch := s.acu.epoch + 1,
                       draining := decide ((∃ o ∈ s.ops, holdsBank o = true ∧ o.bank = s.acu.active) ∨
                         ∃ e ∈ s.dir, e.2.valid = false ∧ e.2.bank = s.acu.active),
                       writeback := s.acu.writeback ++ acuChangedRanges s.acu } ∧
  regGet t Reg.acuLastSwitch = s.tbc ∧ CachesOnly s t ∧
  ∀ m < 16, ∀ p ∈ acuChangedRanges s.acu, ∀ e ∈ (coreOf t m).dcache ++ (coreOf t m).icache, ¬ (p.1 ≤ e.1 ∧ e.1 ≤ p.2)

end Sys2Proof.Terms

/-- Epoch advances: a request only marks the tenant; a request while one is in progress is merged with it; when it completes the
epoch goes up by one, from 0xFF_FFFF to 1, the key is drawn anew, and no other tenant's epoch changes. -/
def Obligations.EpochAdvancesMergeAndWrap : Prop :=
  ∀ (s : State) (agent : Agent) (fn : BitVec 8), fn.toNat ≤ 128 →
    let n := fn.toNat
    (reachesWindow s agent n = true →
      Answers (.advance agent fn) s (fun t => t = { s with advancing := t.advancing } ∧
        ∀ y, sget markDflt t.advancing y = (decide (y = n) || sget markDflt s.advancing y))) ∧
    (reachesWindow s agent 0 = true →
      Answers (.sealForce agent fn) s (fun t => t = { s with advancing := t.advancing } ∧
        ∀ y, sget markDflt t.advancing y = (decide (y = n) || sget markDflt s.advancing y))) ∧
    (sget markDflt s.advancing n = true →
      Answers (.epochAdvanceDone fn) s (fun t =>
        t = { s with advancing := t.advancing, keyDraw := t.keyDraw, regs := t.regs } ∧
        RegsKept (fun x => x == regKey n Reg.sealEpoch) s t ∧
        tenantEpoch t n = (if tenantEpoch s n = 0xFFFFFF then 1 else tenantEpoch s n + 1) ∧
        (∀ y, sget markDflt t.advancing y = (decide (y ≠ n) && sget markDflt s.advancing y)) ∧
        ∀ y, sget (fun _ => 0) t.keyDraw y = sget (fun _ => 0) s.keyDraw y + if y = n then 1 else 0))

/-- SWITCH is held while draining, waits for its deadline otherwise, and takes effect at once, with SWITCH_LATE, when AT is past;
a second one while one is pending has no effect; a released switch whose time has come exchanges the banks. -/
def Sys2Proof.Terms.AcuSwitches : Prop :=
  ∀ (s : State) (agent : Agent), acuWriter s agent = true → acuHeldByChangeSet s = false →
    let at_ := regGet s Reg.acuSwitchAt
    (s.acu.pending = true → Answers (.switch agent) s (fun t => t = s)) ∧
    (s.acu.pending = false → s.acu.draining = true →
      Answers (.switch agent) s (fun t => t = { s with acu := { s.acu with pending := true, released := false, deadline := at_ } })) ∧
    (s.acu.pending = false → s.acu.draining = false → (at_ = 0 ∨ s.tbc.toNat ≤ at_.toNat) →
      Answers (.switch agent) s (fun t => t = { s with acu := { s.acu with pending := true, released := true, deadline := at_ } })) ∧
    (s.acu.pending = false → s.acu.draining = false → at_ ≠ 0 → at_.toNat < s.tbc.toNat →
      Answers (.switch agent) s (fun t => t.acu.active = !s.acu.active ∧ t.acu.pending = false ∧ t.acu.epoch = s.acu.epoch + 1 ∧
        regGet t Reg.acuLastSwitch = s.tbc ∧ (regGet t Reg.acuErr).getLsbD 2 = true ∧ CachesOnly s t)) ∧
    (s.acu.pending = true → s.acu.released = true → s.acu.deadline.toNat ≤ s.tbc.toNat → Answers .acuSwitch s (Switched s))

/-- COPY and CLEAR fill the shadow bank: after COPY each shadow rule is the active rule, or denies every tenant where the active
rule's parity is bad; after CLEAR each is zero; neither touches the active bank. Draining ends when no operation begun under
the former bank and no copy of a hot row begun under it is left, and the write-back after a switch ends. -/
def Sys2Proof.Terms.AcuShadows : Prop :=
  ∀ (s : State) (agent : Agent), acuWriter s agent = true → acuHeldByChangeSet s = false →
    let act := s.acu.active
    (s.acu.pending = false → s.acu.draining = false → Memory.wf (fun _ => 0) (if act then s.acu.bad1 else s.acu.bad0) = true →
      Answers (.acuCopy agent) s (fun t =>
        (∀ i, acuRule t.acu act i = acuRule s.acu act i) ∧ t.acu.active = act ∧ RegsKept acuKey s t ∧ t.cores = s.cores ∧
        (∀ i, acuBad t.acu (!act) i = 0) ∧
        ∀ i, if acuBad s.acu act i = 0 then acuRule t.acu (!act) i = acuRule s.acu act i
          else acuRule t.acu (!act) i = { acuRule s.acu act i with attr := 2 })) ∧
    (s.acu.pending = false → s.acu.draining = false →
      Answers (.acuClear agent) s (fun t => t = { s with acu := t.acu } ∧ t.acu.active = act ∧
        ∀ i, acuRule t.acu (!act) i = ruleZero ∧ acuBad t.acu (!act) i = 0 ∧ acuRule t.acu act i = acuRule s.acu act i)) ∧
    (s.acu.pending = true ∨ s.acu.draining = true →
      Answers (.acuCopy agent) s (fun t => OnlyRegs (fun x => x == Reg.acuErr) s t ∧ (regGet t Reg.acuErr).getLsbD 0 = true) ∧
      Answers (.acuClear agent) s (fun t => OnlyRegs (fun x => x == Reg.acuErr) s t ∧ (regGet t Reg.acuErr).getLsbD 0 = true)) ∧
    (s.acu.draining = true → (∀ o ∈ s.ops, holdsBank o = true → o.bank = act) →
      (∀ e ∈ s.dir, e.2.valid = false → e.2.bank = act) → s.acu.pending = false →
      Answers .acuDrainEnd s (fun t => t = { s with acu := { s.acu with draining := false } })) ∧
    Answers .acuWritebackDone s (fun t => t = { s with acu := { s.acu with writeback := [] } })

/-- The access control unit switches its banks at the deadline, and COPY and CLEAR fill the shadow bank. That a completion record
still to be written through a capability holds the bank of its operation is the model's choice (log entry 17). -/
def Obligations.AcuSwitchesBanksAndFillsTheShadow : Prop := AcuSwitches ∧ AcuShadows

namespace Sys2Proof.Terms

/-- The host's own stores, byte by byte, the later over the earlier. -/
def hostAfter (s : State) (stores : List (Nat × List Byte)) : State := hostStores s stores

/-- Tail and head as the doorbell records give them (07 R183). -/
def recordTail (s : State) (fn q : Nat) : Nat := numAt (hostBytes s ((regGetFn s fn Reg.dbSqAddr).toNat + 4 * q) 4) 0 4
def recordHead (s : State) (fn c : Nat) : Nat := numAt (hostBytes s ((regGetFn s fn Reg.dbCqAddr).toNat + 4 * c) 4) 0 4

/-- The host port may read both doorbell records of a function. -/
def recordsReadable (s : State) (fn : Nat) : Prop :=
  (hostPortAccess s false (regGetFn s fn Reg.dbSqAddr).toNat 64).1 = true ∧
  (hostPortAccess s false (regGetFn s fn Reg.dbCqAddr).toNat 64).1 = true

/-- What one scan leaves of a function's tails and heads (R183): a count in range is taken; one out of range sets BAD_TAIL or
BAD_HEAD and is not. -/
def Scanned (s t : State) (fn : Nat) : Prop :=
  (∀ q, q < 16 → sqOn s fn q = true →
    if countDiff (recordTail s fn q) (sqHead s fn q) ≤ 2 ^ sqSize s fn q then
      (sget zDflt32 (fnOf t fn).tails q).toNat = recordTail s fn q
    else sget zDflt32 (fnOf t fn).tails q = sget zDflt32 (fnOf s fn).tails q ∧ (regGetFn t fn (Reg.sqStatus q)).getLsbD 0 = true) ∧
  (∀ c, c < 16 → cqOn s fn c = true →
    if countDiff (cqTail s fn c) (recordHead s fn c) ≤ 2 ^ cqSize s fn c then
      (sget zDflt32 (fnOf t fn).heads c).toNat = recordHead s fn c
    else sget zDflt32 (fnOf t fn).heads c = sget zDflt32 (fnOf s fn).heads c ∧ (regGetFn t fn (Reg.cqStatus c)).getLsbD 0 = true) ∧
  (∀ q, sqOn s fn q = false → sget zDflt32 (fnOf t fn).tails q = sget zDflt32 (fnOf s fn).tails q) ∧
  (fnOf t fn).lastScan = some s.tbc ∧
  (fnOf t fn).interval = (if (fnOf t fn).tails = (fnOf s fn).tails then min (2 * pollInterval s fn) (pollMax s fn)
    else pollMin s fn)

end Sys2Proof.Terms

/-- A poll scan that is due takes the tails and heads that the doorbell records hold, and doubles its interval when no tail moved; one
that is not due does nothing; a write of the wake page counts, sets the interval to MIN and scans. All begin with the host's own
stores; local memory, the cores but for cached lines, and the operations stand. That a scan that is not due does nothing, and that the
first one is due at once, are the model's choices (log entries 3 and 8). -/
def Obligations.PollingTakesDoorbells : Prop :=
  ∀ (s : State) (fn : BitVec 8) (stores : List (Nat × List Byte)),
    let n := fn.toNat
    let s1 := hostAfter s stores
    scanPossible s1 n = true → recordsReadable s1 n →
    Answers (.pollScan fn stores false false) s (fun t =>
      (if scanDue s n then Scanned s1 t n else t = s1) ∧ t.hostMem = s1.hostMem ∧ MemKept s t ∧ CachesOnly s t ∧ t.ops = s.ops) ∧
    Answers (.wakePageWrite fn stores false false) s (fun t =>
      (regGetFn t n Reg.wakeCount).toNat = min ((regGetFn s n Reg.wakeCount).toNat + 1) 0xFFFFFFFF ∧
      (∃ s2, s2 = setFn s1 n { fnOf s1 n with interval := pollMin s1 n } ∧ Scanned s2 t n) ∧
      t.hostMem = s1.hostMem ∧ MemKept s t ∧ CachesOnly s t ∧ t.ops = s.ops)

namespace Sys2Proof.Terms

/-- A write of a ring's control register is refused: the register holds `v`, bit `bit` of the status register is set, and no other
register differs but the pending bit of the vector that tells of it. -/
def RingRefused (s t : State) (fn ctrl status bit : Nat) (v : W64) : Prop :=
  t = { s with regs := t.regs, out := t.out } ∧
  RegsKept (fun x => (x == regKey fn ctrl) || (x == regKey fn status) || (x == regKey fn Reg.msixPba)) s t ∧
  regGetFn t fn ctrl = v ∧ (regGetFn t fn status).getLsbD bit = true

/-- The SIZE field that a ring control register holds after a write: a reserved value leaves it (00 R10). -/
def sizeAfter (old v : Nat) : Nat := if 6 ≤ v % 2 ^ 5 ∧ v % 2 ^ 5 ≤ 16 then v % 2 ^ 5 else old

/-- A ring's base can be used. That one of 2^53 or above, which no host address has, counts as misaligned is the model's choice
(log entry 17). -/
def baseUsable (base : Nat) : Prop := base % 4096 = 0 ∧ base < 2 ^ 53

end Sys2Proof.Terms

/-- A write of SQ_CTRL: an SQ that is off takes SIZE, unless it is reserved, and CQ; it is enabled too, at SQ_HEAD as its tail, when its
base is aligned and the CQ is on, and stays off with BAD_SETUP otherwise. An SQ that is on is disabled by a write that leaves the
rest; any other write changes nothing but sets BAD_SETUP. The tail taken from SQ_HEAD and the bound on a base are the model's choices
(log entry 17). -/
def Sys2Proof.Terms.SqControlWritten : Prop :=
  ∀ (s : State) (agent : Agent) (fn : BitVec 8) (i : BitVec 4) (v : W32), reachesWindow s agent fn.toNat = true →
    let n := fn.toNat
    let q := i.toNat
    let old := regGetFn s n (Reg.sqCtrl q)
    let size := sizeAfter (sqSize s n q) v.toNat
    let c := v.toNat / 2 ^ 8 % 2 ^ 4
    let base := (regGetFn s n (Reg.sqBase q)).toNat
    let written : State → Prop := fun t => sqSize t n q = size ∧ sqCq t n q = c
    (sqOn s n q = false → v.getLsbD 16 = false →
      Answers (.sqCtrlWrite agent fn i v) s (fun t => OnlyRegs (fun x => x == regKey n (Reg.sqCtrl q)) s t ∧ sqOn t n q = false ∧ written t)) ∧
    (sqOn s n q = false → v.getLsbD 16 = true → cqOn s n c = true → baseUsable base →
      Answers (.sqCtrlWrite agent fn i v) s (fun t =>
        t = { s with regs := t.regs, funcs := t.funcs } ∧ RegsKept (fun x => x == regKey n (Reg.sqCtrl q)) s t ∧
        sqOn t n q = true ∧ written t ∧ (regGetFn t n (Reg.sqCtrl q)).getLsbD 18 = false ∧
        sget zDflt32 (fnOf t n).tails q = BitVec.ofNat 32 (sqHead s n q))) ∧
    (sqOn s n q = false → v.getLsbD 16 = true → (cqOn s n c = false ∨ ¬ baseUsable base) →
      Answers (.sqCtrlWrite agent fn i v) s (fun t => sqOn t n q = false ∧ written t ∧
        RingRefused s t n (Reg.sqCtrl q) (Reg.sqStatus q) 2 (regGetFn t n (Reg.sqCtrl q)))) ∧
    (sqOn s n q = true → v.getLsbD 16 = false → size = sqSize s n q → c = sqCq s n q →
      Answers (.sqCtrlWrite agent fn i v) s (fun t => OnlyRegs (fun x => x == regKey n (Reg.sqCtrl q)) s t ∧ sqOn t n q = false ∧ written t)) ∧
    (sqOn s n q = true → (v.getLsbD 16 = true ∨ size ≠ sqSize s n q ∨ c ≠ sqCq s n q) →
      Answers (.sqCtrlWrite agent fn i v) s (fun t => RingRefused s t n (Reg.sqCtrl q) (Reg.sqStatus q) 2 old))

/-- A write of CQ_CTRL: a CQ that is off takes SIZE, unless it is reserved, and INT_EN; it is enabled too, with its tail as its head and
no entry counted toward a vector, when its base is aligned, and stays off with BAD_SETUP otherwise. A CQ that is on is disabled by
a write that leaves the rest, while no SQ bound to it is enabled or busy and no begun descriptor completes on it; any other write
changes nothing but sets BAD_SETUP. The bound on a base is the model's choice (log entry 17). -/
def Sys2Proof.Terms.CqControlWritten : Prop :=
  ∀ (s : State) (agent : Agent) (fn : BitVec 8) (i : BitVec 4) (v : W32), reachesWindow s agent fn.toNat = true →
    let n := fn.toNat
    let q := i.toNat
    let old := regGetFn s n (Reg.cqCtrl q)
    let size := sizeAfter (cqSize s n q) v.toNat
    let base := (regGetFn s n (Reg.cqBase q)).toNat
    let written : State → Prop := fun t => cqSize t n q = size ∧ (regGetFn t n (Reg.cqCtrl q)).getLsbD 17 = v.getLsbD 17
    let held : Prop := (∃ x, x < 16 ∧ sqCq s n x = q ∧ (sqOn s n x = true ∨ sqBusy s n x = true)) ∨
      ∃ o ∈ s.ops, ∃ sq pos, o.src = .host n sq pos ∧ o.cq = q
    (cqOn s n q = false → v.getLsbD 16 = false →
      Answers (.cqCtrlWrite agent fn i v) s (fun t => OnlyRegs (fun x => x == regKey n (Reg.cqCtrl q)) s t ∧ cqOn t n q = false ∧ written t)) ∧
    (cqOn s n q = false → v.getLsbD 16 = true → baseUsable base →
      Answers (.cqCtrlWrite agent fn i v) s (fun t =>
        t = { s with regs := t.regs, funcs := t.funcs } ∧ RegsKept (fun x => x == regKey n (Reg.cqCtrl q)) s t ∧
        cqOn t n q = true ∧ written t ∧ sget zDflt32 (fnOf t n).heads q = BitVec.ofNat 32 (cqTail s n q) ∧
        sget (fun _ => 0) (fnOf t n).unsent q = 0)) ∧
    (cqOn s n q = false → v.getLsbD 16 = true → ¬ baseUsable base →
      Answers (.cqCtrlWrite agent fn i v) s (fun t => cqOn t n q = false ∧ written t ∧
        RingRefused s t n (Reg.cqCtrl q) (Reg.cqStatus q) 1 (regGetFn t n (Reg.cqCtrl q)))) ∧
    (cqOn s n q = true → v.getLsbD 16 = false → size = cqSize s n q → v.getLsbD 17 = old.getLsbD 17 → ¬ held →
      Answers (.cqCtrlWrite agent fn i v) s (fun t => OnlyRegs (fun x => x == regKey n (Reg.cqCtrl q)) s t ∧ cqOn t n q = false ∧ written t)) ∧
    (cqOn s n q = true → (v.getLsbD 16 = true ∨ size ≠ cqSize s n q ∨ v.getLsbD 17 ≠ old.getLsbD 17 ∨ held) →
      Answers (.cqCtrlWrite agent fn i v) s (fun t => RingRefused s t n (Reg.cqCtrl q) (Reg.cqStatus q) 1 old))

/-- A write of SQ_CTRL or CQ_CTRL sets up a ring that is off, enables it where its base, and an SQ's CQ, allow, disables one that
nothing needs any more, and changes nothing but sets BAD_SETUP otherwise; a reserved SIZE leaves SIZE. That the tail starts at
SQ_HEAD, and that a base of 2^53 or above is refused as a misaligned one, are the model's choices (log entry 17). -/
def Obligations.RingControlEnablesAndDisables : Prop := SqControlWritten ∧ CqControlWritten

namespace Sys2Proof.Terms

/-- The waiting of R450, and with it the power latched, may begin or end as operations come, begin and end. -/
def WaitNoted (s t : State) : Prop :=
  t.power = { s.power with waitSince := t.power.waitSince, holdOver := t.power.holdOver, busy := t.power.busy }

/-- An operation's begin or end may be the one at which what a change set drains for is in flight, or no longer (07 R204 step 5). -/
def DrainNoted (s t : State) : Prop :=
  t.changeSet = s.changeSet ∨
    ∃ c d, s.changeSet = some c ∧ c.prepared = true ∧ (d = none ∨ d = some s.tbc) ∧ t.changeSet = some { c with drained := d }

/-- The registers that counting a sync counter up writes (16 R433). -/
def countKey (k : Nat) : Bool :=
  (decide (0xC0000 ≤ k) && decide (k < 0xC0420)) || k == Reg.scOps

/-- The table of operations alone differs, with what is noted as operations come, begin and end. -/
def OpsOnly (s t : State) : Prop :=
  t = { s with ops := t.ops, nextEnd := t.nextEnd, heldOps := t.heldOps, changeSet := t.changeSet, power := t.power } ∧
  DrainNoted s t ∧ WaitNoted s t

/-- The same, with the counter of an operation that has ended (07 R199). -/
def OpEnded (s t : State) : Prop := OpsOnly { s with regs := t.regs } t ∧ RegsKept countKey s t

/-- Operation `o` has left the machine, and has counted (07 R199). -/
def Retired (s t : State) (o : Op) : Prop :=
  OpsAre t (s.ops.filter (fun x => x.id != o.id)) ∧
  ∀ k, countKey k = true → sget regReset t.regs k = sget regReset (opIncrement s o).regs k

/-- Vector `v` of a function, as it goes out (07 R201). -/
def msixOf (s : State) (fn v : Nat) : Out :=
  .msix fn v ((regGetFn s fn (Reg.msixAddrHi v) <<< 32) ||| regGetFn s fn (Reg.msixAddrLo v)) ((regGetFn s fn (Reg.msixData v)).setWidth 32)

/-- A vector of a CQ goes out after `out`, or is pending where it is masked or the link carries no writes, and its count starts anew. -/
def VectorSent (s t : State) (fn c : Nat) (out : List Out) : Prop :=
  sget (fun _ => 0) (fnOf t fn).unsent c = 0 ∧
  if (regGetFn s fn (Reg.msixCtrl c)).getLsbD 0 || !hostLinkUp s then t.out = out ∧ (regGetFn t fn Reg.msixPba).getLsbD c = true
  else t.out = out ++ [msixOf s fn c]

end Sys2Proof.Terms

/-- A completion is written once it may be: 32 bytes at the tail of the completion ring, CQ_TAIL up by one, the counter of SC_EN
incremented, the operation gone, and vector c sent once COUNT entries have been written; through a core's capability into local memory,
or nowhere for a null one; a suppressed one, counted when its operation ended, is not written. -/
def Obligations.CompletionsAreWritten : Prop :=
  ∀ (s : State) (id : Nat) (o : Op), findOp s id = some o → mayComplete s o = true → fenced s = false →
    (opFlag o 11 = true → o.compl.status = 0 →
      Answers (.completionWrite id) s (fun t => OpsOnly s t ∧ OpsAre t (s.ops.filter (fun x => x.id != o.id)))) ∧
    (∀ fn q pos, o.src = .host fn q pos → ¬ (opFlag o 11 = true ∧ o.compl.status = 0) → hostLinkUp s = true →
      let c := o.cq
      let p := cqTail s fn c
      let addr := (regGetFn s fn (Reg.cqBase c)).toNat + 32 * (p % 2 ^ cqSize s fn c)
      let s1 := (hostPortAccess s true addr 32).2
      let n := sget (fun _ => 0) (fnOf s fn).unsent c
      cqOn s fn c = true → cqFull s fn c = false → hostPortWaits s addr 32 = false → (hostPortAccess s true addr 32).1 = true →
      Answers (.completionWrite id) s (fun t =>
        hostBytes t addr 32 = completionBytes (hdr o.desc 64 64) pos.toNat o.compl q (opElapsed s o) (!natBit p (cqSize s fn c)) ∧
        (∀ b, (b < addr ∨ addr + 32 ≤ b) → hostByte t b = hostByte s b) ∧ cqTail t fn c = (p + 1) % 2 ^ 32 ∧
        Retired s t o ∧ MemKept s t ∧ CachesOnly s t ∧
        ((regGetFn s fn (Reg.cqCtrl c)).getLsbD 17 = false → t.out = s1.out ∧ (fnOf t fn).unsent = (fnOf s fn).unsent) ∧
        ((regGetFn s fn (Reg.cqCtrl c)).getLsbD 17 = true →
          if (regGetFn s fn (Reg.cqInt c)).toNat % 2 ^ 16 ≤ n + 1 then VectorSent s t fn c s1.out
          else t.out = s1.out ∧ sget (fun _ => 0) (fnOf t fn).unsent c = n + 1 ∧
            (n = 0 → sget zDflt64 (fnOf t fn).firstAt c = s.tbc)))) ∧
    (∀ n seq cc, o.src = .core n seq cc → ¬ (opFlag o 11 = true ∧ o.compl.status = 0) →
      let la := laCur cc
      let bank := if o.beganAt = 0 then s.acu.active else o.bank
      (cc = capNull → Answers (.completionWrite id) s (fun t => OpEnded s t ∧ Retired s t o)) ∧
      (cc ≠ capNull → localFabric s false (capCursor cc).toNat = true → inMemory la → la % 32 = 0 → accessReady s la = true →
        StoreTaken s la 32 → natBit la 53 = false →
        (acuCheckIn s bank .hostPort o.tenant.toNat (kEngine ||| kWrite) (capHas cc rSYS) true la).1.ok = true →
        (acuCheckIn s bank .hostPort o.tenant.toNat (kEngine ||| kWrite) (capHas cc rSYS) true la).2 = s →
        Answers (.completionWrite id) s (fun t =>
          BytesWritten s t la (completionBytes (hdr o.desc 64 64) seq.toNat o.compl 0 (opElapsed s o) false) ∧
          TagsWritten s t la 32 false ∧ Retired s t o ∧ RegsKept countKey s t ∧ CachesOnly s t)))

namespace Sys2Proof.Terms

/-- Vector `v` of a function waits to go out: pending and not masked (07 R201). -/
def vectorWaits (s : State) (fn v : Nat) : Bool :=
  (regGetFn s fn Reg.msixPba).getLsbD v && !(regGetFn s fn (Reg.msixCtrl v)).getLsbD 0

end Sys2Proof.Terms

/-- Host link training records rate, width and mode, sends the vectors that waited for the link, the functions in ascending order and
each one's vectors in theirs, and without Flit mode leaves the port configuration only; a cleared cove opens; a delayed completion vector
is sent, and its count starts anew. That vectors wait for a link that is down and go out as it trains, and that its training ends a dip's
standstill, are the model's choices (log entries 8 and 26). -/
def Obligations.HostPortEvents : Prop :=
  ∀ (s : State),
    (∀ (rate : BitVec 3) (width : BitVec 5), inReset s = false → phyStopped s = false → 1 ≤ rate.toNat →
      rate.toNat ≤ 6 → width.toNat ∈ [1, 2, 4, 8, 16] →
      Answers (.hostLinkTraining true rate width) s (fun t =>
        t = { s with regs := t.regs, out := t.out, power := { s.power with pcieBy := none } } ∧
        RegsKept (fun x => (x == Reg.hpLink) || (List.range 129).any (fun f => x == regKey f Reg.msixPba)) s t ∧
        t.out = s.out ++ (List.range 129).flatMap (fun f => ((List.range 17).filter (vectorWaits s f)).map (msixOf s f)) ∧
        (∀ f v, f < 129 → v < 17 → (regGetFn t f Reg.msixPba).getLsbD v =
          ((regGetFn s f Reg.msixPba).getLsbD v && (regGetFn s f (Reg.msixCtrl v)).getLsbD 0)) ∧
        regFld t Reg.hpLink 0 3 = rate.toNat ∧ regFld t Reg.hpLink 3 5 = width.toNat ∧ hostLinkUp t = true) ∧
      Answers (.hostLinkTraining false rate width) s (fun t =>
        regFld t Reg.hpLink 0 3 = 1 ∧ regFld t Reg.hpLink 3 5 = width.toNat ∧ regBit t Reg.hpLink 10 = true ∧ hostLinkUp t = false ∧
        (regGet t Reg.hpErr).getLsbD 2 = true)) ∧
    (∀ cove : BitVec 5, Answers (.coveClearDone cove) s (fun t => t = { s with coveClearing := t.coveClearing } ∧
      ∀ y, sget markDflt t.coveClearing y = (decide (y ≠ cove.toNat) && sget markDflt s.coveClearing y))) ∧
    (∀ (fn : BitVec 8) (cq : BitVec 4),
      let n := fn.toNat
      let c := cq.toNat
      let delay := regGetFn s n (Reg.cqInt c)
      let f := fnOf s n
      delay.toNat / 2 ^ 16 % 2 ^ 16 ≠ 0 → (regGetFn s n (Reg.cqCtrl c)).getLsbD 17 = true → sget (fun _ => 0) f.unsent c ≠ 0 →
      delay.toNat / 2 ^ 16 % 2 ^ 16 * 1000 ≤ elapsed s (sget zDflt64 f.firstAt c) →
      Answers (.cqIntDelayExpiry fn cq) s (fun t =>
        t = { s with regs := t.regs, out := t.out, funcs := t.funcs } ∧ RegsKept (fun x => x == regKey n Reg.msixPba) s t ∧
        VectorSent s t n c s.out))

namespace Sys2Proof.Terms

/-- Operation `id` runs with this command (07 R187 to R194, R567; 17 R449): it begins now and no field, owner, engine or deadline
stops it, or it had begun and goes on; `o` is how it stands, `r` how it runs. -/
def opRuns (s : State) (id : Nat) (o r : Op) (opcode : Nat) (fields : State → Op → Option Nat) : Prop :=
  findOp s id = some o ∧ o.opcode.toNat = opcode ∧ fenced s = false ∧ fields s o = none ∧
  ((o.phase = .waiting ∧ mayBegin s o = true ∧ beginFault s o fields = none ∧
      r = { accept s o with phase := .running, deadline := if o.opcode = 8 then none else opDeadline s o, bank := s.acu.active,
                            beganAt := nextBegan s }) ∨
    (o.phase = .running ∧ r = o)) ∧
  ∀ d, r.deadline = some d → passed s d = false

/-- The sync counters stand, but for the increment that an operation makes as it ends where its completion is suppressed (07 R199). -/
def EndCounted (s t : State) (o : Op) : Prop :=
  ∀ k, countKey k = true → sget regReset t.regs k = sget regReset (if suppressed o then opIncrement s o else s).regs k

/-- Operation `id` has ended now, with this completion still to be written or suppressed, and has counted; every other operation
stands, but for its place in the order of those that are ready to begin (17 R449). -/
def opEnds (s t : State) (id : Nat) (c : Compl) : Prop :=
  (∃ o, findOp t id = some o ∧ o.phase = .done ∧ o.compl = c ∧ o.ended = s.tbc ∧ EndCounted s t o) ∧
  ∀ j, j ≠ id → (findOp t j).map unready = (findOp s j).map unready

/-- An engine may access every byte of local [a, a + n) for slot `slot` now: the rules permit it without finding a bad rule
(04 R106), nothing makes it wait, and it is memory free of poison. -/
def rangePasses (s : State) (r : Op) (who : Who) (slot : Nat) (write : Bool) (a n : Nat) : Prop :=
  ∀ x, a ≤ x → x < a + n → inMemory x ∧ poisonAt s x = false ∧ accessReady s x = true ∧
    (acuCheckIn s r.bank who r.tenant.toNat (kEngine ||| (if write then kWrite else kRead)) (capHas (opSlot r slot).cap rSYS) write x).2 = s ∧
    (acuCheckIn s r.bank who r.tenant.toNat (kEngine ||| (if write then kWrite else kRead)) (capHas (opSlot r slot).cap rSYS) write x).1.ok = true

/-- The same over host bus space, which holds no poison that the device could find. -/
def hostPasses (s : State) (r : Op) (slot : Nat) (write : Bool) (a n : Nat) : Prop :=
  ∀ x, a ≤ x → x < a + n → regionOf x = .host ∧ accessReady s x = true ∧
    (acuCheckIn s r.bank .hostPort r.tenant.toNat (kEngine ||| (if write then kWrite else kRead)) (capHas (opSlot r slot).cap rSYS) write x).2 = s ∧
    (acuCheckIn s r.bank .hostPort r.tenant.toNat (kEngine ||| (if write then kWrite else kRead)) (capHas (opSlot r slot).cap rSYS) write x).1.ok = true

/-- The local address of a slot's cursor. -/
def slotLa (r : Op) (slot : Nat) : Nat := localPart (slotAddr r slot 0)

/-- Slot `slot` is a local capability whose checks (03 R63) pass over `ext` bytes from its cursor. -/
def slotFits (s : State) (r : Op) (slot : Nat) (write : Bool) (ext : Nat) : Prop :=
  capCheck (opSlot r slot).cap 0 (if write then rST ||| rDMA else rLD ||| rDMA) true (slotAddr r slot 0) ext 1 = none ∧
  localFabric s false (slotAddr r slot 0) = true

/-- What an engine's operation may touch beside its own registers: memory, lines of caches, and the table of operations. -/
def OpFrame (s t : State) : Prop :=
  t = { s with mem := t.mem, tags := t.tags, poison := t.poison, hostMem := t.hostMem, cores := t.cores, ops := t.ops, regs := t.regs,
               nextEnd := t.nextEnd, heldOps := t.heldOps, changeSet := t.changeSet, power := t.power } ∧
  RegsKept countKey s t ∧ CachesOnly s t ∧ DrainNoted s t ∧ WaitNoted s t

/-- Two ranges have no byte in common. -/
def apart (a n b m : Nat) : Prop := a + n ≤ b ∨ b + m ≤ a

end Sys2Proof.Terms

/-- NOP and COPY complete. NOP changes nothing but its operation. COPY moves LENGTH bytes from inline data, local memory or host
memory to local or host memory, with DETAIL the bytes copied; a host read that fails ends it with HOST_ERROR at its offset; a
denied first block ends it with REGION_DENIED, slot 0. -/
def Obligations.NopAndCopyComplete : Prop :=
  ∀ (s : State) (id : Nat) (o r : Op),
    (opRuns s id o r 0 hostFields →
      Answers (.nop id) s (fun t => opEnds s t id (complOk 0) ∧
        OpEnded s t ∧ t.nextEnd = s.nextEnd + 1)) ∧
    (opRuns s id o r 1 hostFields →
      let n := param o 160 64
      let src := slotLa r 0
      let dst := slotLa r 1
      (∀ hf, slotKind o.desc 0 = 2 → slotFits s r 1 true n → rangePasses s r .hostPort 1 true dst n →
        Answers (.copy id hf) s (fun t => opEnds s t id (complOk n) ∧ OpFrame s t ∧ t.hostMem = s.hostMem ∧
          BytesWritten s t dst (bytesAt (opSlot r 0).data 0 n) ∧ TagsWritten s t dst n false)) ∧
      (∀ hf, slotKind o.desc 0 = 1 → slotFits s r 0 false n → slotFits s r 1 true n → rangePasses s r .hostPort 0 false src n →
        rangePasses s r .hostPort 1 true dst n → apart src n dst n →
        Answers (.copy id hf) s (fun t => opEnds s t id (complOk n) ∧ OpFrame s t ∧ t.hostMem = s.hostMem ∧
          BytesWritten s t dst (memBytes s src n) ∧ TagsWritten s t dst n false)) ∧
      (∀ hf, slotKind o.desc 0 = 1 → slotFits s r 0 false n → slotFits s r 1 true n → hostPasses s r 0 false src n →
        rangePasses s r .hostPort 1 true dst n → (∀ f, hf = some f → n ≤ f) →
        Answers (.copy id hf) s (fun t => opEnds s t id (complOk n) ∧ OpFrame s t ∧ t.hostMem = s.hostMem ∧
          BytesWritten s t dst (hostBytes s (src - 2 ^ 53) n) ∧ TagsWritten s t dst n false)) ∧
      (∀ hf, slotKind o.desc 0 = 1 → slotFits s r 0 false n → slotFits s r 1 true n → rangePasses s r .hostPort 0 false src n →
        hostPasses s r 1 true dst n →
        Answers (.copy id hf) s (fun t => opEnds s t id (complOk n) ∧ OpFrame s t ∧ MemKept s t ∧
          ∀ b, hostByte t b = if dst - 2 ^ 53 ≤ b ∧ b < dst - 2 ^ 53 + n then memByte s (src + (b - (dst - 2 ^ 53))) else hostByte s b)) ∧
      (∀ f, slotKind o.desc 0 = 1 → slotFits s r 0 false n → slotFits s r 1 true n → hostPasses s r 0 false src n →
        rangePasses s r .hostPort 1 true dst n → f < n →
        Answers (.copy id (some f)) s (fun t => opEnds s t id (compl 0x0A 0 0 f) ∧ OpFrame s t ∧
          ∀ x, (x < dst ∨ dst + f ≤ x) → memByte t x = memByte s x)) ∧
      (∀ hf, slotKind o.desc 0 = 1 → slotFits s r 0 false n → slotFits s r 1 true n →
        (acuCheckIn s r.bank .hostPort r.tenant.toNat (kEngine ||| kRead) (capHas (opSlot r 0).cap rSYS) false src).1.ok = false →
        Answers (.copy id hf) s (fun t => opEnds s t id (compl 3 0 0 0) ∧ MemKept s t ∧ t.hostMem = s.hostMem)))

namespace Sys2Proof.Terms

/-- The element of `size` bytes at row `i`, column `j` of an operand at `base` with rows `stride` apart. -/
def elemAt (s : State) (base stride size i j : Nat) : Nat := numIn s (base + i * stride + j * size) size

/-- The lane of output (i, j) of a MATMUL (12 R331, R333, R335): from C, or zero, the products of each k-block of the tile shape
added in ascending order. -/
def matLane (s : State) (r : Op) (p : Matmul) (i j : Nat) : Lane :=
  let x (k : Nat) : FVal := inValue p.inFmt p.xUns (elemAt s (slotLa r 0) p.xs (inBytes p.inFmt) i k)
  let w (k : Nat) : FVal := inValue p.inFmt p.wUns (elemAt s (slotLa r 1) p.ws (inBytes p.inFmt) k j)
  let first := if p.cEn then laneOfC (exactFmt p.inFmt) (elemAt s (slotLa r 3) p.cs (cBytes p.inFmt) i j) else laneZero
  (List.range (cdiv p.k (tileK p))).foldl (fun l b =>
    let ks := (List.range (min (tileK p) (p.k - b * tileK p))).map (fun k => b * tileK p + k)
    laneAccumulate (exactFmt p.inFmt) l (ks.map x) (ks.map w)) first

/-- OFFSETS[g] of a SEGMENT_SUM. -/
def segOff (s : State) (r : Op) (g : Nat) : Nat := numIn s (slotLa r 1 + 4 * g) 4

/-- Rows that the bounds of ROWS hold (12 R344). -/
def segRowsHeld (r : Op) : Nat :=
  let size := (segSumOf r).d * inBytes (segSumOf r).inFmt
  if size ≤ segRowsBytes r then (segRowsBytes r - size) / segRow (segSumOf r) + 1 else 0

/-- Registers that only count what a dense transform array did. -/
def dtaKey (q k : Nat) : Bool := k == Reg.dtaProducts q

end Sys2Proof.Terms

/-- MATMUL completes: element (i, j) of Y is the conversion of its accumulator lane, whose products are added k-block by k-block
from C or zero; RESULT is M; nothing outside the rows of Y is written. -/
def Sys2Proof.Terms.MatmulWrites : Prop :=
  ∀ (s : State) (id : Nat) (o r : Op), opRuns s id o r 0x10 matmulFields →
    let p := matmulOf o
    let y := slotLa r 2
    let ob := outBytes p.outFmt
    (∀ e ∈ matmulSlots p, slotFits s r e.1 e.2.2 e.2.1 ∧ rangePasses s r .dta e.1 e.2.2 (slotLa r e.1) e.2.1) →
    (p.outFmt = 8 → slotAddr r 2 0 % 32 = 0 ∧ p.ys % 32 = 0) →
    (p.cEn = true → exactFmt p.inFmt = true → slotAddr r 3 0 % 32 = 0 ∧ p.cs % 32 = 0) →
    Answers (.matmul id) s (fun t =>
      (∃ tally, opEnds s t id (dtaDone p.m tally)) ∧
      OpFrame s { t with dtas := s.dtas, regs := s.regs } ∧ RegsKept (fun k => countKey k || dtaKey o.queue.toNat k) s t ∧ t.hostMem = s.hostMem ∧
      (∀ q, q ≠ o.queue.toNat → dtaOf t q = dtaOf s q) ∧
      (∀ i j, i < p.m → j < p.n →
        memBytes t (y + i * p.ys + j * ob) ob = (laneOut p.outFmt p.ovf p.scale (exactFmt p.inFmt) (matLane s r p i j)).1) ∧
      ∀ x, (∀ i, i < p.m → x < y + i * p.ys ∨ y + i * p.ys + p.n * ob ≤ x) → memByte t x = memByte s x)

/-- SEGMENT_SUM completes: element e of output row g is the sum, or mean, of that element over the rows OFFSETS[g] to
OFFSETS[g + 1] - 1, +0 for an empty segment; OFFSETS that fall, or that pass the rows held, end it with reason 1 or 2 and DETAIL
the segment. -/
def Sys2Proof.Terms.SegmentSumAdds : Prop :=
  ∀ (s : State) (id : Nat) (o r : Op), opRuns s id o r 0x11 segSumFields →
    let p := segSumOf o
    let ob := outBytes p.outFmt
    let out := slotLa r 2
    slotFits s r 0 false 0 → slotFits s r 1 false (4 * (p.segs + 1)) → slotFits s r 2 true (segOutExtent p) →
    rangePasses s r .dta 1 false (slotLa r 1) (4 * (p.segs + 1)) → rangePasses s r .dta 2 true out (segOutExtent p) →
    (p.outFmt = 8 → slotAddr r 2 0 % 32 = 0) →
    (segRowsHeld r < segOff s r 0 → Answers (.segmentSum id) s (fun t => opEnds s t id (compl 0x30 2 0 0) ∧ MemKept s t)) ∧
    (rangePasses s r .dta 0 false (slotLa r 0) (segOff s r p.segs * segRow p) →
      (∀ g, g < p.segs → segOff s r g ≤ segOff s r (g + 1) ∧ segOff s r (g + 1) ≤ segRowsHeld r) →
      Answers (.segmentSum id) s (fun t =>
        (∃ tally, opEnds s t id (dtaDone p.segs tally)) ∧ OpFrame s t ∧ t.hostMem = s.hostMem ∧
        (∀ g e, g < p.segs → e < p.d →
          memBytes t (out + g * segOutRow p + e * ob) ob =
            (segElement p ((List.range (segOff s r (g + 1) - segOff s r g)).map (fun i =>
              elemAt s (slotLa r 0) (segRow p) (inBytes p.inFmt) (segOff s r g + i) e))).1) ∧
        ∀ x, (∀ g, g < p.segs → x < out + g * segOutRow p ∨ out + g * segOutRow p + p.d * ob ≤ x) →
          memByte t x = memByte s x)) ∧
    (∀ g, g < p.segs → segOff s r 0 ≤ segRowsHeld r →
      rangePasses s r .dta 0 false (slotLa r 0) (segOff s r g * segRow p) → (∀ h, h < g → segOff s r h ≤ segOff s r (h + 1) ∧ segOff s r (h + 1) ≤ segRowsHeld r) →
      (segOff s r (g + 1) < segOff s r g → Answers (.segmentSum id) s (fun t => opEnds s t id (compl 0x30 1 0 g))) ∧
      (segOff s r g ≤ segOff s r (g + 1) → segRowsHeld r < segOff s r (g + 1) →
        Answers (.segmentSum id) s (fun t => opEnds s t id (compl 0x30 2 0 g))))

/-- MATMUL writes its product and SEGMENT_SUM the sum of each segment. That off[0] of a SEGMENT_SUM is checked first is the model's
choice (log entry 39). -/
def Obligations.TensorArraysMultiplyAndSum : Prop := MatmulWrites ∧ SegmentSumAdds

namespace Sys2Proof.Terms

/-- Index `i` of the list in slot `slot` (10 R280, R290). -/
def listIndex (s : State) (r : Op) (slot i : Nat) : Nat := numIn s (slotLa r slot + i * geWidth r) (geWidth r)

/-- An engine obtains the `m` bytes `bs` at fabric address `b` for a slot: they are local and pass, or the slot has GLOB and the
response for that block has come (15 R405, R407). -/
def blockGives (s : State) (r : Op) (who : Who) (slot b m : Nat) (bs : List Byte) : Prop :=
  if localFabric s false b then rangePasses s r who slot false (localPart b) m ∧ bs = memBytes s (localPart b) m
  else fabricDenied s false b = false ∧ capHas (opSlot r slot).cap rGLOB = true ∧
    r.fetched.find? (fun f => f.1 == b) = some (b, 0, bs)

/-- The `n` bytes `bs` at a fabric address, block by block. -/
def bytesGive (s : State) (r : Op) (who : Who) (slot a n : Nat) (bs : List Byte) : Prop :=
  ∃ parts : List (List Byte), bs = parts.flatten ∧ parts.length = (blocksOf a n).length ∧
    ∀ (i b : Nat), (blocksOf a n)[i]? = some b →
      blockGives s r who slot b (min (a + n) (alignDown b 64 + 64) - b) (parts.getD i [])

/-- The register that counts the reads of an operation's gather engine. -/
def geKey (o : Op) (k : Nat) : Bool := k == Reg.geReads (geCove o)

end Sys2Proof.Terms

/-- GATHER_ROWS and SCATTER_ROWS complete. A gather writes to output row i the table row that index i names, local or of another
device, and zeros for an invalid index when those are allowed; a scatter gives each named row the row of its last position in
the list and leaves the others. An invalid index that is not allowed ends either with GATHER_BAD_INDEX at its position, a
scatter before any byte is written. -/
def Obligations.GatherAndScatterMoveRows : Prop :=
  ∀ (s : State) (id : Nat) (o r : Op),
    let n := geCount o
    let rb := geRowBytes o
    slotFits s r 0 false (n * geWidth o) → rangePasses s r .ge 0 false (slotLa r 0) (n * geWidth o) →
    (walkOf s (geCove o)).promoted = [] →
    (opRuns s id o r 0x30 geFields →
      let rows := slotRoom r 1 / rb
      let bad := ((List.range n).filter (fun i => decide (rows ≤ listIndex s r 0 i))).length
      slotFits s r 2 true (n * rb) → rangePasses s r .ge 2 true (slotLa r 2) (n * rb) →
      capCheck (opSlot r 1).cap 0 (rLD ||| rDMA) true (slotAddr r 1 0) (rows * rb) 1 = none →
      (∀ row : Nat → List Byte,
        (∀ i, i < n → listIndex s r 0 i < rows →
          bytesGive s r .ge 1 (slotAddr r 1 (listIndex s r 0 i * rb)) rb (row i)) →
        (bad = 0 ∨ geHandles o = true) →
        Answers (.gatherRows id) s (fun t =>
          opEnds s t id (compl 0 (if bad = 0 then 0 else 1) (BitVec.ofNat 32 (n - bad)) bad) ∧
          OpFrame s { t with regs := s.regs } ∧ RegsKept (fun k => countKey k || geKey o k) s t ∧ t.hostMem = s.hostMem ∧
          (∀ i, i < n → memBytes t (slotLa r 2 + i * rb) rb =
            if listIndex s r 0 i < rows then row i else List.replicate rb 0) ∧
          ∀ x, (x < slotLa r 2 ∨ slotLa r 2 + n * rb ≤ x) → memByte t x = memByte s x)) ∧
      (∀ i, i < n → rows ≤ listIndex s r 0 i → (∀ j, j < i → listIndex s r 0 j < rows) → geHandles o = false →
        (∀ j, j < i → ∃ bs, bytesGive s r .ge 1 (slotAddr r 1 (listIndex s r 0 j * rb)) rb bs) →
        Answers (.gatherRows id) s (fun t => opEnds s t id (compl 0x28 0 0 i)))) ∧
    (opRuns s id o r 0x31 geFields →
      let rows := slotRoom r 2 / rb
      let dst := slotLa r 2
      let bad := ((List.range n).filter (fun i => decide (rows ≤ listIndex s r 0 i))).length
      slotFits s r 1 false (n * rb) → rangePasses s r .ge 1 false (slotLa r 1) (n * rb) →
      slotFits s r 2 true (rows * rb) →
      (∀ i, i < n → listIndex s r 0 i < rows → rangePasses s r .ge 2 true (dst + listIndex s r 0 i * rb) rb) →
      ((bad = 0 ∨ geHandles o = true) →
        Answers (.scatterRows id) s (fun t =>
          opEnds s t id (compl 0 (if bad = 0 then 0 else 1) (BitVec.ofNat 32 (n - bad)) bad) ∧
          OpFrame s { t with regs := s.regs } ∧ RegsKept (fun k => countKey k || geKey o k) s t ∧ t.hostMem = s.hostMem ∧
          (∀ i, i < n → listIndex s r 0 i < rows → (∀ j, i < j → j < n → listIndex s r 0 j ≠ listIndex s r 0 i) →
            memBytes t (dst + listIndex s r 0 i * rb) rb = memBytes s (slotLa r 1 + i * rb) rb) ∧
          ∀ x, (∀ i, i < n → listIndex s r 0 i < rows →
              x < dst + listIndex s r 0 i * rb ∨ dst + listIndex s r 0 i * rb + rb ≤ x) → memByte t x = memByte s x)) ∧
      (∀ i, i < n → rows ≤ listIndex s r 0 i → (∀ j, j < i → listIndex s r 0 j < rows) → geHandles o = false →
        Answers (.scatterRows id) s (fun t => opEnds s t id (compl 0x28 0 0 i) ∧ MemKept s t)))

namespace Sys2Proof.Terms

/-- ROWPTR[v] of a walk. -/
def rowPtr (s : State) (r : Op) (v : Nat) : Nat := numIn s (slotLa r 0 + 8 * v) 8
/-- COLIDX[p] of a walk. -/
def colIdx (s : State) (r : Op) (p : Nat) : Nat := numIn s (slotLa r 1 + p * geWidth r) (geWidth r)

/-- The first-hop entries that a walk samples for seed `i` (10 R282, R284): positions in COLIDX, in order. -/
def seedEntries (s : State) (r : Op) (i : Nat) : List Nat :=
  let v := listIndex s r 2 i
  if v < walkN r then
    (walkSample (regGet s (Reg.geSeed r.tenant.toNat)) (param r 224 32) v 0 (param r 192 11) (rowPtr s r (v + 1) - rowPtr s r v)).map
      (fun p => rowPtr s r v + p)
  else []

/-- Every read that seeds 0 to `k` of a walk need up to the first entry of seed `k` passes, and so does the graph check of every
valid one of them (R281). -/
def seedsReadable (s : State) (r : Op) (k : Nat) : Prop :=
  slotFits s r 0 false (8 * (walkN r + 1)) ∧ slotFits s r 1 false (walkL r * geWidth r) ∧
  slotFits s r 2 false (geCount r * geWidth r) ∧ rangePasses s r .ge 2 false (slotLa r 2) ((k + 1) * geWidth r) ∧
  (∀ i, i ≤ k → listIndex s r 2 i < walkN r →
    rangePasses s r .ge 0 false (slotLa r 0 + 8 * listIndex s r 2 i) 16 ∧
    rowPtr s r (listIndex s r 2 i) ≤ rowPtr s r (listIndex s r 2 i + 1) ∧ rowPtr s r (listIndex s r 2 i + 1) ≤ walkL r ∧
    rowPtr s r (listIndex s r 2 i + 1) - rowPtr s r (listIndex s r 2 i) < 2 ^ 32) ∧
  ∀ e ∈ seedEntries s r k, rangePasses s r .ge 1 false (slotLa r 1 + e * geWidth r) (geWidth r)

/-- Operation `id` goes on. -/
def opRunning (t : State) (id : Nat) : Prop := ∃ o, findOp t id = some o ∧ o.phase = .running

end Sys2Proof.Terms

/-- A WALK that begins reads its seeds, samples each valid one by the drawn positions, and stands at the first sampled entry, with
OUT_OFFSETS written for the seeds up to it. Each index check that retires keeps a valid entry, writing it to OUT_NBR and promoting
what was read ahead for it, in a two-hop walk only where the graph check of that vertex passes, or drops and counts an invalid one
with what was read ahead for it, or ends the walk with GATHER_BAD_INDEX, and takes up the next entry; the last one of a one-hop walk
without features writes the last offset and ends the walk with the number of entries kept. That one entry is retired at a time, and
that a graph check that fails at the retirement keeps the entry and discards what was read ahead, are the model's choices (log entries
20 and 41). -/
def Obligations.WalksSampleAndRetire : Prop :=
  (∀ (s : State) (id : Nat) (o r : Op) (k e0 : Nat) (es : List Nat), opRuns s id o r 0x32 geFields → o.phase = .waiting →
    o.queue.toNat / 0x20 = 1 → (∀ e ∈ s.walks, e.2.op ≠ id) → seedsReadable s r k →
    (geHandles o = true ∨ ∀ i, i ≤ k → listIndex s r 2 i < walkN r) →
    slotFits s r 3 true (4 * (k + 1)) → rangePasses s r .ge 3 true (slotLa r 3) (4 * (k + 1)) →
    localFabric s false (slotAddr r 4 0) = true → (walkFeatures o = true → localFabric s false (slotAddr r 6 0) = true) →
    k < geCount o → seedEntries s r k = e0 :: es → (∀ i, i < k → seedEntries s r i = []) →
    Answers (.walk id) s (fun t =>
      let w := walkOf t (geCove o)
      opRunning t id ∧ w.op = id ∧ w.ready = true ∧ w.kept = [] ∧ w.seed = regGet s (Reg.geSeed o.tenant.toNat) ∧
      w.bad = ((List.range k).filter (fun i => decide (walkN r ≤ listIndex s r 2 i))).length ∧
      w.front = some (e0, colIdx s r e0) ∧ w.entries.map (fun e => e.1) = es ∧ w.left = geCount o - (k + 1) ∧
      w.spec = [] ∧ w.promoted = [] ∧ (∀ i, i ≤ k → numIn t (slotLa r 3 + 4 * i) 4 = 0) ∧
      ∀ x, (x < slotLa r 3 ∨ slotLa r 3 + 4 * (k + 1) ≤ x) → memByte t x = memByte s x)) ∧
  (∀ (s : State) (id : Nat) (o r : Op) (c : BitVec 5) (p u : Nat), opRuns s id o r 0x32 geFields →
    let w := walkOf s c.toNat
    let n1 := w.kept.length
    let nbr := slotLa r 4
    w.op = id → w.ready = true → geCove o = c.toNat → walkHeld s id = true → o.phase = .running → w.front = some (p, u) →
    slotFits s r 4 true (8 * (n1 + 1)) → rangePasses s r .ge 4 true (nbr + 8 * n1) 8 → n1 + 1 < 2 ^ 32 →
    (∀ p' c' rest, w.entries = (p', c') :: rest → (c' = geCove o ∨ engineOffline s (0x20 + c') = false) →
      slotFits s r 1 false ((p' + 1) * geWidth r) → rangePasses s r .ge 1 false (slotLa r 1 + p' * geWidth r) (geWidth r) →
      (u < walkN o → (walkTwo o = true → accessReady s (localPart (slotAddr o 0 (8 * u))) = true) →
        Answers (.indexCheckRetire c) s (fun t =>
        let w' := walkOf t c.toNat
        opRunning t id ∧ BytesWritten s t (nbr + 8 * n1) (toBytes 8 u) ∧
        w' = { w with kept := w.kept ++ [u], entries := rest, front := w'.front, spec := [], promoted := w'.promoted } ∧
        ∃ u' ahead, w'.front = some (p', u') ∧ (ahead = w.spec ∨ walkTwo o = true ∧ ahead = []) ∧
          (∀ bs, walkTwo o = true → specBytes o w.spec 0 (8 * u) 16 = some bs →
            ahead = if numAt bs 0 8 ≤ numAt bs 8 8 ∧ numAt bs 8 8 ≤ walkL o ∧ numAt bs 8 8 - numAt bs 0 8 < 2 ^ 32 then w.spec
              else []) ∧
          ((∀ x ∈ w.promoted ++ ahead, x.slot ≠ 1) → u' = colIdx s r p' ∧ w'.promoted = w.promoted ++ ahead))) ∧
      (walkN o ≤ u → geHandles o = true → Answers (.indexCheckRetire c) s (fun t =>
        let w' := walkOf t c.toNat
        opRunning t id ∧ MemKept s t ∧
        w' = { w with bad := w.bad + 1, entries := rest, front := w'.front, spec := [], promoted := w'.promoted } ∧
        ∃ u', w'.front = some (p', u') ∧
          ((∀ x ∈ w.promoted, x.slot ≠ 1) → u' = colIdx s r p' ∧ w'.promoted = w.promoted)))) ∧
    (w.entries = [] → w.left = 0 → walkTwo o = false → walkFeatures o = false → u < walkN o →
      slotFits s r 3 true (4 * (geCount o + 1)) → rangePasses s r .ge 3 true (slotLa r 3 + 4 * geCount o) 4 →
      Answers (.indexCheckRetire c) s (fun t =>
        opEnds s t id (compl 0 ((if w.bad = 0 then 0 else 1) + if w.hubs = 0 then 0 else 2) (BitVec.ofNat 32 (n1 + 1))
          (badCount w.bad * 2 ^ 32)) ∧ (walkOf t c.toNat).ready = false ∧
        numIn t (slotLa r 3 + 4 * geCount o) 4 = n1 + 1 ∧ memBytes t (nbr + 8 * n1) 8 = toBytes 8 u)) ∧
    (walkN o ≤ u → geHandles o = false →
      Answers (.indexCheckRetire c) s (fun t => opEnds s t id (compl 0x28 0 0 (2 ^ 62 + p)) ∧ MemKept s t)))

namespace Sys2Proof.Terms

/-- What a command on tables may touch: slots, the directory, the operations, and the counter of one that has ended. -/
def TableFrame (s t : State) : Prop :=
  t = { s with tables := t.tables, dir := t.dir, bound := t.bound, updates := t.updates, ops := t.ops, nextEnd := t.nextEnd, heldOps := t.heldOps,
               changeSet := t.changeSet, power := t.power, regs := t.regs } ∧ RegsKept countKey s t ∧ DrainNoted s t ∧ WaitNoted s t

/-- A table slot with SWITCH_PENDING down where no switch of it is held any more. -/
def pendingNow (t : State) (x : Tbl) (j : Nat) : Tbl := { x with switchPending := x.switchPending && switchHeld t j }
/-- Every table slot stands but for that. -/
def TablesKept (s t : State) : Prop := ∀ j, tblOf t j = pendingNow t (tblOf s j) j

/-- The directory without the entries of one record. -/
def dirWithout (s : State) (t : Nat) (no : Bool) : SMap DirEntry := s.dir.filter (fun e => !(e.2.table == t && e.2.recNo == no))

/-- The operation may use its table slot (11 R320, R323). -/
def ownsTable (s : State) (o : Op) : Prop := (tblOf s (embTable o)).owned = true ∧ (tblOf s (embTable o)).tenant = o.tenant

/-- Capability checks of slot `n` over `ext` bytes from its cursor. -/
def capCovers (r : Op) (n : Nat) (mask : BitVec 12) (ext : Nat) : Prop :=
  capCheck (opSlot r n).cap 0 mask true (slotAddr r n 0) ext 1 = none

end Sys2Proof.Terms

/-- TABLE_DEFINE claims a free slot and puts the record it describes, after the checks of its capabilities; TABLE_SWITCH makes the
record of that GEN active in one step, the former one draining while lookups are bound to it, and is held while a drain lasts or
a change set is about to switch the table;
TABLE_RETIRE undefines a record, or frees the slot once no lookup is bound, which tenant 0 may do of a stopped tenant's slot; a drain's end retires the former record's directory
entries and applies a held switch. -/
def Sys2Proof.Terms.TablesSwitch : Prop :=
  ∀ (s : State) (id : Nat) (o r : Op),
    let n := embTable o
    let x := tblOf s n
    let k := embRec o
    (opRuns s id o r 0x60 embFields → (x.owned = false ∨ x.tenant = o.tenant) → (x.draining = true → x.active = k) →
      let d := defRecord o
      (∀ i, i < d.shards → capCovers r (2 + i) (if d.writable then rLD ||| rDMA ||| rST ||| rATOM else rLD ||| rDMA)
        (cdiv d.rows d.shards * d.rowBytes)) →
      (slotKind o.desc 0 = 1 → capCovers r 0 (rLD ||| rDMA) (cdiv d.rows 8)) →
      (d.migrate = true → capCovers r 1 (rLD ||| rST ||| rDMA) d.rowBytes) →
      Answers (.tableDefine id) s (fun t => opEnds s t id (complOk 0) ∧ TableFrame s t ∧ t.dir = dirWithout s n k ∧
        tblOf t n = tblSetRec { x with owned := true, tenant := o.tenant } k (some d) ∧ ∀ j, j ≠ n → tblOf t j = tblOf s j)) ∧
    (opRuns s id o r 0x61 embFields → ownsTable s o → ∀ d, tblRec x k = some d →
      (d.gen ≠ embGen o → Answers (.tableSwitch id) s (fun t => opEnds s t id (compl 0x2D 0 0 (tblGen x)) ∧ TablesKept s t)) ∧
      (d.gen = embGen o → (x.draining = true ∨ csSwitches s n = true → x.active = k) →
        Answers (.tableSwitch id) s (fun t => opEnds s t id (compl 0 0 (if k then 1 else 0) 0) ∧ TableFrame s t ∧
          (tblOf t n).active = k ∧ tblRec (tblOf t n) false = tblRec x false ∧ tblRec (tblOf t n) true = tblRec x true ∧
          (tblOf t n).switchPending = (x.switchPending && switchHeld t n) ∧
          (∀ j, j ≠ n → tblOf t j = pendingNow t (tblOf s j) j) ∧
          (x.active ≠ k → if recBound s n x.active then (tblOf t n).draining = true ∧ t.dir = s.dir
            else t.dir = dirWithout s n x.active))) ∧
      (d.gen = embGen o → (x.draining = true ∨ csSwitches s n = true) → x.active ≠ k →
        Answers (.tableSwitch id) s (fun t => opRunning t id ∧ TableFrame s t ∧ tblOf t n = { x with switchPending := true }))) ∧
    (opRuns s id o r 0x64 embFields → ownsTable s o ∨ platformRetires s o = true →
      (param o 169 1 = 0 → tblRec x k ≠ none → (x.draining = true → x.active = k) →
        Answers (.tableRetire id) s (fun t => opEnds s t id (complOk 0) ∧ TableFrame s t ∧ tblOf t n = tblSetRec x k none ∧
          t.dir = dirWithout s n k)) ∧
      (param o 169 1 = 1 → recBound s n false = false → recBound s n true = false →
        Answers (.tableRetire id) s (fun t => opEnds s t id (complOk 0) ∧ TableFrame s t ∧ tblOf t n = tblFree ∧
          ∀ e ∈ t.dir, e.2.table ≠ n)) ∧
      (param o 169 1 = 1 → recBound s n x.active = true →
        Answers (.tableRetire id) s (fun t => opRunning t id ∧ t.tables = s.tables ∧ t.dir = s.dir))) ∧
    (∀ table : BitVec 8,
      let y := tblOf s table.toNat
      y.draining = true → recBound (dropBound s) table.toNat (!y.active) = false →
      (switchHeld s table.toNat = false → Answers (.recordDrainEnd table) s (fun t => TableFrame s t ∧
        tblOf t table.toNat = { y with draining := false, switchPending := false } ∧
        t.dir = dirWithout s table.toNat (!y.active))) ∧
      (opRuns s id o o 0x61 embFields → ownsTable s o → n = table.toNat → csSwitches s n = false →
        s.ops.filter (fun o => o.opcode == 0x61 && o.phase == .running && embTable o == table.toNat) = [o] →
        (∃ d, tblRec y k = some d ∧ d.gen = embGen o) →
        Answers (.recordDrainEnd table) s (fun t => opEnds s t id (compl 0 0 (if k then 1 else 0) 0) ∧
          (tblOf t table.toNat).active = k ∧ (tblOf t table.toNat).switchPending = false)))

/-- At a window end the skew counters are copied and zeroed, the candidate pairs zeroed; with MIGRATE_EN replicas read too seldom
retire, without it every entry is kept; and only a row with at least ROW_MIN counted reads begins to migrate; a finished copy puts the home row into its replica slot and makes
the entry VALID. -/
def Sys2Proof.Terms.RowsMigrate : Prop :=
  ∀ (s : State),
    (let due := alignDown s.tbc.toNat 1000000
     (regGet s Reg.embSkewAt).toNat < due ∨ s.tbc.toNat < (regGet s Reg.embSkewAt).toNat →
      Answers .skewWindowEnd s (fun t =>
        t.skewLast = s.skewNow ∧ t.skewNow = [] ∧ t.skewPairs = [] ∧ regGet t Reg.embSkewAt = BitVec.ofNat 64 due ∧ MemKept s t ∧
        t.tables = s.tables ∧ t.ops = s.ops ∧
        (∀ e ∈ t.dir, e.2.valid = true → e.2.reads = 0 ∧
          ∃ e' ∈ s.dir, e'.1 = e.1 ∧ e'.2.valid = true ∧ e'.2.row = e.2.row ∧ e'.2.slot = e.2.slot ∧
            (regBit s Reg.embCtrl 0 = true → rowMin s / 8 ≤ e'.2.reads)) ∧
        (regBit s Reg.embCtrl 0 = false → t.dir = s.dir.map (fun e => (e.1, { e.2 with reads := 0 }))) ∧
        (∀ e ∈ t.dir, e.2.valid = false → (∃ e' ∈ s.dir, e'.1 = e.1 ∧ e'.2.row = e.2.row) ∨
          (regBit s Reg.embCtrl 0 = true ∧
            ∃ i, ∃ p ∈ sget pairsDflt s.skewPairs (32 * e.2.table + i), p.1 = e.2.row ∧ rowMin s ≤ p.2)))) ∧
    (∀ (entry : Nat) (e : DirEntry) (d : TblRec) (bs : List Byte), s.dir.find? (fun x => x.1 == entry) = some (entry, e) →
      e.valid = false → tblRec (tblOf s e.table) e.recNo = some d →
      let c := copyOp s e.table d e
      let home := rowHome d e.row
      let dst := slotAddr c 1 (e.slot * d.rowBytes)
      capCheck (opSlot c home.1).cap 0 (rLD ||| rDMA) true (slotAddr c home.1 home.2) d.rowBytes 1 = none →
      bytesGive s c .embedding home.1 (slotAddr c home.1 home.2) d.rowBytes bs → bs.length = d.rowBytes →
      capCheck (opSlot c 1).cap 0 (rST ||| rDMA) true dst d.rowBytes 1 = none → localFabric s false dst = true →
      rangePasses s c .embedding 1 true (localPart dst) d.rowBytes →
      Answers (.migrationCopyDone entry) s (fun t =>
        sget (fun _ => dirNone) t.dir entry = { e with valid := true, got := [], asked := [] } ∧
        (∀ k, k ≠ entry → sget (fun _ => dirNone) t.dir k = sget (fun _ => dirNone) s.dir k) ∧
        BytesWritten s t (localPart dst) bs ∧ regGet t Reg.embMigrations = regGet s Reg.embMigrations + 1 ∧ t.ops = s.ops))

/-- Embedding tables are defined, switched and retired, and hot rows migrate. SWITCH_PENDING under a change set, the order of the
switches held, and the directory entries that a redefinition or a retirement drops are the model's choices (log entries 19 and 20). -/
def Obligations.TablesSwitchAndHotRowsMigrate : Prop := TablesSwitch ∧ RowsMigrate

namespace Sys2Proof.Terms

/-- A read of `n` bytes at byte `off` of a slot under some rights passes its checks (03 R63), gives `bs`, and meets none of the
ranges `ws` (first address and length) that the operation writes. -/
def slotReads (s : State) (r : Op) (mask : BitVec 12) (slot off n : Nat) (ws : List (Nat × Nat)) (bs : List Byte) : Prop :=
  capCheck (opSlot r slot).cap 0 mask true (slotAddr r slot off) n 1 = none ∧
  bytesGive s r .embedding slot (slotAddr r slot off) n bs ∧
  (localFabric s false (slotAddr r slot off) = true → ∀ w ∈ ws, apart (localPart (slotAddr r slot off)) n w.1 w.2)

/-- What index `i` of an embedding operation comes to (11 R303): `ib` are its bytes, `pb` the byte of the presence bitmap. -/
def indexIs (r : Op) (d : TblRec) (ib pb : Nat → List Byte) (i : Nat) : IndexIs :=
  let v := ofBytes (ib i)
  if (embWidth r = 8 ∧ 2 ^ 63 ≤ v) ∨ d.rows ≤ v then .invalid
  else if (opSlot (onRecord r d) 0).kind = 1 ∧ natBit (ofBytes (pb i)) (v % 8) = false then .absent
  else .row v

/-- Index and presence bytes are readable at the list positions for which `wanted` holds. -/
def indexReads (s : State) (r : Op) (d : TblRec) (ws : List (Nat × Nat)) (ib pb : Nat → List Byte) (wanted : Nat → Prop) : Prop :=
  ∀ i, i < embCount r → wanted i →
    slotReads s r (rLD ||| rDMA) 0 (i * embWidth r) (embWidth r) ws (ib i) ∧
    (¬ (embWidth r = 8 ∧ 2 ^ 63 ≤ ofBytes (ib i)) → ofBytes (ib i) < d.rows → (opSlot (onRecord r d) 0).kind = 1 →
      slotReads s (onRecord r d) (rLD ||| rDMA) 0 (ofBytes (ib i) / 8) 1 ws (pb i))

/-- How many of the list positions from `a` on come to `x`. -/
def countIs (r : Op) (d : TblRec) (ib pb : Nat → List Byte) (a : Nat) (x : IndexIs) : Nat :=
  (((List.range (embCount r)).drop a).filter (fun i => indexIs r d ib pb i == x)).length

/-- List positions from `a` on that name a row, in order, with their rows. -/
def namedRows (r : Op) (d : TblRec) (ib pb : Nat → List Byte) (a : Nat) : List (Nat × Nat) :=
  ((List.range (embCount r)).drop a).filterMap (fun i => match indexIs r d ib pb i with | .row v => some (i, v) | _ => none)

/-- Both counters that a drop adds to saturate (11 R304). -/
def DropsCounted (s t : State) (o : Op) (bad absent : Nat) : Prop :=
  (regGet t (Reg.tblInvalid (embTable o))).toNat = min ((regGet s (Reg.tblInvalid (embTable o))).toNat + bad) (2 ^ 64 - 1) ∧
  (regGet t (Reg.tblAbsent (embTable o))).toNat = min ((regGet s (Reg.tblAbsent (embTable o))).toNat + absent) (2 ^ 64 - 1)

/-- A LOOKUP stands at `b`: bound to the active record when it begins (11 R316), and after that as far as it has come. -/
def boundTo (s : State) (id : Nat) (o : Op) (b : Bound) : Prop :=
  (o.phase = .waiting ∧ (∀ b ∈ s.bound, b.op ≠ id) ∧ ∃ d, tblActive (tblOf s (embTable o)) = some d ∧
    b = ⟨id, embTable o, (tblOf s (embTable o)).active, d, 0, 0, 0, 0, none⟩) ∨
  (o.phase = .running ∧ (dropBound s).bound.find? (fun b => b.op == id) = some b ∧ b.table = embTable o)

/-- The list positions whose index a LOOKUP has still to read. -/
def positionsLeft (b : Bound) (i : Nat) : Prop := b.next ≤ i ∧ (b.row.isSome = true → i ≠ b.next)

/-- The update of row `y` (11 R313, R314): `gb` gives the gradient bytes of each list position, `old` the row's bytes, `acc` the
accumulator's; the new row's bytes and the new accumulator. -/
def rowUpdated (r : Op) (d : TblRec) (ps : List Nat) (gb : Nat → List Byte) (old acc : List Byte) : List Byte × Nat :=
  let n := recDim d
  let g := fun i => splitElems (embBytes (param r 212 2)) n (gb i)
  let gs := (List.range n).map (fun e => mergeElem (param r 211 1 == 0) (param r 212 2) (ps.map (fun i => (g i).getD e 0)))
  let (ws, a) := applyRule (embRule r) (numAt (opSlot r 3).data 4 4) (ofBytes acc) d.elem (splitElems (embBytes d.elem) n old) gs
  (ws.flatMap (toBytes (embBytes d.elem)), a)

/-- An update's own accesses of local [a, a + n) pass: the read half and the write under the engine and atomic kinds. -/
def rmwPasses (s : State) (r : Op) (slot a n : Nat) : Prop :=
  ∀ x, a ≤ x → x < a + n → inMemory x ∧ poisonAt s x = false ∧ accessReady s x = true ∧
    (acuCheckIn s r.bank .embedding r.tenant.toNat (kEngine ||| kAtomic) (capHas (opSlot r slot).cap rSYS) true x).2 = s ∧
    (acuCheckIn s r.bank .embedding r.tenant.toNat (kEngine ||| kAtomic) (capHas (opSlot r slot).cap rSYS) true x).1.ok = true

end Sys2Proof.Terms

/-- A LOOKUP completes: row j of OUT is the row, from its VALID replica or from its home (a read begun from home completes from home),
that the j-th index naming a present row names, POS holds that index's position when used, and the completion and the table's counters
count the delivered, the invalid and the absent. One that goes on does the same from the position that it has come to. That a lookup
that waited goes on from where it stood, and that its counters are added at SUCCESS, are the model's choices (log entries 19, 20 and
37). -/
def Obligations.LookupDeliversRows : Prop :=
  ∀ (s : State) (id : Nat) (o r : Op) (b : Bound) (ib pb rb : Nat → List Byte),
    opRuns s id o r 0x62 embFields → ownsTable s o → boundTo s id o b → lookupCoves s o.tenant ≠ [] →
    Memory.sorted s.dir = true →
    let d := b.record
    let no := b.recNo
    let ks := namedRows r d ib pb b.next
    let out := slotLa r 1 + b.delivered * d.rowBytes
    let pos := slotLa r 2 + 4 * b.delivered
    let posUsed := decide (slotKind o.desc 2 = 1)
    let ws := (out, ks.length * d.rowBytes) :: if posUsed then [(pos, 4 * ks.length)] else []
    indexReads s r d ws ib pb (positionsLeft b) →
    (∀ bs, b.row = some bs → b.next < embCount r ∧ rb b.next = bs ∧ ∃ v, indexIs r d ib pb b.next = .row v) →
    (∀ e ∈ ks, (rb e.1).length = d.rowBytes ∧ (positionsLeft b e.1 →
      match (if homeBegun r d e.2 then none else dirFind s (embTable o) no d e.2) with
      | some (_, x) => slotReads s (onRecord r d) (rLD ||| rDMA) 1 (x.slot * d.rowBytes) d.rowBytes ws (rb e.1)
      | none => slotReads s (onRecord r d) (rLD ||| rDMA) (rowHome d e.2).1 (rowHome d e.2).2 d.rowBytes ws (rb e.1))) →
    slotFits s r 1 true ((b.delivered + ks.length) * d.rowBytes) →
    rangePasses s r .embedding 1 true out (ks.length * d.rowBytes) →
    (posUsed = true → slotFits s r 2 true (4 * (b.delivered + ks.length)) ∧ rangePasses s r .embedding 2 true pos (4 * ks.length) ∧
      apart out (ks.length * d.rowBytes) pos (4 * ks.length)) →
    let bad := b.bad + countIs r d ib pb b.next .invalid
    let absent := b.absent + countIs r d ib pb b.next .absent
    Answers (.lookup id) s (fun t =>
      opEnds s t id (dropsDone (b.delivered + ks.length) bad absent no) ∧ DropsCounted s t o bad absent ∧ t.hostMem = s.hostMem ∧
      TablesKept s t ∧ (∀ b ∈ t.bound, b.op ≠ id) ∧
      (∀ j, j < ks.length → memBytes t (out + j * d.rowBytes) d.rowBytes = rb (ks.getD j (0, 0)).1) ∧
      (posUsed = true → ∀ j, j < ks.length → numIn t (pos + 4 * j) 4 = (ks.getD j (0, 0)).1) ∧
      ∀ x, (∀ w ∈ ws, x < w.1 ∨ w.1 + w.2 ≤ x) → memByte t x = memByte s x)

/-- An UPDATE of local rows that no other is modifying completes: each named row, and under rule 2 its accumulator, becomes what the merge of the gradient
rows of all positions that name it and the rule give; the completion counts the distinct rows; a read-only record and a GEN that
no record holds end it so. -/
def Obligations.UpdateAppliesMergedGradients : Prop :=
  ∀ (s : State) (id : Nat) (o r : Op), opRuns s id o r 0x63 embFields → ownsTable s o → updateOf s id = none →
    let x := tblOf s (embTable o)
    (recByGen x (embGen o) = none → Answers (.update id) s (fun t => opEnds s t id (compl 0x2D 0 0 (tblGen x)) ∧ MemKept s t)) ∧
    (∀ no d, recByGen x (embGen o) = some (no, d) →
      (d.writable = false → Answers (.update id) s (fun t => opEnds s t id (compl 0x2F 0 0 0) ∧ MemKept s t)) ∧
      (d.writable = true → ∀ ib pb gb : Nat → List Byte,
        let ks := namedRows r d ib pb 0
        let rows := (ks.map (fun e => e.2)).eraseDups
        let home := fun y => localPart (slotAddr (onRecord r d) (rowHome d y).1 (rowHome d y).2)
        let acc := fun y => localPart (slotAddr r 2 (4 * y))
        let adaptive := decide (embRule r = 2)
        let ws := rows.map (fun y => (home y, d.rowBytes)) ++ if adaptive then rows.map (fun y => (acc y, 4)) else []
        let g := recDim d * embBytes (param r 212 2)
        indexReads s r d ws ib pb (fun _ => True) → (∀ e ∈ ks, slotReads s r (rLD ||| rDMA) 1 (e.1 * g) g ws (gb e.1)) →
        ws.Pairwise (fun a b => apart a.1 a.2 b.1 b.2) → recDim d * embBytes d.elem = d.rowBytes →
        (∀ y ∈ rows,
          localFabric s false (slotAddr (onRecord r d) (rowHome d y).1 (rowHome d y).2) = true ∧
          capCheck (opSlot (onRecord r d) (rowHome d y).1).cap 0 (rLD ||| rST ||| rATOM ||| rDMA) true
            (slotAddr (onRecord r d) (rowHome d y).1 (rowHome d y).2) d.rowBytes 1 = none ∧
          rmwPasses s (onRecord r d) (rowHome d y).1 (home y) d.rowBytes ∧
          heldByOther s (.op id) (holdAddr s (slotAddr (onRecord r d) (rowHome d y).1 (rowHome d y).2)) d.rowBytes = false ∧
          (adaptive = true → localFabric s false (slotAddr r 2 (4 * y)) = true ∧
            capCheck (opSlot r 2).cap 0 (rLD ||| rST ||| rATOM ||| rDMA) true (slotAddr r 2 (4 * y)) 4 1 = none ∧
            rmwPasses s r 2 (acc y) 4 ∧ heldByOther s (.op id) (holdAddr s (slotAddr r 2 (4 * y))) 4 = false)) →
        let bad := countIs r d ib pb 0 .invalid
        let absent := countIs r d ib pb 0 .absent
        Answers (.update id) s (fun t =>
          opEnds s t id (dropsDone rows.length bad absent no) ∧ DropsCounted s t o bad absent ∧ TablesKept s t ∧
          (∀ y ∈ rows,
            let u := rowUpdated r d ((ks.filter (fun e => e.2 == y)).map (fun e => e.1)) gb (memBytes s (home y) d.rowBytes)
              (if adaptive then memBytes s (acc y) 4 else [])
            memBytes t (home y) d.rowBytes = u.1 ∧ (adaptive = true → memBytes t (acc y) 4 = toBytes 4 u.2)) ∧
          ∀ b, (∀ w ∈ ws, b < w.1 ∨ w.1 + w.2 ≤ b) → memByte t b = memByte s b)))

namespace Sys2Proof.Terms

/-- The operations that `hit` names have ended now with ABORTED, reason 2, and no other has changed, but for its place in the order
of those that are ready to begin (08 R238). -/
def Aborted (s t : State) (hit : Op → Prop) : Prop :=
  (∀ j o, findOp s j = some o → hit o → ∃ e, (findOp t j).map unready = some (unready
    { o with
      phase := .done, compl := compl 8 2 0 0, ended := s.tbc, endSeq := e, asked := []
      bank := if o.phase = .waiting then s.acu.active else o.bank })) ∧
  (∀ j, (∀ o ∈ s.ops, o.id = j → ¬ hit o) → (findOp t j).map unready = (findOp s j).map unready) ∧ WaitNoted s t

/-- The operation runs on this queue. -/
def runsOn (q : Nat) (o : Op) : Prop := o.queue.toNat = q ∧ o.phase = .running

/-- The operation runs on the gather engine of a cove, or is a walk for which that engine is fetching fragments (10 R298). -/
def geHit (s : State) (c : Nat) (o : Op) : Prop :=
  runsOn (0x20 + c) o ∨ (o.phase ≠ .done ∧ ∃ e ∈ s.walks, walkFetches e.2 c = true ∧ e.2.op = o.id)

/-- Only this queue has become marked as in reset. -/
def Resetting (s t : State) (q : Nat) (v : Bool) : Prop :=
  ∀ x, sget markDflt t.resetting x = if x = q then v else sget markDflt s.resetting x

/-- A register's bits `m` are set and every other register stands. -/
def RegRaised (s t : State) (k : Nat) (m : W64) : Prop := RegsKept (fun x => x == k) s t ∧ regGet t k = regGet s k ||| m

end Sys2Proof.Terms

/-- OFFLINE and RESET of every engine by a platform agent end the engine's running operations with ABORTED and leave every other;
OFFLINE raises the engine's bit; RESET marks it in reset and clears what the spec says it clears: weights and buffer of a DTA,
the directory, a strand group's cores and memories, the references of every stream context. A finished reset unmarks it. -/
def Obligations.EnginesGoOfflineAndReset : Prop :=
  ∀ (s : State) (a : Agent), platformAgent s a = true →
    (∀ c : BitVec 5,
      let q := c.toNat
      Answers (.dtaOffline a c) s (fun t => t = { s with regs := t.regs, ops := t.ops, nextEnd := t.nextEnd, changeSet := t.changeSet, heldOps := t.heldOps, power := t.power } ∧
        RegRaised s t (Reg.dtaCtrl q) 1 ∧ Aborted s t (runsOn q)) ∧
      Answers (.dtaReset a c) s (fun t =>
        t = { s with ops := t.ops, nextEnd := t.nextEnd, changeSet := t.changeSet, heldOps := t.heldOps, power := t.power, dtas := t.dtas, resetting := t.resetting } ∧
        Aborted s t (runsOn q) ∧ Resetting s t q true ∧ ∀ x, dtaOf t x = if x = q then dtaReset else dtaOf s x) ∧
      Answers (.geOffline a c) s (fun t =>
        t = { s with regs := t.regs, ops := t.ops, nextEnd := t.nextEnd, changeSet := t.changeSet, heldOps := t.heldOps, power := t.power, walks := t.walks } ∧
        RegRaised s t (Reg.geCtrl q) 1 ∧ Aborted s t (geHit s q)) ∧
      Answers (.geReset a c) s (fun t =>
        t = { s with ops := t.ops, nextEnd := t.nextEnd, changeSet := t.changeSet, heldOps := t.heldOps, power := t.power, walks := t.walks, resetting := t.resetting } ∧
        Aborted s t (geHit s q) ∧ Resetting s t (0x20 + q) true)) ∧
    Answers (.embOffline a) s (fun t =>
      t = { s with regs := t.regs, ops := t.ops, nextEnd := t.nextEnd, changeSet := t.changeSet, heldOps := t.heldOps, power := t.power, bound := t.bound
                   updates := t.updates, tables := t.tables } ∧ TablesKept s t ∧
      RegRaised s t Reg.embCtrl 2 ∧ Aborted s t (runsOn 0x45)) ∧
    Answers (.embReset a) s (fun t =>
      t = { s with ops := t.ops, nextEnd := t.nextEnd, changeSet := t.changeSet, heldOps := t.heldOps, power := t.power, bound := t.bound, updates := t.updates
                   tables := t.tables, dir := [], resetting := t.resetting } ∧ TablesKept s t ∧
      Aborted s t (runsOn 0x45) ∧ Resetting s t 0x45 true) ∧
    (∀ g : BitVec 2,
      let q := 0x40 + g.toNat
      Answers (.strandGroupOffline a g) s (fun t =>
        t = { s with regs := t.regs, ops := t.ops, nextEnd := t.nextEnd, changeSet := t.changeSet, heldOps := t.heldOps, power := t.power, strands := t.strands } ∧
        RegRaised s t (Reg.strGroupCtrl g.toNat) 1 ∧ Aborted s t (runsOn q) ∧
        ∀ e ∈ t.strands, ∀ id, e.2.op = some id → ∃ o ∈ t.ops, o.id = id ∧ o.phase = .running) ∧
      Answers (.strandGroupReset a g) s (fun t =>
        t = { s with ops := t.ops, nextEnd := t.nextEnd, changeSet := t.changeSet, heldOps := t.heldOps, power := t.power, strands := t.strands, mem := t.mem,
                     poison := t.poison, cores := t.cores, resetting := t.resetting } ∧ CachesOnly s t ∧
        Aborted s t (runsOn q) ∧ Resetting s t q true ∧
        (∀ i, i < 16 → strandOf t (16 * g.toNat + i) = strandReset) ∧
        (∀ i x, i < 16 → x < 0x28000 → memByte t (strandBase (16 * g.toNat + i) + x) = 0) ∧
        ∀ x, (∀ i, i < 16 → x < strandBase (16 * g.toNat + i) ∨ strandBase (16 * g.toNat + i) + 0x28000 ≤ x) →
          memByte t x = memByte s x)) ∧
    Answers (.vcuOffline a) s (fun t => Aborted s t (runsOn 0x44) ∧ RegRaised s t Reg.vcuCtrl 1 ∧
      (∀ p, p < 4 → ∀ x, (pipeOf t p).pic = some x → ∃ o ∈ t.ops, o.id = x.op ∧ o.phase = .running)) ∧
    Answers (.vcuReset a) s (fun t => Aborted s t (runsOn 0x44) ∧ Resetting s t 0x44 true ∧ t.regs = s.regs ∧
      (∀ c, c < 32 → vctxOf t c =
        { discardRefs (vctxOf s c) with keyPending := (vctxOf t c).keyPending, freed := (vctxOf t c).freed }) ∧
      (∀ p, p < 4 → ∀ x, (pipeOf s p).pic = some x → x.tookKey = true → (∀ o ∈ t.ops, o.id = x.op → o.phase ≠ .running) →
        (vctxOf t x.ctx).keyPending = true) ∧
      (∀ p, p < 4 → ∀ x, (pipeOf t p).pic = some x → ∃ o ∈ t.ops, o.id = x.op ∧ o.phase = .running)) ∧
    (∀ q : BitVec 8, Answers (.engineResetDone q) s (fun t => t = { s with resetting := t.resetting } ∧ Resetting s t q.toNat false))

namespace Sys2Proof.Terms

/-- Strand core `n` fetches its next instruction and nothing stops it there (08 R219, R241, R245). -/
def strandGoes (s : State) (n : Nat) : Prop := strandExecuting s n = true ∧ strandFetch s n = none

/-- Register `r` of `c'`, Q registers by the places that the rotation of `c` gives them (R230). -/
def regIn (c c' : StrandCore) (r : Nat) : BitVec 16 := if r < 32 then sget sreg0 c'.q (qPhys c r) else sreg c' r

/-- What a register holds once `v` is written (R218): IPEND clears the bits written as 1, reserved bits read 0. -/
def regWritten (c : StrandCore) (r : Nat) (v : BitVec 16) : BitVec 16 :=
  if r < 32 then v else if r = SReg.ipend then sreg c r &&& ~~~v &&& sregMask r else v &&& sregMask r

/-- Local address of the word that pointer `p` names, by its value at distance 1 of a write (R224, R226). -/
def pointedAt (n : Nat) (c : StrandCore) (p : Nat) : Nat := strandWord n p ((agVal c.agOld c (SReg.p0 + p)).toNat % 32768)
/-- The word there. -/
def wordAt (s : State) (n : Nat) (c : StrandCore) (p : Nat) : BitVec 16 := BitVec.ofNat 16 (numIn s (pointedAt n c p) 2)
/-- Pointer `p` after its post-modify (R224 to R226): kept in mode 0 and at distance 1 of a write of it. -/
def pointerAfter (c : StrandCore) (p mode : Nat) : BitVec 16 :=
  let r := SReg.p0 + p
  if mode = 0 ∨ (sget (fun _ => (none : Option (BitVec 16))) c.agOld r).isSome then sreg c r
  else (agVal c.agOld c r + (if mode = 1 then agVal c.agOld c (SReg.o0 + p) else if mode = 2 then 1 else 0xFFFF)) &&& 0x7FFF

/-- The lanes of a parallel-move field, Y before X: destination, pointer, mode (R225, R236). -/
def lanesOf (m : BitVec 13) : List (Nat × Nat × Nat) :=
  (if fld m 8 3 = 0 then [] else [(yDest (fld m 8 3).toNat, 4 + (fld m 2 2).toNat, (fld m 0 2).toNat)]) ++
  (if fld m 11 2 = 0 then [] else [(xDest (fld m 11 2).toNat, (fld m 6 2).toNat, (fld m 4 2).toNat)])

/-- The lanes' words hold no poison. -/
def lanesClean (s : State) (n : Nat) (c : StrandCore) (ls : List (Nat × Nat × Nat)) : Prop :=
  ∀ l ∈ ls, poisonAt s (pointedAt n c l.2.1) = false

/-- The core after an instruction and before its sequencing: `own` receives `v` over any lane; each lane's destination receives
its word; its pointer is post-modified unless it is `own`; ST reads `st`; every other register stands, as does the rest of the
core but for its accumulators. -/
def StrandRegs (s : State) (n : Nat) (c c' : StrandCore) (own : Nat) (v : BitVec 16) (ls : List (Nat × Nat × Nat)) (st : BitVec 16) :
    Prop :=
  c' = { c with q := c'.q, regs := c'.regs, a0 := c'.a0, a1 := c'.a1, agOld := c'.agOld } ∧
  (∀ r, r < 63 → r ≠ SReg.dstat → regIn c c' r =
    if r = own then regWritten c r v
    else match ls.find? (fun l => l.1 == r) with
      | some l => wordAt s n c l.2.1
      | none => match ls.find? (fun l => SReg.p0 + l.2.1 == r) with
        | some l => pointerAfter c l.2.1 l.2.2
        | none => if r = SReg.st then st else regIn c c r) ∧
  ∀ r, sget (fun _ => (none : Option (BitVec 16))) c'.agOld r =
    if r = own ∧ SReg.p0 ≤ r ∧ r < SReg.lc then some (sreg c r) else none

/-- ST with Z and N of a result, and OVF or LIM (bit `b`) raised when `up` (R221, R222). -/
def stAfter (c : StrandCore) (z n : Bool) (b : Nat) (up : Bool) : BitVec 16 :=
  let x := sreg c SReg.st
  setBit (setBit (if up then setBit x b true else x) 10 z) 11 n &&& 0x3FFF

/-- An accumulator result `x` (R221): out of 40 bits it saturates under ST.5 and wraps otherwise. -/
def accResult (c : StrandCore) (x : Int) : BitVec 40 :=
  if (x < -2 ^ 39 ∨ 2 ^ 39 ≤ x) ∧ stBit c 5 = true then BitVec.ofInt 40 (max (-2 ^ 39) (min x (2 ^ 39 - 1))) else BitVec.ofInt 40 x

/-- A register as a number, signed or unsigned. -/
def regNum (n : Nat) (c : StrandCore) (r : Nat) (u : Bool) : Int := if u then (srRead n c r).toNat else (srRead n c r).toInt

/-- The exact product of format M (R221). -/
def productOf (n : Nat) (c : StrandCore) (fa fb sg : BitVec 2) (qi : BitVec 5) : Int :=
  regNum n c (mulA fa qi) (sg != 0) * regNum n c (mulB fb qi) (sg == 2) * if stBit c 6 then 2 else 1

/-- A word of format M is legal but for its moves (R236). -/
def mulLegal (fa fb sg : BitVec 2) (qi : BitVec 5) : Bool := sg != 3 && (qi == 0 || fa == 3 || fb == 3)

/-- Instructions with an exact accumulator result (R221, R223): core, accumulator, whether the word is legal (R236: no reserved sign
code or register, and every field that the operation leaves unused zero, log entry 39), moves, a product counted, the result. -/
def accOp (s : State) : Instr → Option (BitVec 6 × Bool × Bool × BitVec 13 × Bool × Int)
  | .mpy k d fa fb sg qi m => let c := strandOf s k.toNat; some (k, d, mulLegal fa fb sg qi, m, true, productOf k.toNat c fa fb sg qi)
  | .mac k d fa fb sg qi m => let c := strandOf s k.toNat; some (k, d, mulLegal fa fb sg qi, m, true, accOf c d + productOf k.toNat c fa fb sg qi)
  | .msu k d fa fb sg qi m => let c := strandOf s k.toNat; some (k, d, mulLegal fa fb sg qi, m, true, accOf c d - productOf k.toNat c fa fb sg qi)
  | .clr k d r u i m => some (k, d, r == 0 && !u && i == 0, m, false, 0)
  | .adda k d r u i m => let c := strandOf s k.toNat; some (k, d, r == 0 && !u && i == 0, m, false, accOf c d + accOf c (!d))
  | .suba k d r u i m => let c := strandOf s k.toNat; some (k, d, r == 0 && !u && i == 0, m, false, accOf c d - accOf c (!d))
  | .neg k d r u i m => let c := strandOf s k.toNat; some (k, d, r == 0 && !u && i == 0, m, false, - accOf c d)
  | .abs k d r u i m => let c := strandOf s k.toNat; some (k, d, r == 0 && !u && i == 0, m, false, ((accOf c d).natAbs : Int))
  | .sha k d r u i m => let c := strandOf s k.toNat
    some (k, d, r == 0 && !u, m, false, if 0 ≤ i.toInt then accOf c d * 2 ^ i.toInt.toNat else Int.fdiv (accOf c d) (2 ^ (-i.toInt).toNat))
  | .lda k d r u i m => let c := strandOf s k.toNat; some (k, d, r != 0x27 && i == 0, m, false, regNum k.toNat c r.toNat u * 2 ^ 16)
  | .addr k d r u i m => let c := strandOf s k.toNat; some (k, d, r != 0x27 && i == 0, m, false, accOf c d + regNum k.toNat c r.toNat u * 2 ^ 16)
  | .subr k d r u i m => let c := strandOf s k.toNat; some (k, d, r != 0x27 && i == 0, m, false, accOf c d - regNum k.toNat c r.toNat u * 2 ^ 16)
  | _ => none

/-- SETP, SETM and SETG: core, accumulator, register, whether the word is legal, moves, width and place of the bits set. -/
def accSet : Instr → Option (BitVec 6 × Bool × BitVec 6 × Bool × BitVec 13 × Nat × Nat)
  | .setp k d r u i m => some (k, d, r, r != 0x27 && !u && i == 0, m, 16, 0)
  | .setm k d r u i m => some (k, d, r, r != 0x27 && !u && i == 0, m, 16, 16)
  | .setg k d r u i m => some (k, d, r, r != 0x27 && !u && i == 0, m, 8, 32)
  | _ => none

/-- MOVR's exact rounded value (R222). -/
def movrExact (c : StrandCore) (a : Int) : Int :=
  let sc := (fld (sreg c SReg.st) 0 4).toInt
  if 0 ≤ sc then Int.fdiv (a * 2 ^ sc.toNat + 2 ^ 15) (2 ^ 16) else Int.fdiv (a + 2 ^ (15 + (-sc).toNat)) (2 ^ (16 + (-sc).toNat))

/-- Instructions that write a register (R222, R223, R236): core, register, source register, whether the
fields left unused are zero, moves, value, ST after. -/
def regOp (s : State) : Instr → Option (BitVec 6 × BitVec 6 × BitVec 6 × Bool × BitVec 13 × BitVec 16 × BitVec 16)
  | .movr k d r u i m =>
    let c := strandOf s k.toNat
    let x := movrExact c (accOf c d)
    let lo : Int := if u then 0 else -32768
    let hi : Int := if u then 65535 else 32767
    let clip := stBit c 4 && (decide (x < lo) || decide (hi < x))
    let v : BitVec 16 := BitVec.ofInt 16 (if clip then max lo (min hi x) else x)
    some (k, r, 0, i == 0, m, v, stAfter c (v == 0) (!u && v.getLsbD 15) 13 clip)
  | .movp k d r u i m => let c := strandOf s k.toNat; some (k, r, 0, !u && i == 0, m, BitVec.ofInt 16 (accOf c d), sreg c SReg.st)
  | .movm k d r u i m => let c := strandOf s k.toNat; some (k, r, 0, !u && i == 0, m, BitVec.ofInt 16 (Int.fdiv (accOf c d) (2 ^ 16)), sreg c SReg.st)
  | .movg k d r u i m => let c := strandOf s k.toNat; some (k, r, 0, !u && i == 0, m, BitVec.ofInt 16 (Int.fdiv (accOf c d) (2 ^ 32)), sreg c SReg.st)
  | .mov k a b m => some (twoRegs s k a b m (fun _ y => y))
  | .strandAdd k a b m => some (twoRegs s k a b m (fun x y => x + y))
  | .strandSub k a b m => some (twoRegs s k a b m (fun x y => x - y))
  | .strandAnd k a b m => some (twoRegs s k a b m (fun x y => x &&& y))
  | .strandOr k a b m => some (twoRegs s k a b m (fun x y => x ||| y))
  | .strandXor k a b m => some (twoRegs s k a b m (fun x y => x ^^^ y))
  | _ => none
where
  /-- A result of two registers, with Z and N. -/
  twoRegs (s : State) (k a b : BitVec 6) (m : BitVec 13) (f : BitVec 16 → BitVec 16 → BitVec 16) :
      BitVec 6 × BitVec 6 × BitVec 6 × Bool × BitVec 13 × BitVec 16 × BitVec 16 :=
    let c := strandOf s k.toNat
    let v := f (srRead k.toNat c a.toNat) (srRead k.toNat c b.toNat)
    (k, a, b, true, m, v, stAfter c (v == 0) (v.getLsbD 15) 0 false)

/-- Core `n` alone has changed, and of the rest only what an instruction of it may touch. -/
def OnlyStrand (s t : State) (n : Nat) : Prop :=
  t = { s with strands := t.strands, regs := t.regs, mem := t.mem, tags := t.tags, poison := t.poison, cores := t.cores } ∧
  (∀ m, m ≠ n → strandOf t m = strandOf s m) ∧ RegsKept (fun x => x == Reg.strMacs (n / 16)) s t ∧ CachesOnly s t

/-- Register `r` may be written, and `q` read (R236). -/
def regsLegal (r q : BitVec 6) : Prop := r ≠ 0x27 ∧ r ≠ 0x26 ∧ r ≠ 0x3F ∧ q ≠ 0x27

end Sys2Proof.Terms

/-- Instructions with an accumulator result complete: the accumulator takes the exact result, saturated or wrapped to 40 bits, OVF
rises when it does not fit, Z and N follow it, the parallel moves are made, the other accumulator stands; SETP, SETM and SETG
set their bits and keep the flags; MOVE makes its moves alone; a product counts in STR_MACS. -/
def Obligations.StrandAccumulatorsTakeExactResults : Prop :=
  (∀ (s : State) (i : Instr) (k : BitVec 6) (d legal : Bool) (m : BitVec 13) (counted : Bool) (x : Int),
    accOp s i = some (k, d, legal, m, counted, x) → legal = true → movesOk m = true →
    let n := k.toNat
    let c := strandOf s n
    strandGoes s n → lanesClean s n c (lanesOf m) →
    Answers i s (fun t => OnlyStrand s t n ∧ MemKept s t ∧
      regGet t (Reg.strMacs (n / 16)) = regGet s (Reg.strMacs (n / 16)) + (if counted then 1 else 0) ∧
      ∃ c', strandOf t n = strandStep c' ∧
        (if d then c'.a1 else c'.a0) = accResult c x ∧ (if d then c'.a0 else c'.a1) = (if d then c.a0 else c.a1) ∧
        StrandRegs s n c c' 64 0 (lanesOf m)
          (stAfter c (accResult c x == 0) ((accResult c x).getLsbD 39) 12 (decide (x < -2 ^ 39 ∨ 2 ^ 39 ≤ x))))) ∧
  (∀ (s : State) (i : Instr) (k : BitVec 6) (d : Bool) (r : BitVec 6) (legal : Bool) (m : BitVec 13) (w lo : Nat),
    accSet i = some (k, d, r, legal, m, w, lo) → legal = true → movesOk m = true →
    let n := k.toNat
    let c := strandOf s n
    strandGoes s n → lanesClean s n c (lanesOf m) →
    Answers i s (fun t => OnlyStrand s t n ∧ MemKept s t ∧
      ∃ c', strandOf t n = strandStep c' ∧ (if d then c'.a0 else c'.a1) = (if d then c.a0 else c.a1) ∧
        (∀ j, j < 40 → (if d then c'.a1 else c'.a0).getLsbD j =
          if lo ≤ j ∧ j < lo + w then (srRead n c r.toNat).getLsbD (j - lo) else (if d then c.a1 else c.a0).getLsbD j) ∧
        StrandRegs s n c c' 64 0 (lanesOf m) (sreg c SReg.st))) ∧
  (∀ (s : State) (k : BitVec 6) (m : BitVec 13), movesOk m = true →
    let n := k.toNat
    let c := strandOf s n
    strandGoes s n → lanesClean s n c (lanesOf m) →
    Answers (.move k false 0 0 0 0 m) s (fun t => OnlyStrand s t n ∧ MemKept s t ∧ t.regs = s.regs ∧
      ∃ c', strandOf t n = strandStep c' ∧ c'.a0 = c.a0 ∧ c'.a1 = c.a1 ∧ StrandRegs s n c c' 64 0 (lanesOf m) (sreg c SReg.st)))

/-- Instructions that write a register complete: MOVR rounds and limits, MOVP, MOVM and MOVG take parts of the accumulator, MOV, ADD,
SUB, AND, OR and XOR wrap and set Z and N, CMP and CMPU set Z and N alone, LOAD and LDI and ADDI keep the flags, STORE writes its word
and no register but the post-modified pointer, NOP changes nothing; the accumulators stand. That MOVP, MOVM and MOVG keep the flags,
that a result in the pointer that is post-modified stands (log entry 20), and that unused fields are reserved (log entry 39), are the
model's choices. -/
def Obligations.StrandRegistersAndMemory : Prop :=
  (∀ (s : State) (i : Instr) (k r q : BitVec 6) (legal : Bool) (m : BitVec 13) (v st : BitVec 16),
    regOp s i = some (k, r, q, legal, m, v, st) → regsLegal r q → legal = true → movesOk m = true →
    let n := k.toNat
    let c := strandOf s n
    strandGoes s n → lanesClean s n c (lanesOf m) →
    Answers i s (fun t => OnlyStrand s t n ∧ MemKept s t ∧ t.regs = s.regs ∧
      ∃ c', strandOf t n = strandStep c' ∧ c'.a0 = c.a0 ∧ c'.a1 = c.a1 ∧ StrandRegs s n c c' r.toNat v (lanesOf m) st)) ∧
  (∀ (s : State) (k r q : BitVec 6) (m : BitVec 13), r ≠ 0x27 → q ≠ 0x27 → movesOk m = true →
    let n := k.toNat
    let c := strandOf s n
    strandGoes s n → lanesClean s n c (lanesOf m) →
    let moved : Bool → Bool → State → Prop := fun z neg t => OnlyStrand s t n ∧ MemKept s t ∧ t.regs = s.regs ∧
      ∃ c', strandOf t n = strandStep c' ∧ c'.a0 = c.a0 ∧ c'.a1 = c.a1 ∧ StrandRegs s n c c' 64 0 (lanesOf m) (stAfter c z neg 0 false)
    Answers (.cmp k r q m) s
      (moved (srRead n c r.toNat == srRead n c q.toNat) (decide (regNum n c r.toNat false < regNum n c q.toNat false))) ∧
    Answers (.cmpu k r q m) s
      (moved (srRead n c r.toNat == srRead n c q.toNat) (decide (regNum n c r.toNat true < regNum n c q.toNat true)))) ∧
  (∀ (s : State) (k r : BitVec 6) (p : BitVec 3) (mode : BitVec 2) (imm : BitVec 16),
    let n := k.toNat
    let c := strandOf s n
    let a := pointedAt n c p.toNat
    let only : (StrandCore → Prop) → State → Prop := fun P t => OnlyStrand s t n ∧ t.regs = s.regs ∧
      ∃ c', strandOf t n = strandStep c' ∧ c'.a0 = c.a0 ∧ c'.a1 = c.a1 ∧ P c'
    strandGoes s n →
    (regsLegal r 0 → poisonAt s a = false →
      Answers (.strandLoad k p mode r) s (fun t => MemKept s t ∧
        only (fun c' => StrandRegs s n c c' r.toNat (wordAt s n c p.toNat) [(64, p.toNat, mode.toNat)] (sreg c SReg.st)) t)) ∧
    (r ≠ 0x27 →
      Answers (.strandStore k p mode r) s (fun t => BytesWritten s t a (toBytes 2 (srRead n c r.toNat).toNat) ∧
        only (fun c' => StrandRegs s n c c' 64 0 [(64, p.toNat, mode.toNat)] (sreg c SReg.st)) t)) ∧
    (regsLegal r 0 →
      Answers (.ldi k r imm) s (fun t => MemKept s t ∧
        only (fun c' => StrandRegs s n c c' r.toNat imm [] (sreg c SReg.st)) t) ∧
      Answers (.strandAddi k r imm) s (fun t => MemKept s t ∧
        only (fun c' => StrandRegs s n c c' r.toNat (srRead n c r.toNat + imm) [] (sreg c SReg.st)) t)) ∧
    (c.rep = 0 → ¬ (c.loopActive = true ∧ c.pc = (sreg c SReg.le).toNat) →
      Answers (.strandNop k) s (fun t => MemKept s t ∧ strandOf t n = strandStep { c with agOld := [] } ∧ OnlyStrand s t n)))

namespace Sys2Proof.Terms

/-- The condition of BR on the flags (08 R226, R236). -/
def branchHolds (c : StrandCore) (cond : Nat) : Prop :=
  let z := stBit c 10
  let n := stBit c 11
  match cond with
  | 0 => True
  | 1 => z = true
  | 2 => z = false
  | 3 => n = true
  | 4 => n = false
  | 5 => z = true ∨ n = true
  | 6 => z = false ∧ n = false
  | _ => stBit c 13 = true

/-- Only strand core `n` has changed. -/
def OneStrand (s t : State) (n : Nat) : Prop := t = { s with strands := t.strands } ∧ ∀ m, m ≠ n → strandOf t m = strandOf s m

/-- Row `r` of a transfer may be moved (08 R234): its capability, its place and the rules. -/
def rowMay (s : State) (o : Op) (cap : Cap) (outward : Bool) (p : StrandParams) (r : Nat) : Prop :=
  let a : Int := (capCursor cap).toNat + p.offset + r * p.stride
  let la := localPart a.toNat
  let n := 2 * p.rowWords
  0 ≤ a ∧ capCheck cap 0 (if outward then rDMA ||| rST else rDMA ||| rLD) true a.toNat n 1 = none ∧ localFabric s false a.toNat = true ∧
  ∀ x, la ≤ x → x < la + n → (regionOf x = .hbm ∨ hasTags (regionOf x) = true) ∧
    (acuCheckIn s o.bank .strandDma o.tenant.toNat (kEngine ||| (if outward then kWrite else kRead)) (capHas cap rSYS) outward x).2 = s ∧
    (acuCheckIn s o.bank .strandDma o.tenant.toNat (kEngine ||| (if outward then kWrite else kRead)) (capHas cap rSYS) outward x).1.ok = true

/-- A DMA instruction of core `n`, or one that had stalled, may issue its transfer (R233, R234). -/
def dmaMay (s : State) (n : Nat) (outward : Bool) (ch pb pl : Nat) : Prop :=
  let c := strandOf s n
  let w := (agVal c.agOld c (SReg.p0 + pb)).toNat
  let p := strandParams s n w
  (∀ i, i < 8 → poisonAt s (strandWord n 0 (w + i)) = false) ∧ p.ok = true ∧
  (agVal c.agOld c (SReg.p0 + pl)).toNat % 32768 + (p.rows * p.rowWords - 1) * p.step ≤ 32767 ∧
  ∃ id o, c.op = some id ∧ findOp s id = some o ∧ ∀ r, r < p.rows → rowMay s o (c.dc.getD ch capNull) outward p r

/-- The transfer it queues. -/
def dmaXfer (s : State) (n : Nat) (outward : Bool) (ch pb pl : Nat) : StrandXfer :=
  let c := strandOf s n
  let p := strandParams s n (agVal c.agOld c (SReg.p0 + pb)).toNat
  { outward := outward
    rows := (List.range p.rows).map (fun (r : Nat) =>
      (localPart ((capCursor (c.dc.getD ch capNull)).toNat + p.offset + r * p.stride : Int).toNat, (r : Int) * p.stride))
    rowWords := p.rowWords, base := strandWord n pl 0, loc := (agVal c.agOld c (SReg.p0 + pl)).toNat % 32768, step := p.step }

/-- No two operations have the same identifier. -/
def OpsDistinct (s : State) : Prop := s.ops.Pairwise (fun a b => a.id ≠ b.id)

/-- Local address of word `i` of row `r` of a transfer, on the strand core's side. -/
def xferWord (x : StrandXfer) (r i : Nat) : Nat := x.base + 2 * (x.loc + (r * x.rowWords + i) * x.step)

end Sys2Proof.Terms

/-- Control instructions complete: BR and RETI take effect after two delay slots, at the target or at IRA with ST from IST; REPEAT
sets the count, or skips; LOOP pushes the active loop and sets LC, LS and LE, or jumps past LE when its count is 0. -/
def Obligations.StrandControlFlow : Prop :=
  ∀ (s : State) (k : BitVec 6),
    let n := k.toNat
    let c := strandOf s n
    strandGoes s n →
    (∀ (cond : BitVec 4) (target : BitVec 13), cond.toNat < 8 → controlFault c true = none →
      Answers (.br k cond target) s (fun t => OneStrand s t n ∧
        (strandOf t n).pc = c.pc + 1 ∧ (strandOf t n).delay = 2 ∧ (∀ r, r < 64 → srRead n (strandOf t n) r = srRead n c r) ∧
        (branchHolds c cond.toNat → (strandStep (strandStep (strandOf t n))).pc = target.toNat) ∧
        (¬ branchHolds c cond.toNat → c.loopActive = false → (strandStep (strandStep (strandOf t n))).pc = c.pc + 3))) ∧
    (controlFault c true = none →
      Answers (.reti k) s (fun t => OneStrand s t n ∧ (strandOf t n).pc = c.pc + 1 ∧
        (strandStep (strandStep (strandOf t n))).pc = (sreg c SReg.ira).toNat ∧
        sreg (strandStep (strandStep (strandOf t n))) SReg.st = sreg c SReg.ist &&& 0x3FFF)) ∧
    (∀ (rsel : Bool) (r : BitVec 6) (x : BitVec 11), controlFault c false = none → (if rsel then r ≠ 0x27 ∧ x = 0 else r = 0) →
      let count := if rsel then (srRead n c r.toNat).toNat else x.toNat
      (1 ≤ count → count ≤ 1024 → Answers (.strandRepeat k rsel r x) s (fun t => OneStrand s t n ∧
        strandOf t n = { c with agOld := [], rep := count, pc := c.pc + 1 })) ∧
      (count = 0 → c.loopActive = false → Answers (.strandRepeat k rsel r x) s (fun t => OneStrand s t n ∧
        strandOf t n = { c with agOld := [], pc := c.pc + 2 }))) ∧
    (∀ (rot : Bool) (r : BitVec 6) (le : BitVec 13), controlFault c false = none → r ≠ 0x27 →
      let count := srRead n c r.toNat
      (count = 0 → Answers (.loop k rot r le) s (fun t => OneStrand s t n ∧
        strandOf t n = { c with agOld := [], pc := le.toNat + 1 })) ∧
      (count ≠ 0 → c.pc + 1 ≤ le.toNat → c.stack.length + (if c.loopActive then 1 else 0) < 4 →
        Answers (.loop k rot r le) s (fun t => OneStrand s t n ∧
          let c' := strandOf t n
          c'.pc = c.pc + 1 ∧ c'.loopActive = true ∧ c'.loopRot = rot ∧ sreg c' SReg.lc = count ∧
          sreg c' SReg.ls = BitVec.ofNat 16 (c.pc + 1) &&& 0x1FFF ∧ (sreg c' SReg.le).toNat = le.toNat ∧
          c'.stack = (if c.loopActive then [(sreg c SReg.lc, sreg c SReg.ls, sreg c SReg.le, c.loopRot)] else []) ++ c.stack)))

/-- Strand DMA and waiting: a DMA instruction queues its transfer, or stalls with four outstanding, and goes on when one is done;
WAITD goes on at DSTAT ≤ k and stalls above; a transfer that is done has moved its words, lowers DSTAT and sets DMADONE; HALT
stops its core, once its transfers are done, and the last core's HALT ends the RUN with the lowest core's non-zero code, or with
TIMEOUT where its deadline has passed. -/
def Obligations.StrandTransfersAndHalts : Prop :=
  ∀ (s : State) (k : BitVec 6),
    let n := k.toNat
    let c := strandOf s n
    (strandGoes s n → controlFault c false = none → ∀ (dir : Bool) (ch pb pl : BitVec 3), pb.toNat ≤ 3 →
      (c.dq.length < 4 → dmaMay s n dir ch.toNat pb.toNat pl.toNat →
        Answers (.dma k dir ch pb pl) s (fun t => OneStrand s t n ∧ strandOf t n =
          strandStep { c with agOld := [], dq := c.dq ++ [dmaXfer s n dir ch.toNat pb.toNat pl.toNat], wait := .none })) ∧
      (4 ≤ c.dq.length → Answers (.dma k dir ch pb pl) s (fun t => OneStrand s t n ∧
        strandOf t n = { c with wait := .dma dir ch.toNat pb.toNat pl.toNat }))) ∧
    (strandGoes s n → controlFault c false = none → ∀ w : BitVec 2,
      Answers (.waitd k w) s (fun t => OneStrand s t n ∧ strandOf t n =
        if c.dq.length ≤ w.toNat then strandStep { c with agOld := [] } else { c with wait := .waitd w.toNat })) ∧
    (c.running = true → fenced s = false →
      (∀ w, c.wait = .waitd w → c.dq.length ≤ w → strandMayInterrupt c = false → Answers (.waitdResume k) s (fun t => OneStrand s t n ∧
        strandOf t n = strandStep { c with agOld := [], wait := .none })) ∧
      (∀ dir ch pb pl, c.wait = .dma dir ch pb pl → c.dq.length < 4 → dmaMay s n dir ch pb pl →
        Answers (.waitdResume k) s (fun t => OneStrand s t n ∧
          strandOf t n = strandStep { c with agOld := [], dq := c.dq ++ [dmaXfer s n dir ch pb pl], wait := .none }))) ∧
    (∀ (x : StrandXfer) (rest : List StrandXfer), c.dq = x :: rest → fenced s = false → (∀ code, c.wait ≠ .halt code) → 0 < x.step →
      (∃ m, m < 8 ∧ x.base = strandWord n m 0) → x.loc + (x.rows.length * x.rowWords - 1) * x.step ≤ 32767 → 0 < x.rowWords →
      (∀ e ∈ x.rows, ∀ b, e.1 ≤ b → b < e.1 + 2 * x.rowWords → (regionOf b = .hbm ∨ ∃ v, regionOf b = .cove v) ∧
        poisonAt s b = false ∧ accessReady s b = true) →
      (∀ r i, r < x.rows.length → i < x.rowWords → poisonAt s (xferWord x r i) = false) →
      (x.outward = true → x.rows.Pairwise (fun a b => apart a.1 (2 * x.rowWords) b.1 (2 * x.rowWords))) →
      Answers (.strandDmaDone k) s (fun t =>
        t = { s with strands := t.strands, mem := t.mem, tags := t.tags, poison := t.poison, cores := t.cores } ∧ CachesOnly s t ∧
        (∀ m, m ≠ n → strandOf t m = strandOf s m) ∧
        strandOf t n = { c with dq := rest, regs := (strandOf t n).regs } ∧
        (∀ r, sreg (strandOf t n) r = if r = SReg.ipend then sreg c r ||| 1 else sreg c r) ∧
        ∀ r i, r < x.rows.length → i < x.rowWords →
          let la := (x.rows.getD r (0, 0)).1 + 2 * i
          if x.outward then memBytes t la 2 = memBytes s (xferWord x r i) 2 else memBytes t (xferWord x r i) 2 = memBytes s la 2)) ∧
    (strandGoes s n → controlFault c false = none → ∀ code : BitVec 16,
      (c.dq ≠ [] → Answers (.strandHalt k code) s (fun t => OneStrand s t n ∧ strandOf t n = { c with wait := .halt code })) ∧
      (∀ id o, c.dq = [] → c.op = some id → findOp s id = some o → o.phase = .running →
        let codeOf := fun m => if m = n then code else (strandOf s m).code
        ((∃ m ∈ runCores o, m ≠ n ∧ (strandOf s m).running = true) →
          Answers (.strandHalt k code) s (fun t => OneStrand s t n ∧
            strandOf t n = { c with running := false, wait := .none, code := code })) ∧
        ((∀ m ∈ runCores o, m = n ∨ (strandOf s m).running = false) →
          Answers (.strandHalt k code) s (fun t => (strandOf t n).running = false ∧
            ∃ v : Compl, opEnds s t id v ∧
              (if ∃ d, o.deadline = some d ∧ passed s d = true then v.status = 5 else v.status = 0 ∧
                v.result.toNat = (((runCores o).filter (fun m => codeOf m != 0)).map (fun m => (codeOf m).toNat)).headD 0)))))

/-- RUN starts every core of its mask in the same state, with its program and cleared memory, and goes on until they halt; STOP
ends every RUN of its tenant on the cores it names with STRAND_STOPPED; an enabled interrupt saves PC and ST and enters IVEC; the
attention command sets IPEND.ATTN. -/
def Obligations.StrandRunsStopAndInterrupt : Prop :=
  (∀ (s : State) (id : Nat) (o r : Op), opRuns s id o r 0x40 strandFields → o.phase = .waiting → runBlocked s o = false →
    (∀ m, (strandOf s m).op ≠ some id) →
    let load := decide (param o 189 1 = 1)
    let bytes := 4 * param o 192 14
    let kept := fun m => decide (param o 190 1 = 1 ∧ (strandOf s m).tenant = o.tenant)
    0x40 ≤ o.queue.toNat → o.queue.toNat < 0x44 →
    (load = true → slotFits s r 0 false bytes ∧ rangePasses s r .strandDma 0 false (slotLa r 0) bytes ∧
      ∀ x, slotLa r 0 ≤ x → x < slotLa r 0 + bytes → (regionOf x = .hbm ∨ ∃ v, regionOf x = .cove v)) →
    Answers (.run id) s (fun t => opRunning t id ∧ (∀ j, j ≠ id → (findOp t j).map unready = (findOp s j).map unready) ∧
      ∀ m ∈ runCores o, strandOf t m = strandStart r ∧
        (load = true → memBytes t (strandBase m + 0x20000) bytes = memBytes s (slotLa r 0) bytes) ∧
        ∀ x, x < 0x28000 → (load = true → x < 0x20000 ∨ 0x20000 + bytes ≤ x) →
          memByte t (strandBase m + x) = if kept m then memByte s (strandBase m + x) else 0)) ∧
  (∀ (s : State) (id : Nat) (o r : Op), opRuns s id o r 0x41 strandFields → OpsDistinct s →
    let hit := fun x : Op => x.opcode = 0x40 ∧ x.phase = .running ∧ x.queue = o.queue ∧ x.tenant = o.tenant ∧
      ∃ m ∈ runCores o, (strandOf s m).running = true ∧ (strandOf s m).op = some x.id
    Answers (.strandStop id) s (fun t =>
      (∃ y, findOp t id = some y ∧ y.phase = .done ∧ y.compl.status = 0) ∧
      (∀ j x, findOp s j = some x → hit x → ∃ y, findOp t j = some y ∧ y.phase = .done ∧ y.compl.status = 0x11) ∧
      (∀ m x, findOp s x.id = some x → hit x → (strandOf s m).op = some x.id → (strandOf t m).running = false) ∧
      ∀ j, j ≠ id → (∀ x ∈ s.ops, x.id = j → ¬ hit x) → (findOp t j).map unready = (findOp s j).map unready)) ∧
  (∀ (s : State) (k : BitVec 6),
    let n := k.toNat
    let c := strandOf s n
    c.running = true → fenced s = false → stBit c 7 = true →
    (((sreg c SReg.ipend).getLsbD 0 = true ∧ stBit c 8 = true) ∨ ((sreg c SReg.ipend).getLsbD 1 = true ∧ stBit c 9 = true)) →
    c.delay = 0 → c.rep = 0 → (c.wait = .none ∨ ∃ w, c.wait = .waitd w) →
    Answers (.strandInterrupt k) s (fun t => OneStrand s t n ∧
      let c' := strandOf t n
      c'.pc = (sreg c SReg.ivec).toNat ∧ c'.wait = .none ∧ sreg c' SReg.ira = BitVec.ofNat 16 c.pc &&& 0x1FFF ∧
      sreg c' SReg.ist = sreg c SReg.st ∧ stBit c' 7 = false ∧ sreg c' SReg.ipend = sreg c SReg.ipend ∧
      c' = { c with pc := c'.pc, wait := .none, regs := c'.regs })) ∧
  (∀ (s : State) (a : Agent) (v : W32), platformAgent s a = true → v.getLsbD 31 = true →
    let n := v.toNat % 64
    Answers (.strAttn a v) s (fun t => OneStrand s t n ∧ strandOf t n = { strandOf s n with regs := (strandOf t n).regs } ∧
      ∀ r, sreg (strandOf t n) r = if r = SReg.ipend then sreg (strandOf s n) r ||| 2 else sreg (strandOf s n) r))

namespace Sys2Proof.Terms

/-- Slot `n` of a VCU operation passes its checks over `ext` bytes and is local (09 R246, R273). -/
def vidFits (s : State) (r : Op) (n : Nat) (mask : BitVec 12) (ext : Nat) : Prop :=
  capCheck (opSlot r n).cap 0 mask true (slotCur r n) ext 1 = none ∧ localFabric s false (slotAddr r n 0) = true

/-- The rules permit the VCU an access of local [a, a + n) for a slot and nothing makes it wait. -/
def vidMay (s : State) (r : Op) (slot : Nat) (kinds : BitVec 5) (write : Bool) (a n : Nat) : Prop :=
  ∀ x, a ≤ x → x < a + n → inMemory x ∧ accessReady s x = true ∧
    (acuCheckIn s r.bank .vcu r.tenant.toNat (kEngine ||| kinds) (capHas (opSlot r slot).cap rSYS) write x).2 = s ∧
    (acuCheckIn s r.bank .vcu r.tenant.toNat (kEngine ||| kinds) (capHas (opSlot r slot).cap rSYS) write x).1.ok = true

/-- No byte of [a, a + n) is poisoned. -/
def clean (s : State) (a n : Nat) : Prop := ∀ x, a ≤ x → x < a + n → poisonAt s x = false

/-- The row QP of R255: `bits` gives the bits of the rows complete so far, `last` the QP of the row before. -/
def rateQp (b : List Byte) (r : Nat) (bits : Nat) (last : Int) : Int :=
  let per := vset b 12 4 / vRows b
  let d : Int := if per = 0 then 0 else Int.fdiv (2 * (((bits : Int) - ((r - 1) * per : Nat)) * vset b 20 1) + 16 * per) (2 * (16 * per))
  max (vsetS8 b 10) (min (vsetS8 b 11) (last + max (-(vset b 21 1 : Int)) (min (vset b 21 1) d)))

/-- A buffer that a picture of context `v` takes (R260, R261): the lowest that may be claimed, or that holds no reference. -/
def takesBuffer (s : State) (r : Op) (v : Vctx) (i : Nat) : Prop :=
  if vPool v.setup then
    let st := fun j => if j ∈ v.freed then markState s v j / 4 * 4 else markState s v j
    localFabric s false (slotAddr (onAreas r v) 2 0) = true ∧
    (∀ j, (j < vBufs v.setup ∨ j ∈ v.freed) → vidMay s (onAreas r v) 2 kAtomic true (markAddr v j) 32 ∧ clean s (markAddr v j) 32) ∧
    i < vBufs v.setup ∧ st i % 8 ∈ [0, 2] ∧ ∀ j, j < i → st j % 8 ∉ [0, 2]
  else i = compressedBuffer v

/-- The pictures on every other pipe belong to operations that run, and not to operation `id`. -/
def pipesLive (s : State) (p id : Nat) : Prop :=
  ∀ q x, q < 4 → q ≠ p → (pipeOf s q).pic = some x → x.op ≠ id ∧ ∃ o ∈ s.ops, o.id = x.op ∧ o.phase = .running

end Sys2Proof.Terms

/-- VCU_CONFIG takes a set-up block without fault, or names its first faulty byte; FLUSH discards the references and KEY_REQUEST
notes its request; ENCODE and DECODE, and what stands behind other descriptors of its context, enter its list; a pipe that starts a picture claims a buffer, reads its source
or access unit, and codes it as key where R263 says so. -/
def Obligations.VideoContextsAndPicturesBegin : Prop :=
  ∀ (s : State) (id : Nat) (o r : Op),
    let c := vidCtx o
    let v := vctxOf s c
    (opRuns s id o r 0x50 vcuFields → vidBefore s o = false → v.freed = [] →
      let a := slotLa r 0
      let b := memBytes s a 128
      vidFits s r 0 vRead 128 → vidMay s r 0 kRead false a 128 → clean s a 128 →
      (∀ off, setupFault b = some off → Answers (.vcuConfig id) s (fun t => opEnds s t id (compl 0x24 0 0 off) ∧
        ∀ x, vctxOf t x = vctxOf s x)) ∧
      (setupFault b = none → (slotKind o.desc 2 = 1 ↔ vPool b = true) →
        vidFits s r 1 (rLD ||| rST ||| rDMA ||| rVID) (vBufs b * vBufSize b) →
        (vPool b = true → vidFits s r 2 (rLD ||| rST ||| rATOM ||| rDMA ||| rVID) (32 * vBufs b)) →
        Answers (.vcuConfig id) s (fun t => opEnds s t id (compl 0 0 (BitVec.ofNat 32 (vBufSize b / 4096)) 0) ∧
          t = { s with ops := t.ops, nextEnd := t.nextEnd, heldOps := t.heldOps, changeSet := t.changeSet, power := t.power,
                       vctxs := t.vctxs, regs := t.regs } ∧ RegsKept countKey s t ∧ DrainNoted s t ∧ WaitNoted s t ∧
          vctxOf t c = { vctxReset with configured := true, setup := b, refArea := (opSlot r 1).cap, markArea := (opSlot r 2).cap,
                                        qp := vsetS8 b 9, meanQp := vsetS8 b 9 } ∧ ∀ x, x ≠ c → vctxOf t x = vctxOf s x))) ∧
    (opRuns s id o r 0x53 vcuFields → vidBefore s o = false → v.configured = true → slotKind o.desc 1 = 0 →
      Answers (.flush id) s (fun t => opEnds s t id (complOk 0) ∧ MemKept s t ∧ (vctxOf t c).refs = [] ∧ (vctxOf t c).fresh = true ∧
        (vctxOf t c).setup = v.setup ∧ ∀ x, x ≠ c → vctxOf t x = vctxOf s x)) ∧
    (opRuns s id o r 0x54 vcuFields → v.configured = true → vDecode v.setup = false →
      Answers (.keyRequest id) s (fun t => opEnds s t id (complOk 0) ∧ MemKept s t ∧ (vctxOf t c).keyPending = true ∧
        (vctxOf t c).refs = v.refs ∧ ∀ x, x ≠ c → vctxOf t x = vctxOf s x)) ∧
    (findOp s id = some o → o.phase = .waiting → o.listed = false → readyToBegin s o = true → vidEarlier s o = false →
      (vidWaiting s c).length < 8 →
      let lists : State → Prop := fun t => OpsOnly s t ∧ t.nextEnd = s.nextEnd ∧
        (findOp t id).map unready = some (unready { accept s o with listed := true }) ∧
        ∀ j, j ≠ id → (findOp t j).map unready = (findOp s j).map unready
      (o.opcode = 0x51 → Answers (.encode id) s lists) ∧ (o.opcode = 0x52 → Answers (.decode id) s lists) ∧
      (o.opcode = 0x53 → vidBefore s o = true → Answers (.flush id) s lists) ∧
      (o.opcode = 0x50 → vidBefore s o = true → Answers (.vcuConfig id) s lists)) ∧
    (∀ (p : BitVec 2) (i : Nat), opRuns s id o r o.opcode.toNat vcuFields → o.phase = .waiting → pipeTakes s p.toNat = some o →
      (pipeOf s p.toNat).pic = none → (pipeOf s p.toNat).starting = none →
      (p.toNat % 2 = 1 → pipeBusy s (p.toNat - 1) = true) → takesBuffer s r v i →
      pipesLive s p.toNat id → v.configured = true → vDecode v.setup = decide (2 ≤ p.toNat) →
      let b := v.setup
      let a := slotLa r 0
      let starts := fun (data : List Byte) (t : State) => opRunning t id ∧ ∃ x, (pipeOf t p.toNat).pic = some x ∧
        x.op = id ∧ x.ctx = c ∧ x.buffer = i ∧ x.data = data ∧ x.rows = [] ∧ x.coded = [] ∧ x.past = v.history.length ∧
        x.expired = none ∧
        x.watchdog = s.tbc + BitVec.ofNat 64 (1000 * vWatchdog b) ∧
        (pipeOf t p.toNat).recent = ((!vLive b) :: (pipeOf s p.toNat).recent).take 8 ∧
        (x.kind = 2 ↔ ¬ (v.fresh = true ∨ param o 165 1 = 1 ∨ v.keyPending = true ∨
          (vset b 16 2 ≠ 0 ∧ (v.picture + 1) % 2 ^ 32 % vset b 16 2 = 0))) ∧
        (x.kind = 0 → x.poc = 0) ∧ (x.kind ≠ 0 → x.poc = v.lastPoc + 1) ∧
        (x.kind ≠ 2 → p.toNat < 2 → (vctxOf t c).keyPending = false) ∧
        (vPool b = true → markState t v i = markState s v i % 2 ^ 32 / 4 * 4 + 3 + (markState s v i / 2 ^ 32 + 1) % 2 ^ 32 * 2 ^ 32)
      (2 ≤ p.toNat → vidFits s r 0 vRead (vidLength o) → vidFits s r 1 vWrite (vidStride o * vHeight b) → vidFits s r 2 vWrite 32 →
        vidMay s r 0 kRead false a (vidLength o) →
        Answers (.pictureStart p) s (starts (memBytes s a (vidLength o)))) ∧
      (p.toNat < 2 → vidFits s r 0 vRead (max (vidStride o * vHeight b) ((vHeight b - 1) * vidStride o + 2 * vWidth b)) →
        vidFits s r 1 vWrite 0 → (slotKind o.desc 2 = 1 → vidFits s r 2 vWrite (4 * vRows b)) →
        (∀ y, y < vHeight b → vidMay s r 0 kRead false (a + y * vidStride o) (2 * vWidth b) ∧ clean s (a + y * vidStride o) (2 * vWidth b)) →
        Answers (.pictureStart p) s
          (starts ((List.range (vHeight b)).flatMap (fun y => memBytes s (a + y * vidStride o) (2 * vWidth b))))))

/-- Pictures go on and end: each CTU row takes its QP by the rule of its coding; a watchdog that runs out stops a decode, begun or
still waiting for memory, and sets
WDOG; an internal upset ends the picture with POISON and discards the references, and in a unit being reset it sets UE alone; an ENCODE without a frame-buffer pool ends
with its stream in the output, its picture first among the references, and its counts raised; a RASL picture is skipped. -/
def Obligations.VideoPicturesProceedAndEnd : Prop :=
  (∀ (s : State) (p : BitVec 1) (x : VidPic) (o : Op), (pipeOf s p.toNat).pic = some x → findOp s x.op = some o → fenced s = false →
    let v := vctxOf s x.ctx
    let b := v.setup
    let n := x.rows.length
    let may := n < vRows b ∧ (1 ≤ n → 2 ≤ x.coded.getD (n - 1) 0 ∨ vCols b ≤ x.coded.getD (n - 1) 0) ∧
      (2 ≤ n → x.coded.getD (n - 2) 0 = vCols b)
    (¬ may → Answers (.ctuRowBegin p) s (fun t => t = s)) ∧
    (may → Answers (.ctuRowBegin p) s (fun t => t = { s with pipes := t.pipes } ∧ ∃ q bs,
      (pipeOf t p.toNat).pic = some { x with rows := x.rows ++ [(q, bs)], coded := x.coded ++ [0] } ∧
      q = if vCoding b ≠ 2 then vsetS8 b 9
        else if n < 2 then (if x.kind ≠ 2 then vsetS8 b 9 else max (vsetS8 b 10) (min (vsetS8 b 11) v.meanQp))
        else rateQp b n (8 * ((x.rows.take (n - 1)).map (fun y => y.2.length)).sum) (x.rows.getD (n - 1) (0, [])).1))) ∧
  (∀ (s : State) (p : BitVec 1) (x : VidPic), (pipeOf s (2 + p.toNat)).pic = some x → x.expired = none →
    reached s x.watchdog = true → fenced s = false →
    Answers (.decodeWatchdog p) s (fun t =>
      t = { s with regs := t.regs, pipes := t.pipes, freeCtr := t.freeCtr } ∧ RegRaised s t Reg.vcuErr 2 ∧
      ∃ k, (pipeOf t (2 + p.toNat)).pic = some { x with expired := some k })) ∧
  (∀ (s : State) (p : BitVec 1) (y : VidStart), (pipeOf s (2 + p.toNat)).pic = none → (pipeOf s (2 + p.toNat)).starting = some y →
    y.expired = false → reached s (vidDeadline y.since (vctxOf s y.ctx).setup) = true → fenced s = false →
    Answers (.decodeWatchdog p) s (fun t => t = { s with regs := t.regs, pipes := t.pipes } ∧ RegRaised s t Reg.vcuErr 2 ∧
      pipeOf t (2 + p.toNat) = { pipeOf s (2 + p.toNat) with starting := some { y with expired := true } })) ∧
  (∀ (s : State) (p : BitVec 2), (pipeOf s p.toNat).pic = none →
    (sget markDflt s.resetting 0x44 = false → Answers (.pictureEnd p true) s (fun t => t = s)) ∧
    (sget markDflt s.resetting 0x44 = true → Answers (.pictureEnd p true) s (fun t => (regGet t Reg.vcuErr).getLsbD 0 = true ∧
      t.ops = s.ops ∧ t.vctxs = s.vctxs ∧ t.pipes = s.pipes ∧ MemKept s t))) ∧
  (∀ (s : State) (p : BitVec 2) (x : VidPic) (o : Op), (pipeOf s p.toNat).pic = some x → findOp s x.op = some o → x.ctx = vidCtx o →
    pipesLive s p.toNat x.op →
    let v := vctxOf s x.ctx
    let b := v.setup
    (o.phase = .running → Answers (.pictureEnd p true) s (fun t => opEnds s t x.op (compl 6 0 0 0) ∧ (vctxOf t x.ctx).refs = [] ∧
      (vctxOf t x.ctx).fresh = true ∧ (regGet t Reg.vcuErr).getLsbD 0 = true ∧ (pipeOf t p.toNat).pic = none)) ∧
    (opRuns s x.op o o o.opcode.toNat vcuFields → o.phase = .running → p.toNat < 2 → x.rows.length = vRows b →
      (∀ k ∈ x.coded, k = vCols b) → vPool b = false → setupFault b = none →
      let now := vidNow o b x
      let stream := streamHead b (vidPast v x) now x.kind (x.rows.map (fun y => y.2.length)) ++ x.rows.flatMap (fun y => y.2) ++
        if vHash b then hashSei (vDepth b) (encodeRecon o v x) else []
      let out := slotLa o 1
      let ref := localPart (capCursor v.refArea).toNat + x.buffer * vBufSize b
      vidFits s o 1 vWrite 0 → stream.length ≤ slotRoom o 1 → vidMay s o 1 kWrite true out stream.length → clean s out stream.length →
      slotKind o.desc 2 = 0 → localFabric s false (slotAddr (onAreas o v) 1 0) = true →
      (x.kind = 2 → ∀ r ∈ v.refs, let at_ := localPart (capCursor v.refArea).toNat + r.1 * vBufSize b
        vidMay s (onAreas o v) 1 kRead false at_ (vBufSize b) ∧ clean s at_ (vBufSize b)) →
      vidMay s (onAreas o v) 1 kWrite true ref (vBufSize b) → clean s ref (vBufSize b) →
      apart out stream.length ref (vBufSize b) →
      Answers (.pictureEnd p false) s (fun t =>
        (∃ d, opEnds s t x.op (compl 0 (if x.isOver then 2 else 0) (BitVec.ofNat 32 stream.length) d)) ∧
        memBytes t out stream.length = stream ∧ (pipeOf t p.toNat).pic = none ∧
        (vctxOf t x.ctx).picture = (v.picture + 1) % 2 ^ 32 ∧ (vctxOf t x.ctx).lastPoc = x.poc ∧
        (vctxOf t x.ctx).refs = ((x.buffer, x.poc) :: if x.kind = 2 then v.refs else []).take (vset b 3 1) ∧
        regGet t Reg.vcuEncSamples = regGet s Reg.vcuEncSamples + BitVec.ofNat 64 (vWidth b * vHeight b) ∧
        ∀ a, (a < out ∨ out + stream.length ≤ a) → (a < ref ∨ ref + vBufSize b ≤ a) → memByte t a = memByte s a)) ∧
    (opRuns s x.op o o o.opcode.toNat vcuFields → o.phase = .running → 2 ≤ p.toNat → vPool b = false →
      (x.expired ≠ none ∨ reached s x.watchdog = false) →
      let d := Config.decodeUnit b (vidPast v x) (vidNow o b x) x.poison
      unsupportedAt b d = none → d.rasl = true →
      Answers (.pictureEnd p false) s (fun t => MemKept s t ∧ RegsKept countKey s t ∧ (pipeOf t p.toNat).pic = none ∧
        (vctxOf t x.ctx).refs = v.refs ∧ (vctxOf t x.ctx).picture = v.picture ∧
        opEnds s t x.op (compl 0 16 0 (BitVec.ofInt 32 d.poc).toNat))))

namespace Sys2Proof.Terms

/-- The stack's temperature state and ALLOW (14 R379). -/
def stackIs (s : State) (n state allow : Nat) : Prop := stackState s n = state ∧ stackAllow s n = allow

/-- A stack has gone offline (R380): its state, its error bit, a class 4 record, and nothing of the others' states. -/
def StackFailed (s t : State) (n bit : Nat) : Prop :=
  stackState t n = 3 ∧ (regGet t Reg.hbmErr).getLsbD (bit + n) = true ∧ sget markDflt t.hbm.tripped n = true ∧
  (∀ m, m < 8 → m ≠ n → stackState t m = stackState s m) ∧ t.ops = s.ops ∧ t.cores = s.cores

end Sys2Proof.Terms

/-- A temperature reading moves a stack between Normal, Throttle and Critical by TH, CR and HYST, with ALLOW falling and rising by
one; CATTRIP and a relock that is late take it offline; HBM_THERM takes only a consistent value. That a failed reading keeps TEMP, and
that ALLOW stands in Critical, are the model's choices (log entry 24). -/
def Obligations.StacksFollowTheirTemperature : Prop :=
  ∀ (s : State) (k : BitVec 3),
    let n := k.toNat
    let th := regFld s Reg.hbmTherm 0 8
    let cr := regFld s Reg.hbmTherm 8 8
    let hy := regFld s Reg.hbmTherm 16 4
    (∀ (x : Byte) (a : Nat), s.tbc.toNat % 1000000 = 0 → s.hbm.trained = true → sget (fun _ => none) s.hbm.readAt n ≠ some s.tbc → th < cr →
      let v := x.toNat
      let reads : Nat → Nat → State → Prop := fun state allow t => stackIs t n state allow ∧ regFld t (Reg.hbmTemp n) 0 8 = v ∧
        regBit t (Reg.hbmTemp n) 14 = false ∧ regGet t (Reg.hbmTempAt n) = s.tbc ∧ MemKept s t ∧
        (∀ m, m < 8 → m ≠ n → stackState t m = stackState s m)
      (stackIs s n 0 a → cr ≤ v → Answers (.hbmTempReading k (some x)) s (fun t => reads 2 a t ∧ (regGet t Reg.hbmErr).getLsbD (16 + n) = true)) ∧
      (stackIs s n 0 a → th ≤ v → v < cr → Answers (.hbmTempReading k (some x)) s (reads 1 7)) ∧
      (stackIs s n 0 a → v < th → Answers (.hbmTempReading k (some x)) s (reads 0 a)) ∧
      (stackIs s n 1 a → cr ≤ v → Answers (.hbmTempReading k (some x)) s (fun t => reads 2 a t ∧ (regGet t Reg.hbmErr).getLsbD (16 + n) = true)) ∧
      (stackIs s n 1 a → th ≤ v → v < cr → Answers (.hbmTempReading k (some x)) s (reads 1 (max (a - 1) 1))) ∧
      (stackIs s n 1 a → v < th → th ≤ v + hy → Answers (.hbmTempReading k (some x)) s (reads 1 a)) ∧
      (stackIs s n 1 a → v + hy < th → a < 7 → Answers (.hbmTempReading k (some x)) s (reads 1 (a + 1))) ∧
      (stackIs s n 1 a → v + hy < th → 7 ≤ a → Answers (.hbmTempReading k (some x)) s (reads 0 8)) ∧
      (stackIs s n 2 a → cr ≤ v + hy → Answers (.hbmTempReading k (some x)) s (reads 2 a)) ∧
      (stackIs s n 2 a → v + hy < cr → Answers (.hbmTempReading k (some x)) s (reads 1 1)) ∧
      (let fails := fun t => regBit t (Reg.hbmTemp n) 14 = true ∧ regFld t (Reg.hbmTemp n) 0 8 = regFld s (Reg.hbmTemp n) 0 8 ∧
         regGet t (Reg.hbmTempAt n) = s.tbc ∧ MemKept s t
       (stackIs s n 0 a → Answers (.hbmTempReading k none) s (fun t => fails t ∧ stackIs t n 1 7)) ∧
       (stackIs s n 1 a → Answers (.hbmTempReading k none) s (fun t => fails t ∧ stackIs t n 1 (max (a - 1) 1))) ∧
       (stackIs s n 2 a → th + hy < cr → Answers (.hbmTempReading k none) s (fun t => fails t ∧ stackIs t n 1 1)))) ∧
    (stackOffline s n = false → Answers (.cattrip k) s (fun t => StackFailed s t n 8)) ∧
    (stackOffline s n = false → sget markDflt s.hbm.held n = true → hbmStopped s = false →
      reached s (sget zDflt64 s.hbm.relockBy n) = true → Answers (.hbmRelockTimeout k) s (fun t => StackFailed s t n 24)) ∧
    (∀ (ag : Agent) (v : W32), platformAgent s ag = true →
      let th' := v.toNat % 2 ^ 8
      let cr' := v.toNat / 2 ^ 8 % 2 ^ 8
      let hy' := v.toNat / 2 ^ 16 % 2 ^ 4
      80 ≤ th' → th' ≤ 104 → 90 ≤ cr' → cr' ≤ 110 → 1 ≤ hy' →
      (th' + hy' < cr' → Answers (.hbmThermWrite ag v) s (fun t => OnlyRegs (fun x => x == Reg.hbmTherm) s t ∧
        regFld t Reg.hbmTherm 0 8 = th' ∧ regFld t Reg.hbmTherm 8 8 = cr' ∧ regFld t Reg.hbmTherm 16 4 = hy')) ∧
      (cr' ≤ th' + hy' → Answers (.hbmThermWrite ag v) s (fun t => t = s)))

/-- Stacked memory: zeroing completes the next segment, where its stacks can be written, with zeros, clear tags and no poison; a scrub
that meets a syndrome corrects it, poisons its unit, or finds poison; refresh keeps everything; relocking holds every online stack and
lets each go; a memory-side add of an operation adds at its controller, once permitted. That a syndrome that a correction would make
clean does nothing to a poisoned unit (log entry 40), the order of zeroing, and the slot that an add goes through (log entry 24), are
the model's choices. -/
def Obligations.StackedMemoryKeepsItsUnits : Prop :=
  (∀ (s : State) (seg : BitVec 12), s.hbm.trained = true → nextSegment s = some seg.toNat → segmentReady s seg.toNat = true →
    let a := seg.toNat * 0x4000000
    Answers (.segmentZeroed seg) s (fun t =>
      (∀ x, memByte t x = if a ≤ x ∧ x < a + 0x4000000 then 0 else memByte s x) ∧
      (∀ x, a ≤ x → x < a + 0x4000000 → tagAt t x = false ∧ sget markDflt t.poison (unitOf x).1 = false) ∧
      (∀ g, sget (fun _ => false) t.zeroed g = (decide (g = seg.toNat) || sget (fun _ => false) s.zeroed g)) ∧
      (t.zeroed.length = 3072 → regBit t Reg.hbmZero 31 = true) ∧ t.cores = s.cores ∧ t.ops = s.ops)) ∧
  (∀ (s : State) (addr : BitVec 38) (x : BitVec 30) (spec : Bool),
    let a := addr.toNat
    let u := alignDown a 32
    let n := stackOf s u
    regionOf a = .hbm → s.hbm.trained = true → accessReady s a = true → stackOffline s n = false →
    (spec = false → regFld s Reg.hbmScrub 0 8 ≠ 0) →
    (x = 0 → Answers (.patrolScrub addr x spec) s (fun t => t = s)) ∧
    (x ≠ 0 → rsOneSymbol x = true → x ≠ poisonSyndrome →
      Answers (.patrolScrub addr x spec) s (fun t =>
        if poisonAt s a = true then t = s
        else t = { s with
            regs := t.regs, corrections := t.corrections, power := { s.power with corrSince := t.power.corrSince } } ∧
          RegsKept (fun k => k == Reg.hbmCorr n) s t ∧
          sget (fun _ => 0) t.power.corrSince n = sget (fun _ => 0) s.power.corrSince n + 1 ∧
          (regGet t (Reg.hbmCorr n)).toNat = min ((regGet s (Reg.hbmCorr n)).toNat + 1) (2 ^ 32 - 1))) ∧
    (x = poisonSyndrome → Answers (.patrolScrub addr x spec) s (fun t => t = { s with poison := t.poison, tags := t.tags } ∧
      poisonAt t a = true ∧ TagsWritten s t u 32 false)) ∧
    (x ≠ 0 → rsOneSymbol x = false → x ≠ poisonSyndrome →
      Answers (.patrolScrub addr x spec) s (fun t => t = { s with poison := t.poison, tags := t.tags, regs := t.regs } ∧
        poisonAt t a = true ∧ TagsWritten s t u 32 false ∧ (regGet t Reg.hbmErr).getLsbD n = true ∧
        regGet t (Reg.hbmLastUe n) = BitVec.ofNat 64 u ∧
        (regGet t (Reg.hbmUncorr n)).toNat = min ((regGet s (Reg.hbmUncorr n)).toNat + 1) (2 ^ 32 - 1)))) ∧
  (∀ (s : State) (k : BitVec 3) (b : BitVec 16), Answers (.hbmRefresh k b) s (fun t => t = s)) ∧
  (∀ (s : State), s.hbm.onRef ≠ s.time.refclk → s.hbm.trained = true →
    Answers .hbmPhyRelock s (fun t => t = { s with hbm := t.hbm } ∧ t.hbm.onRef = s.time.refclk ∧ t.hbm.tripped = s.hbm.tripped ∧
      ∀ n, n < 8 → if stackOffline s n then sget markDflt t.hbm.held n = sget markDflt s.hbm.held n
        else sget markDflt t.hbm.held n = true ∧ sget zDflt64 t.hbm.relockBy n = s.tbc + 1000000)) ∧
  (∀ (s : State) (k : BitVec 3), hbmStopped s = false →
    let late := sget markDflt s.hbm.held k.toNat = true ∧ passed s (sget zDflt64 s.hbm.relockBy k.toNat) = true
    (¬ late → Answers (.hbmPhyRelockDone k) s (fun t => t = { s with hbm := { s.hbm with held := t.hbm.held } } ∧
      ∀ n, sget markDflt t.hbm.held n = (decide (n ≠ k.toNat) && sget markDflt s.hbm.held n))) ∧
    (late → stackOffline s k.toNat = false → Answers (.hbmPhyRelockDone k) s (fun t => StackFailed s t k.toNat 24))) ∧
  (∀ (s : State) (id : Nat) (o : Op) (tenant : BitVec 8) (fmt : BitVec 3) (addr : BitVec 53) (addend : BitVec 192),
    let a := addr.toNat
    let f := fmt.toNat
    let n := addBytes f
    let slot := addSlot s o n a
    let off := addOffset o slot a
    let chk := acuCheckIn s o.bank .adder tenant.toNat (kEngine ||| kAtomic) (capHas (opSlot o slot).cap rSYS) true a
    findOp s id = some o → o.phase = .running → o.tenant = tenant → f ≤ 4 → fenced s = false →
    (∀ cause, addFault s o slot n a = some cause →
      Answers (.memorySideAdd id tenant fmt addr addend) s (fun t => opEnds s t id (compl 4 cause 0 off) ∧ MemKept s t)) ∧
    (addFault s o slot n a = none → chk.1.ok = false →
      Answers (.memorySideAdd id tenant fmt addr addend) s (fun t => opEnds s t id (compl 3 slot 0 off) ∧ MemKept s t)) ∧
    (addFault s o slot n a = none → chk.1.ok = true → chk.2 = s → hasTags (regionOf a) = true → accessReady s a = true →
      (poisonIn s a n = false →
        Answers (.memorySideAdd id tenant fmt addr addend) s (fun t => t.ops = s.ops ∧ CachesOnly s t ∧
          BytesWritten s t a (addResult f (numIn s a n) addend.toNat) ∧ tagAt t a = false ∧
          (f ≤ 1 → numIn t a n = (numIn s a n + addend.toNat) % 2 ^ (8 * n)) ∧
          (regionOf a = .hbm → regGet t (Reg.hbmAdds (stackOf s a)) = regGet s (Reg.hbmAdds (stackOf s a)) + 1))) ∧
      (poisonIn s a n = true →
        Answers (.memorySideAdd id tenant fmt addr addend) s (fun t => opEnds s t id (compl 6 0 0 off) ∧ MemKept s t))))

namespace Sys2Proof.Terms

/-- Operation `id` has ended now with this completion. -/
def opDone (s t : State) (id : Nat) (c : Compl) : Prop :=
  ∃ o, findOp t id = some o ∧ o.phase = .done ∧ o.compl = c ∧ o.ended = s.tbc

/-- No neighbour is lost: of no pair of ports are both fenced (15 R416). -/
def noneLost (s : State) : Prop := ∀ dir, dir < 6 → (portFenced s (2 * dir) && portFenced s (2 * dir + 1)) = false

/-- The five collectives: command and opcode. -/
def collCommand (id : Nat) : Instr → Option Nat
  | .allReduce x => if x = id then some 0x70 else none
  | .reduceScatter x => if x = id then some 0x71 else none
  | .allGather x => if x = id then some 0x72 else none
  | .broadcast x => if x = id then some 0x73 else none
  | .barrier x => if x = id then some 0x74 else none
  | _ => none

/-- A collective may begin on its object (R410, R419): the object is its tenant's, free, and holds nothing of this generation; its
used slots pass. -/
def collMay (s : State) (o r : Op) : Prop :=
  let b := collBar o
  objTenant s b = o.tenant.toNat ∧ objBusy s b = false ∧ (objOf s b).run = none ∧
  (∀ l ∈ (objOf s b).latched, l.2.1 ≠ objGen s b % 256) ∧
  (∀ e ∈ collSlots s o, capCheck (opSlot r e.1).cap 0 (if e.1 = 0 then rLD ||| rDMA else if e.1 = 1 then rST ||| rDMA
    else rLD ||| rST ||| rDMA) true (slotAddr r e.1 0) e.2.1 1 = none ∧ localFabric s false (slotAddr r e.1 0) = true) ∧
  (collReads s o = true → rangePasses s r .collective 0 false (slotLa r 0) (collIn o * collWidth o))

/-- The write-back of OUT passes: under the engine and atomic kinds, into memory free of poison. -/
def outPasses (s : State) (r : Op) (a n : Nat) : Prop :=
  ∀ x, a ≤ x → x < a + n → inMemory x ∧ poisonAt s x = false ∧ accessReady s x = true ∧
    (acuCheckIn s r.bank .collective r.tenant.toNat (kEngine ||| kAtomic) (capHas (opSlot r 1).cap rSYS) true x).2 = s ∧
    (acuCheckIn s r.bank .collective r.tenant.toNat (kEngine ||| kAtomic) (capHas (opSlot r 1).cap rSYS) true x).1.ok = true

/-- What the result of a group of one holds of an element of IN: the element, in a reduction with every NaN the canonical one and
a malformed EXA144 word NaN (13 R353, 12 R334). -/
def oneOf (o : Op) (x : Nat) : Nat := if collReduces o then collLeave (collFmt o) (collEnter (collFmt o) x).1 else x

/-- A member of object `b` runs as operation `id` and has not ended its network phase. -/
def memberRuns (s : State) (b id : Nat) (o : Op) (r : CollRun) (opcode : Nat) : Prop :=
  (objOf s b).run = some r ∧ r.op = id ∧ runDone r = false ∧ opRuns s id o o opcode collFields ∧ o.phase = .running ∧ collBar o = b ∧
  noneLost s

/-- A message flit that comes in order (15 R394): the one after the last good one, or one that stands in its receive buffer. -/
def inOrder (s : State) (l : Link) : Prop :=
  let x := portOf s l.port.toNat
  portCarries s l.port.toNat = true ∧ (l.seq.toNat ∈ x.parked ∨ l.seq.toNat = (x.rxSeq + 1) % 4096)

/-- A message flit has been received, and has left its receive buffer, whose credit the port owes from now on (15 R393). -/
def flitTaken (s t : State) (l : Link) : Prop :=
  let x := portOf s l.port.toNat
  let y := portOf t l.port.toNat
  y.nakSent = false ∧ l.seq.toNat ∉ y.parked ∧ y.rxSeq = (if l.seq.toNat ∈ x.parked then x.rxSeq else l.seq.toNat) ∧
  sget owedDflt y.owed l.vc.toNat = sget owedDflt x.owed l.vc.toNat + 1

/-- The object is free again, one generation on. -/
def objectFreed (s t : State) (b : Nat) (gen : Nat) : Prop :=
  (objOf t b).run = none ∧ objBusy t b = false ∧ objGen t b = (gen + 1) % 65536 ∧ objTenant t b = objTenant s b

end Sys2Proof.Terms

/-- A collective of a group of one completes at once: OUT holds IN, or its fp32 conversion, FAB_COLLS counts it, and its object is
free, one generation on. A member of a larger group takes its object and sends its join to every neighbour of the box. FAB_BAR
takes a tenant while its object is free. -/
def Obligations.CollectivesBeginAndComplete : Prop :=
  ∀ (s : State),
    (∀ (i : Instr) (id code : Nat) (o r : Op), collCommand id i = some code → opRuns s id o r code collFields → collMay s o r →
      noneLost s →
      let b := collBar o
      let w := collWidth o
      let n := collCount o * w
      (collSize o = 1 → code ≠ 0x74 → rangePasses s r .collective 2 true (slotLa r 2) n →
        rangePasses s r .collective 2 false (slotLa r 2) n →
        outPasses s r (slotLa r 1) (collCount o * collOutWidth o) →
        Answers i s (fun t => objectFreed s t b (objGen s b) ∧ regGet t Reg.fabColls = regGet s Reg.fabColls + 1 ∧
          (∃ reason detail, opDone s t id ⟨0, reason, 0, detail⟩) ∧
          (collFp32 o = false → ∀ j, j < collCount o → numIn t (slotLa r 1 + j * w) w = oneOf o (numIn s (slotLa r 0 + j * w) w)) ∧
          (collFp32 o = true → memBytes t (slotLa r 1) (4 * collCount o) = (collToFp32 o []
            ((List.range (collCount o)).flatMap (fun j => toBytes w (oneOf o (numIn s (slotLa r 0 + j * w) w))))).1))) ∧
      (collSize o = 1 → code = 0x74 →
        Answers i s (fun t => objectFreed s t b (objGen s b) ∧ regGet t Reg.fabColls = regGet s Reg.fabColls + 1 ∧ MemKept s t ∧
          opDone s t id (complOk 0))) ∧
      (collSize o ≠ 1 → placeValid s = true →
        Answers i s (fun t => opRunning t id ∧ objBusy t b = true ∧ MemKept s t ∧ ∃ x, (objOf t b).run = some x ∧
          x.op = id ∧ x.gen.toNat = objGen s b ∧ x.ext = collExt o ∧ x.joined = [] ∧
          (∀ dir ∈ runDirs x, ∃ p m, (p = 2 * dir ∨ p = 2 * dir + 1) ∧
            (sget (fun _ => []) (portOf t p).queue 4).getLast? = some m ∧ m.type = 0x20 ∧
            m.dest.toNat = neighbourOf s (deviceNo s) dir % 1024 ∧ m.payload = joinBytes (joinOf o (objGen s b)))))) ∧
    (∀ (a : Agent) (k : BitVec 6) (v : W32), platformAgent s a = true →
      let b := k.toNat
      (objBusy s b = false → v.toNat % 256 ≤ 128 → Answers (.fabBarWrite a k v) s (fun t =>
        OnlyRegs (fun x => x == Reg.fabBar b) s t ∧ objTenant t b = v.toNat % 256 ∧ objGen t b = objGen s b ∧ objBusy t b = false)) ∧
      (objBusy s b = true → Answers (.fabBarWrite a k v) s (fun t => t = s)))

/-- Messages to a barrier object: a join or data for no running member is held; a join of another tenant is answered by a
rejection; a join that differs ends the member with COLL_MISMATCH, and a sender outside its box has the member's own join in answer; a
rejection ends it with reason 2; an abort of its tenant along its chains ends it, and one for no running member is held; the
result of the last chain completes a BARRIER with the member's rank. -/
def Obligations.CollectiveMessagesReachTheirMember : Prop :=
  ∀ (s : State) (l : Link) (k : BitVec 6),
    let b := k.toNat
    let dir := portDir l.port.toNat
    let far := neighbourOf s (deviceNo s) dir
    inOrder s l →
    ((objOf s b).run = none → ∀ (j : Join), j.rejected = true ∨ objTenant s b = j.tenant.toNat →
      (j.generation.toNat % 256 + 256 - objGen s b % 256) % 256 < 128 →
      Answers (.collJoin l k j) s (fun t =>
        (objOf t b).latched = (objOf s b).latched ++ [(dir, j.generation.toNat % 256, .join j)] ∧ t.ops = s.ops ∧ flitTaken s t l)) ∧
    ((objOf s b).run = none → ∀ (g : BitVec 8) (i : BitVec 40) (flags : BitVec 5) (payload : List Byte) (poison : Bool) (tenant : Byte),
      (g.toNat + 256 - objGen s b % 256) % 256 < 128 →
      Answers (.collData l k g i flags payload poison tenant) s (fun t =>
        (objOf t b).latched = (objOf s b).latched ++ [(dir, g.toNat, .data tenant i.toNat flags.toNat payload poison)] ∧ t.ops = s.ops ∧
        flitTaken s t l)) ∧
    (∀ j : Join, j.rejected = false → objTenant s b ≠ j.tenant.toNat →
      (portFenced s (2 * dir) = false ∨ portFenced s (2 * dir + 1) = false) →
      Answers (.collJoin l k j) s (fun t => t.objects = s.objects ∧ t.ops = s.ops ∧ ∃ q m, (q = 2 * dir ∨ q = 2 * dir + 1) ∧
        (sget (fun _ => []) (portOf t q).queue 4).getLast? = some m ∧ m.type = 0x20 ∧
        m.payload = joinBytes { j with rejected := true })) ∧
    (∀ (id code : Nat) (o : Op) (r : CollRun) (j : Join), memberRuns s b id o r code → r.gen.toNat % 256 = j.generation.toNat % 256 →
      (j.rejected = false → objTenant s b = j.tenant.toNat → joinOf o j.generation.toNat ≠ j →
        Answers (.collJoin l k j) s (fun t => opDone s t id (compl 0x34 1 0 far) ∧ objectFreed s t b r.gen.toNat ∧
          (dir ∉ runDirs r → (portFenced s (2 * dir) = false ∨ portFenced s (2 * dir + 1) = false) →
            ∃ q m, (q = 2 * dir ∨ q = 2 * dir + 1) ∧ (sget (fun _ => []) (portOf t q).queue 4).getLast? = some m ∧ m.type = 0x20 ∧
              m.payload = joinBytes (joinOf o r.gen.toNat)))) ∧
      (j.rejected = true →
        Answers (.collJoin l k j) s (fun t => opDone s t id (compl 0x34 2 0 far) ∧ objectFreed s t b r.gen.toNat))) ∧
    (∀ (id code : Nat) (o : Op) (r : CollRun) (dev : BitVec 10) (lost : Bool) (tenant : Byte), memberRuns s b id o r code →
      (dir ∈ runDirs r → tenant.toNat = objTenant s b → Answers (.collAbort l k (BitVec.ofNat 8 r.gen.toNat) dev lost tenant) s (fun t =>
        opDone s t id (if lost then compl 7 0 0 dev.toNat else compl 0x36 0 0 dev.toNat) ∧ objectFreed s t b r.gen.toNat))) ∧
    (∀ (dev : BitVec 10) (g : Byte) (lost : Bool) (tenant : Byte), (objOf s b).run = none →
      (g.toNat + 256 - objGen s b % 256) % 256 < 128 →
      Answers (.collAbort l k g dev lost tenant) s (fun t => t.ops = s.ops ∧ flitTaken s t l ∧
        (objOf t b).latched = (objOf s b).latched ++ [(dir, g.toNat, .abort tenant dev.toNat lost)])) ∧
    (∀ (id : Nat) (o : Op) (r : CollRun) (flags : BitVec 5) (payload : List Byte) (poison : Bool), memberRuns s b id o r 0x74 → r.sent = true → r.back = 0 →
      dir = 2 * r.dim → r.dim < 3 → 1 < r.ext.getD r.dim 1 → (∀ d, r.dim < d → d < 3 → r.ext.getD d 1 = 1) → r.inbox = [] →
      Answers (.collData l k (BitVec.ofNat 8 r.gen.toNat) 0 flags payload poison o.tenant) s (fun t =>
        opDone s t id (compl 0 0 (BitVec.ofNat 32 (rankOf r.off r.ext)) 0) ∧ objectFreed s t b r.gen.toNat ∧
        regGet t Reg.fabColls = regGet s Reg.fabColls + 1))

namespace Sys2Proof.Terms

/-- Entry `i` of a submission ring, counted from its head (07 R184). -/
def ringAt (s : State) (fn q i : Nat) : Nat :=
  (regGetFn s fn (Reg.sqBase q)).toNat + 128 * ((sqHead s fn q + i) % 2 ^ sqSize s fn q)

/-- No descriptor of the ring waits for room, or is held by a change set (R187, R204). -/
def noneWaits (s : State) (fn q : Nat) : Prop :=
  ∀ o ∈ s.ops, ∀ p, o.src = .host fn q p → o.phase ≠ .waiting ∨ o.queue = 0xFF ∨ (o.queued = true ∧
    (o.listed = true ∨ dtaQueued o = true ∨ csHolds s o.queue.toNat o.tenant.toNat o.desc = false))

/-- The chain of `n` descriptors that stands at the head of a ring. -/
def chainAt (s : State) (fn q n : Nat) : List Byte := (List.range n).flatMap (fun i => hostBytes s (ringAt s fn q i) 128)

/-- Entries that the tail covers. -/
def ringAvail (s : State) (fn q : Nat) : Nat := countDiff (sget zDflt32 (fnOf s fn).tails q).toNat (sqHead s fn q)

/-- Every operation that `hit` names and that had not ended has ended now with this completion, and every other stands. -/
def EndedWith (s t : State) (hit : Op → Bool) (c : Compl) : Prop :=
  (∀ o ∈ s.ops, o.phase ≠ .done → hit o = true → opDone s t o.id c) ∧
  ∀ j, (∀ o ∈ s.ops, o.id = j → o.phase = .done ∨ hit o = false) → (findOp t j).map unready = (findOp s j).map unready

/-- The operation came from a ring of a function that `p` names. -/
def fromRing (p : Nat → Bool) (o : Op) : Bool := match o.src with | .host f _ _ => p f | .core _ _ _ => false

/-- What a function-level reset leaves of function `f` (R215): its rings and their registers as after reset, and its tenant's
epoch advancing. -/
def FunctionReset (t : State) (f : Nat) : Prop :=
  fnOf t f = hostFnReset ∧ sget markDflt t.advancing f = true ∧
  ∀ off, 0x1000 ≤ off → off < 0x2000 → regGetFn t f off = regReset (regKey f off)

/-- It is the turn of function `f` (R188): it has taken fewer than eight chains of SQ `q` in its turn, or is the next function
with a new descriptor. -/
def inTurn (s : State) (f q : Nat) : Prop := s.turnFn = f ∧ sget (fun _ => 0) s.turnTaken q < 8
def mayTake (s : State) (f q : Nat) : Prop := inTurn s f q ∨ nextTurn s = some f

/-- Host ingest. -/
def IngestAnswers (s : State) : Prop :=
  ∀ (fn : BitVec 8) (sq : BitVec 4) (n : Nat),
    let f := fn.toNat
    let q := sq.toNat
    let c := chainAt s f q n
    let o : Op := newOp s (.host f q (BitVec.ofNat 32 (sqHead s f q))) f c []
    mayFetch s f q = true → noneWaits s f q → 0 < n → n ≤ 2 ^ sqSize s f q → n ≤ ringAvail s f q →
    hdrExt (hostBytes s (ringAt s f q 0) 128) + 1 = n → hdr (chainAt s f q 1) 0 8 ≠ 0xFF →
    (∀ i, i < n → hostPortAccess s false (ringAt s f q i) 128 = (true, s)) → fetchWaits s f q = false →
    (¬ mayTake s f q → ∀ b, Answers (.descriptorIngest fn sq b) s (fun t => t = s)) ∧
    (∀ slots, mayTake s f q → headerFault c (n - 1) (some (sqSize s f q)) none = none → opcodePermitted f (hdr c 0 8) = true →
      (hdr c 10 1 = 1 → scInRange s f (hdr c 32 8) = true) → hostSlots s f c = .inr slots →
      opcodeFields s { o with slots := slots } = none → hdr c 0 8 ≠ 0x41 → hdr c 0 8 ≠ 0x54 →
      Answers (.descriptorIngest fn sq false) s (fun t =>
        t = { s with regs := t.regs, ops := t.ops, nextOp := s.nextOp + 1, turnFn := f, turnTaken := t.turnTaken,
                     heldOps := t.heldOps, changeSet := t.changeSet, power := t.power } ∧ DrainNoted s t ∧ WaitNoted s t ∧
        (inTurn s f q → sget (fun _ => 0) t.turnTaken q = sget (fun _ => 0) s.turnTaken q + 1) ∧
        (¬ inTurn s f q → ∀ x, sget (fun _ => 0) t.turnTaken x = if x = q then 1 else 0) ∧
        RegsKept (fun x => x == regKey f (Reg.sqHead q)) s t ∧ sqHead t f q = (sqHead s f q + n) % 2 ^ 32 ∧
        let o1 := { o with slots := slots }
        OpsAre t (s.ops ++ [if o.queue = 0xFF ∨ entersQueue s o1 = true then accept s o1 else o1]))) ∧
    (∀ slots, mayTake s f q → headerFault c (n - 1) (some (sqSize s f q)) none = none → hdr c 0 8 = 0x54 →
      (hdr c 10 1 = 1 → scInRange s f (hdr c 32 8) = true) → hostSlots s f c = .inr slots →
      opcodeFields s { o with slots := slots } = none → (∀ x ∈ s.ops, x.id ≠ s.nextOp) →
      (∀ d, opDeadline s o = some d → passed s d = false) →
      notOwned s 0x44 f c = false → engineOffline s 0x44 = false → csHolds s 0x44 f c = false →
      let k := hdr c 160 5
      (vctxOf s k).configured = true → vDecode (vctxOf s k).setup = false →
      Answers (.descriptorIngest fn sq false) s (fun t => sqHead t f q = (sqHead s f q + n) % 2 ^ 32 ∧
        opDone s t s.nextOp (complOk 0) ∧ (vctxOf t k).keyPending = true ∧ MemKept s t)) ∧
    (∀ d, mayTake s f q → headerFault c (n - 1) (some (sqSize s f q)) none = some d →
      Answers (.descriptorIngest fn sq false) s (fun t =>
        sqHead t f q = (sqHead s f q + n) % 2 ^ 32 ∧ MemKept s t ∧ ∃ e, e.phase = .done ∧ e.compl = compl 1 0 0 d ∧ e.desc = c ∧
          e.id = s.nextOp ∧ e.ended = s.tbc ∧ ((∀ x ∈ s.ops, x.id ≠ s.nextOp) → OpsAre t (s.ops ++ [e])))) ∧
    (mayTake s f q → Answers (.descriptorIngest fn sq true) s (fun t =>
      t.ops = s.ops ∧ sqHead t f q = sqHead s f q ∧ (regGetFn t f (Reg.sqCtrl q)).getLsbD 18 = true ∧
      (regGetFn t f (Reg.sqStatus q)).getLsbD 1 = true ∧ (regGet t Reg.hpErr).getLsbD 0 = true ∧ MemKept s t ∧ mayFetch t f q = false))

/-- Ends from outside. -/
def EndsFromOutside (s : State) : Prop :=
  (∀ (id : Nat) (o : Op) (d : W64), findOp s id = some o → o.phase = .running → o.deadline = some d → passed s d = true →
    o.opcode ≠ 8 → fenced s = false →
    Answers (.descriptorTimeout id) s (fun t => (∀ j, j ≠ id → (findOp t j).map unready = (findOp s j).map unready) ∧ MemKept s t ∧
      (∃ res x, opDone s t id (compl 5 0 res x) ∧ (o.opcode ≠ 0x40 → o.opcode ≠ 0x51 → res = 0 ∧ x = o.progress)))) ∧
  (∀ (a : Agent) (tenant : BitVec 8), pfAgent s a = false →
    Answers (.tenantStop a tenant) s (fun t => t = s) ∧ Answers (.tenantResume a tenant) s (fun t => t = s)) ∧
  (∀ (a : Agent) (tenant : BitVec 8), pfAgent s a = true → tenant.toNat ≤ 128 →
    Answers (.tenantStop a tenant) s (fun t => tenantStopped t tenant.toNat = true ∧ MemKept s t ∧
      EndedWith s t (fun o => o.tenant.toNat == tenant.toNat) (compl 8 1 0 0)) ∧
    Answers (.tenantResume a tenant) s (fun t => t = { s with regs := t.regs, stopsHeld := t.stopsHeld } ∧
      RegsKept (fun x => x == Reg.tenState tenant.toNat) s t ∧ (∀ u, u ∈ t.stopsHeld ↔ u ∈ s.stopsHeld ∧ u ≠ tenant.toNat) ∧
      tenantStopped t tenant.toNat = false)) ∧
  (linkPaused s = true → (∀ fn, Answers (.functionLevelReset fn) s (fun t => t = s)) ∧ ∀ on k, Answers (.vfDisable on k) s (fun t => t = s)) ∧
  (inReset s = false →
    (∀ fn : BitVec 8, fnExists s fn.toNat = true → fn ≠ 0 → linkPaused s = false →
      Answers (.functionLevelReset fn) s (fun t => OpsAre t (s.ops.filter (fun o => !fromRing (fun f => f == fn.toNat) o)) ∧
        FunctionReset t fn.toNat ∧ (regGet t Reg.hpErr).getLsbD 3 = true ∧ MemKept s t ∧
        ∀ f, f ≠ fn.toNat → fnOf t f = fnOf s f)) ∧
    (linkPaused s = false → Answers (.functionLevelReset 0) s (fun t => OpsAre t (s.ops.filter (fun o => !fromRing (fun f => decide (f ≤ 128)) o)) ∧
      t.changeSet = none ∧ MemKept s t ∧ ∀ f, f ≤ 128 → FunctionReset t f)) ∧
    (∀ (on : Bool) (k : BitVec 16), linkPaused s = false →
      let gone : Nat → Bool := fun f => decide (f ≤ 128) && fnExists s f && !(f == 0 || (on && decide (f ≤ k.toNat)))
      Answers (.vfDisable on k) s (fun t => t.vfEnable = on ∧ t.numVfs = k ∧ MemKept s t ∧
        OpsAre t (s.ops.filter (fun o => !fromRing gone o)) ∧ ∀ f, gone f = true → FunctionReset t f)) ∧
    Answers .linkDown s (fun t => OpsAre t (s.ops.filter (fun o => !fromRing (fun f => decide (f ≤ 128)) o)) ∧ t.changeSet = none ∧
      hostLinkUp t = false ∧ (regGet t Reg.hpErr).getLsbD 1 = true ∧ MemKept s t) ∧
    (∀ due, s.power.pcieBy = some due → reached s due = true →
      Answers .pcieL0Timeout s (fun t => OpsAre t (s.ops.filter (fun o => !fromRing (fun f => decide (f ≤ 128)) o)) ∧ MemKept s t ∧
        hostLinkUp t = false ∧ (regGet t Reg.hpErr).getLsbD 1 = true ∧ t.power.pcieBy = none)))

/-- The entries of a set: the 32-byte blocks behind its header (R203). -/
def setEntries (s : State) (a n : Nat) : List CsEntry :=
  (List.range n).map (fun i => ⟨BitVec.ofNat 8 (numIn s (a + 32 + 32 * i) 1), numIn s (a + 32 + 32 * i + 2) 2,
    memBytes s (a + 32 + 32 * i + 8) 24⟩)
def setRaws (s : State) (a n : Nat) : List (List Byte) := (List.range n).map (fun i => memBytes s (a + 32 + 32 * i) 32)

/-- The set names no element twice, and elements that there are (R204). -/
def setSound (c : ChangeSet) : Prop :=
  c.entries.Pairwise (fun x y => x.kind ≠ y.kind ∨ x.index ≠ y.index) ∧
  ∀ e ∈ c.entries, e.kind.toNat ∈ [1, 2, 3, 4, 0x10, 0x11] ∧ (e.kind = 2 → e.index < 1024) ∧ (e.kind = 4 → e.index ≤ 128)

/-- CS_STATUS.LAST and REASON. -/
def csLast (t : State) : Nat × Nat := (regFld t Reg.csStatus 2 2, regFld t Reg.csStatus 4 4)

/-- A rule of the access control unit as a set's entry gives it. -/
def entryRule (e : CsEntry) : Rule :=
  ⟨BitVec.ofNat 64 (numAt e.value 0 8), BitVec.ofNat 64 (numAt e.value 8 8), BitVec.ofNat 32 (numAt e.value 16 4)⟩

/-- No headland core waits for a response of another device. -/
def noCoreWaits (s : State) : Prop := ∀ n, (coreOf s n).remote = none

/-- Rule `i` of a bank has good parity: it stands in the bank's list of bad rules with no mark. -/
def goodRule (s : State) (bank : Bool) (i : Nat) : Prop := ∀ e ∈ (if bank then s.acu.bad1 else s.acu.bad0), e.1 = i → e.2 = 0

/-- No entry names this element. -/
def unnamed (c : ChangeSet) (kind : Byte) (i : Nat) : Prop := ∀ e ∈ c.entries, e.kind = kind → e.index ≠ i

/-- A set rejected before it was in progress changed nothing but its operation and CS_STATUS. -/
def RejectedAtOnce (s t : State) : Prop :=
  t = { s with ops := t.ops, regs := t.regs, nextEnd := t.nextEnd, heldOps := t.heldOps, power := t.power } ∧ WaitNoted s t ∧
  RegsKept (fun k => k == Reg.csStatus) s t

/-- Change sets. -/
def ChangeSetAnswers (s : State) : Prop :=
  (∀ (id count : Nat) (o r : Op), opRuns s id o r 8 hostFields → s.changeSet = none →
    (∀ x ∈ s.ops, x.opcode = 8 → x.phase ≠ .done → id ≤ x.id) → 0 < count → count ≤ 1024 →
    slotFits s r 0 false (32 + 32 * count) → rangePasses s r .changeSet 0 false (slotLa r 0) (32 + 32 * count) →
    let a := slotLa r 0
    let es := setEntries s a count
    let due := opDeadline s r
    numIn s a 2 = count → numIn s (a + 2) 6 = 0 → numIn s (a + 16) 16 = 0 →
    ((∀ i, i < count → entryOk s es (setRaws s a count) i = true) → (∀ d, due = some d → numIn s (a + 8) 8 ≤ d.toNat) →
      Answers (.changeSet id none) s (fun t => opRunning t id ∧ MemKept s t ∧
        t.changeSet = some ⟨id, es, BitVec.ofNat 64 (numIn s (a + 8) 8), s.tbc, due, false, none⟩ ∧
        t = { s with changeSet := t.changeSet, ops := t.ops, heldOps := t.heldOps, power := t.power } ∧ WaitNoted s t)) ∧
    ((∀ i, i < count → entryOk s es (setRaws s a count) i = true) → (∃ d, due = some d ∧ d.toNat < numIn s (a + 8) 8) →
      Answers (.changeSet id none) s (fun t => opEnds s t id (compl 0x0C 3 0 0) ∧ csLast t = (2, 3) ∧ RejectedAtOnce s t)) ∧
    (∀ i, i < count → entryOk s es (setRaws s a count) i = false → (∀ j, j < i → entryOk s es (setRaws s a count) j = true) →
      Answers (.changeSet id none) s (fun t => opEnds s t id (compl 0x0C 1 0 i) ∧ csLast t = (2, 1) ∧ RejectedAtOnce s t))) ∧
  (∀ c, s.changeSet = some c → fenced s = false → setSound c →
    let some1 := c.entries.any (fun e => e.kind == 1)
    let act := s.acu.active
    (c.prepared = false → csFree s c = true →
      Answers .changeSetPrepare s (fun t => MemKept s t ∧ OpsAre t s.ops ∧
        t.changeSet = some { c with prepared := true
                                    drained := if ∀ e ∈ c.entries, csDrained s e = true then some (c.drained.getD s.tbc) else none } ∧
        t = { s with changeSet := t.changeSet, acu := t.acu, regs := t.regs, ops := t.ops, heldOps := t.heldOps, power := t.power } ∧
        WaitNoted s t ∧ RegsKept acuKey s t ∧
        t.acu.active = act ∧ (∀ i, acuRule t.acu act i = acuRule s.acu act i) ∧ (some1 = false → t.acu = s.acu ∧ t.regs = s.regs) ∧
        (some1 = true → ∀ i, unnamed c 1 i → goodRule s act i → acuRule t.acu (!act) i = acuRule s.acu act i) ∧
        ∀ e ∈ c.entries, e.kind = 1 → acuRule t.acu (!act) e.index = entryRule e)) ∧
    (∀ o, csMaySwitch s c = true → findOp s c.op = some o → o.phase = .running → noCoreWaits s →
      let epoch := (regFld s Reg.csStatus 8 24 + 1) % 2 ^ 24
      Answers .changeSetSwitch s (fun t => t.changeSet = none ∧ (csLast t).1 = 1 ∧ regFld t Reg.csStatus 8 24 = epoch ∧
        regGet t Reg.csLastAt = s.tbc ∧
        opDone s t c.op (compl 0 (if ∃ d, c.drained = some d ∧ c.at_.toNat < d.toNat then 1 else 0) (BitVec.ofNat 32 epoch) 0) ∧
        t.acu.active = (act != some1) ∧ (∀ b i, acuRule t.acu b i = acuRule s.acu b i) ∧
        (∀ d, d < 1024 → unnamed c 2 d → regGet t (Reg.route d) = regGet s (Reg.route d)) ∧
        (∀ n, unnamed c 3 n → (tblOf t n).active = (tblOf s n).active) ∧
        (∀ n, n ≤ 128 → unnamed c 4 n → regGet t (Reg.tenQuota n) = regGet s (Reg.tenQuota n)) ∧
        (∀ n, unnamed c 0x10 n → coveOwnerOf t n = coveOwnerOf s n) ∧ (∀ n, unnamed c 0x11 n → vctxOwnerOf t n = vctxOwnerOf s n) ∧
        (∀ a, (∀ n, ¬ unnamed c 0x10 n → a < coveBase n ∨ coveBase n + 0x1800000 ≤ a) → memByte t a = memByte s a) ∧
        ∀ e ∈ c.entries, let v := numAt e.value 0 4
          (e.kind = 2 → regGet t (Reg.route e.index) = BitVec.ofNat 64 (v % 16)) ∧
          (e.kind = 3 → (tblOf t e.index).active = decide (numAt e.value 0 1 = 1)) ∧
          (e.kind = 4 → regGet t (Reg.tenQuota e.index) = BitVec.ofNat 64 v) ∧
          (e.kind = 0x10 → (coveOwnerOf t e.index).toNat = numAt e.value 0 1 % 256 ∧
            ((coveOwnerOf s e.index).toNat ≠ numAt e.value 0 1 % 256 → sget markDflt t.coveClearing e.index = true ∧
              ∀ x, x < 0x1800000 → memByte t (coveBase e.index + x) = 0)) ∧
          (e.kind = 0x11 → (vctxOwnerOf t e.index).toNat = numAt e.value 0 1 % 256 ∧
            ((vctxOwnerOf s e.index).toNat ≠ numAt e.value 0 1 % 256 → vctxOf t e.index = vctxReset)))) ∧
    (c.due = none → Answers .changeSetDeadline s (fun t => t = s)) ∧
    (∀ o d, c.due = some d → passed s d = true → findOp s c.op = some o → o.phase = .running →
      Answers .changeSetDeadline s (fun t => t.changeSet = none ∧ csLast t = (2, 2) ∧ t.acu.active = act ∧
        t = { s with changeSet := none, acu := t.acu, regs := t.regs, ops := t.ops, nextEnd := t.nextEnd, heldOps := t.heldOps,
                     power := t.power } ∧ WaitNoted s t ∧
        RegsKept (fun k => acuKey k || k == Reg.csStatus) s t ∧ (∀ i, acuRule t.acu act i = acuRule s.acu act i) ∧
        (c.prepared = true → some1 = true → ∀ i, goodRule s act i → acuRule t.acu (!act) i = acuRule s.acu act i) ∧
        ∃ n, opEnds s t c.op (compl 0x0C 2 0 n) ∧ ((∀ e ∈ c.entries, csDrained s e = true) → n = 0) ∧
          ∀ i e, c.entries[i]? = some e → csDrained s e = false → n ≤ i ∧ ∃ x, c.entries[n]? = some x ∧ csDrained s x = false)))

end Sys2Proof.Terms

/-- A chain at the head of a submission ring is taken whole: SQ_HEAD moves past it, and it stands as an operation, in its queue when
that takes it, or ended at once when its header faults; a fetch that fails stops the ring. A deadline, a tenant stop, a
function-level reset, a disabled VF, and the loss of the link end operations, each as it says, and no other. -/
def Obligations.DescriptorsAreIngestedAndEnded : Prop := ∀ s : State, OpsDistinct s → IngestAnswers s ∧ EndsFromOutside s

/-- A CHANGE_SET whose entries are all valid is in progress; one with a bad entry is rejected with that entry's index, and one
whose AT lies after its deadline too, and nothing else changes. Its preparation copies the active rules and writes the set's into
the shadow. Its switch gives every element its value at once, one configuration epoch on, and keeps every element that it does not
name, and all memory outside reassigned coves. Its deadline, where it has one, rejects it, returns the shadow rules, and changes no element. -/
def Obligations.ChangeSetsSwitchWholeOrNotAtAll : Prop := ∀ s : State, ChangeSetAnswers s

namespace Sys2Proof.Terms

/-- Only port `p`'s link state, this device's registers and what goes out may differ. -/
def PortFrame (s t : State) (p : Nat) : Prop :=
  t = { s with ports := t.ports, regs := t.regs, out := t.out } ∧ ∀ q, q ≠ p → portOf t q = portOf s q

/-- A register is one of port `p`'s status and counters. -/
def portKey (p k : Nat) : Bool :=
  k == Reg.portStatus p || k == Reg.portCtrl p || k == Reg.portRetrains p || k == Reg.portReplays p || k == Reg.portFecUncorr p

/-- A port whose retrain begins (15 R395): buffers, credits and SEQ are kept. -/
def retrainPort (x : Port) (clk : Bool) : Port := { x with moving := false, subst := none, clkLost := x.clkLost || clk }

/-- What goes out as a lane move that was prepared is dropped: the codeword headers read normal again (15 R391). -/
def moveDropped (p : Nat) (x : Port) : List Out := if x.moving then [.codeword p 0] else []

/-- A retrain has begun, and is counted. -/
def RetrainBegun (s t : State) (p : Nat) : Prop :=
  retraining t p = true ∧ portUp t p = true ∧
  (regGet t (Reg.portRetrains p)).toNat = min ((regGet s (Reg.portRetrains p)).toNat + 1) 0xFFFFFFFF

/-- A port is fenced with a reason, holds nothing, and is not retraining (R398). -/
def FencedWith (t : State) (p reason : Nat) : Prop :=
  portState t p = 4 ∧ fenceReason t p = reason ∧ retraining t p = false ∧ (∀ c, sget (fun _ => []) (portOf t p).queue c = []) ∧
  (portOf t p).replay = []

/-- A port that was in use has become fenced: its far end is told, and no other port changes its state. -/
def PortFenced (s t : State) (p reason : Nat) : Prop :=
  FencedWith t p reason ∧ Out.flit p (flitOf (portOf s p) 6 0 0 []) ∈ t.out ∧
  (∀ q, q < 12 → q ≠ p → portState t q = portState s q) ∧ pathHops t p = 31 ∧
  (regGet t (Reg.errClass 3)).toNat = min ((regGet s (Reg.errClass 3)).toNat + 1) 0xFFFFFFFF

/-- What of a replay buffer an ACK of SEQ `a` leaves (R394). -/
def acked (r : List (Nat × Nat × Msg)) (a : Nat) (left : List (Nat × Nat × Msg)) : Prop :=
  (left = r ∧ ∀ e ∈ r, e.1 ≠ a) ∨ ∃ l e, r = l ++ e :: left ∧ e.1 = a ∧ ∀ x ∈ l, x.1 ≠ a

/-- A port has taken what a link header brings: the ACK releases what it acknowledges, the CREDITS are added to those of their
channel, no more than its receiver has buffers (15 R392 to R394). -/
def LinkTaken (x y : Port) (l : Link) : Prop :=
  acked x.replay l.ack.toNat y.replay ∧
  y = { x with replay := y.replay, credits := y.credits, replays := x.replays.drop (x.replay.length - y.replay.length) } ∧
  ∀ c, sget creditDflt y.credits c =
    if c = l.cvc.toNat ∧ c ≤ 4 then min (creditDflt c) (sget creditDflt x.credits c + l.credits.toNat) else sget creditDflt x.credits c

/-- Flits that go out one after another by port `p`, each given by its kind, SEQ, channel and body: the ACK of each tells what came in
order, and each returns the credits of one channel (15 R392, R393). -/
def flitsFrom (p : Nat) (x : Port) : List (Nat × Nat × Nat × List Byte) → List Out
  | [] => []
  | e :: rest => .flit p (flitOf x e.1 e.2.1 e.2.2.1 e.2.2.2) :: flitsFrom p (creditsGone x) rest

/-- The message flits of a replay buffer. -/
def replayed (r : List (Nat × Nat × Msg)) : List (Nat × Nat × Nat × List Byte) := r.map (fun e => (1, e.1, e.2.1, msgBytes e.2.2))

/-- Flits, acknowledgements and the rotating spare. -/
def LinkCarries (s : State) (port : BitVec 4) : Prop :=
  let p := port.toNat
  let x := portOf s p
  (∀ (vc : BitVec 3) (m : Msg) (rest : List Msg), portCarries s p = true → vc.toNat ≤ 4 → sget (fun _ => []) x.queue vc.toNat = m :: rest →
    sget creditDflt x.credits vc.toNat ≠ 0 → x.replay.length < 1024 →
    Answers (.flitTransmit port vc) s (fun t => PortFrame s t p ∧ t.regs = s.regs ∧
      t.out = s.out ++ [.flit p (flitOf x 1 x.txSeq vc.toNat (msgBytes m))] ∧
      portOf t p = creditsGone { x with queue := (portOf t p).queue, credits := (portOf t p).credits,
                                        replay := x.replay ++ [(x.txSeq, vc.toNat, m)],
                                        replays := x.replays ++ [0], txSeq := (x.txSeq + 1) % 4096 } ∧
      sget (fun _ => []) (portOf t p).queue vc.toNat = rest ∧
      (∀ c, c ≠ vc.toNat → sget (fun _ => []) (portOf t p).queue c = sget (fun _ => []) x.queue c) ∧
      sget creditDflt (portOf t p).credits vc.toNat + 1 = sget creditDflt x.credits vc.toNat ∧
      ∀ c, c ≠ vc.toNat → sget creditDflt (portOf t p).credits c = sget creditDflt x.credits c)) ∧
  (∀ (vc : BitVec 3), (sget creditDflt x.credits vc.toNat = 0 ∨ 1024 ≤ x.replay.length) →
    Answers (.flitTransmit port vc) s (fun t => t = s)) ∧
  (∀ l : Link, l.port = port →
    (portLinked s p = false → Answers (.idleFlit l) s (fun t => t = s)) ∧
    (portLinked s p = true → Answers (.idleFlit l) s (fun t => PortFrame s t p ∧ t.regs = s.regs ∧ t.out = s.out ∧
      LinkTaken x (portOf t p) l)) ∧
    (∀ y : Port, LinkTaken x y l → portLinked s p = true → retraining s p = false →
      (y.replay = [] → Answers (.nak l) s (fun t => PortFrame s t p ∧ t.regs = s.regs ∧ t.out = s.out ∧ LinkTaken x (portOf t p) l)) ∧
      (y.replay ≠ [] →
        let again : State → Prop := fun t => PortFrame s t p ∧ RegsKept (portKey p) s t ∧ (portOf t p).replay = y.replay ∧
          (portOf t p).replays = y.replays.map (fun n => n + 1) ∧
          (regGet t (Reg.portReplays p)).toNat = min ((regGet s (Reg.portReplays p)).toNat + 1) 0xFFFFFFFF
        ((∀ n ∈ y.replays, n + 1 < 8) → Answers (.nak l) s (fun t => again t ∧ t.out = s.out ++ flitsFrom p x (replayed y.replay))) ∧
        ((∃ n ∈ y.replays, 8 ≤ n + 1) → portUp s p = true → Answers (.nak l) s (fun t => again t ∧ RetrainBegun s t p ∧
          ∃ flits ask, flitsFrom p x (replayed y.replay ++ [(5, 0, 0, [])]) = flits ++ [ask] ∧
            t.out = s.out ++ flits ++ moveDropped p x ++ [ask]))))) ∧
  (∀ bad : Bool, portLinked s p = true →
    Answers (.badFlit port bad) s (fun t => PortFrame s t p ∧ portOf t p = { creditsGone x with nakSent := true } ∧
      RegsKept (portKey p) s t ∧ t.out = s.out ++ [.flit p (flitOf x 4 0 0 [])] ∧ (regGet t (Reg.portFecUncorr p)).toNat =
        if bad then min ((regGet s (Reg.portFecUncorr p)).toNat + 1) 0xFFFFFFFF else (regGet s (Reg.portFecUncorr p)).toNat)) ∧
  (portUp s p = true → p < 12 → retraining s p = false → x.moving = false → (∀ n ∈ x.replays, n = 0) → phyStopped s = false → fenced s = false →
    Answers (.laneRotation port) s (fun t =>
      if regFld s Reg.fabCfg 16 8 * 3600000000000 ≤ elapsed s x.lastMove then
        PortFrame s t p ∧ t.regs = s.regs ∧ t.out = s.out ++ [.codeword p 1] ∧ portOf t p = { x with moving := true }
      else t = s)) ∧
  (p < 12 → x.moving = true → phyStopped s = false → fenced s = false → spareLane s p < 5 →
    let l := spareLane s p
    Answers (.laneMove port true) s (fun t => PortFrame s t p ∧ t.out = s.out ++ [.codeword p 2, .codeword p 0] ∧
      RegsKept (fun k => k == Reg.portStatus p || k == Reg.laneInfo (8 * p + l)) s t ∧ spareLane t p = (l + 1) % 5 ∧
      portOf t p = { x with moving := false, lastMove := s.tbc, spareSince := s.tbc } ∧
      regFld t (Reg.laneInfo (8 * p + l)) 16 16 =
        min (regFld s (Reg.laneInfo (8 * p + l)) 16 16 + elapsed s x.spareSince / 3600000000000) 0xFFFF) ∧
    Answers (.laneMove port false) s (fun t => PortFrame s t p ∧ t.out = s.out ++ [.codeword p 0] ∧
      RegsKept (fun k => k == Reg.fabErr) s t ∧ spareLane t p = l ∧ portOf t p = { x with moving := false, lastMove := s.tbc } ∧
      (regGet t Reg.fabErr).getLsbD 3 = true))

/-- Training, retraining, and the fabric clock. -/
def LinkTrains (s : State) (l : Link) (a : Agent) : Prop :=
  let port := l.port
  let p := port.toNat
  let x := portOf s p
  let asks := Out.flit p (flitOf x 5 0 0 [])
  p < 12 → fenced s = false → phyStopped s = false →
  (portUp s p = true → retraining s p = false →
    (s.fabClk = true → Answers (.retrainRequest l) s (fun t => PortFrame s t p ∧ RegsKept (portKey p) s t ∧ t.out = s.out ++ moveDropped p x ∧
      RetrainBegun s t p ∧ ∃ y, LinkTaken x y l ∧ portOf t p = retrainPort y false)) ∧
    Answers (.laneLockLoss port) s (fun t => PortFrame s t p ∧ RegsKept (portKey p) s t ∧ t.out = s.out ++ moveDropped p x ++ [asks] ∧
      RetrainBegun s t p ∧ portOf t p = creditsGone (retrainPort x false)) ∧
    (platformAgent s a = true → Answers (.portRetrain a port) s (fun t => PortFrame s t p ∧ RegsKept (portKey p) s t ∧
      t.out = s.out ++ moveDropped p x ++ [asks] ∧ RetrainBegun s t p ∧ portOf t p = creditsGone (retrainPort x false) ∧
      regBit t (Reg.portCtrl p) 0 = regBit s (Reg.portCtrl p) 0))) ∧
  (portUp s p = true → retraining s p = true → s.fabClk = true →
    (∀ lane, Answers (.retrainComplete port true lane) s (fun t =>
      retraining t p = false ∧ portUp t p = true ∧
      t.out = s.out ++ flitsFrom p x ((if x.timeDue = true ∧ alignEn s = true then [(2, 0, 0, timeBody s p)] else []) ++ replayed x.replay) ∧
      portOf t p = { x with replays := x.replays.map (fun _ => 1), subst := none, clkLost := false, timeDue := false, owed := (portOf t p).owed } ∧
      (regGet t (Reg.portReplays p)).toNat = (if x.replay = [] then (regGet s (Reg.portReplays p)).toNat
        else min ((regGet s (Reg.portReplays p)).toNat + 1) 0xFFFFFFFF) ∧
      ∀ q, q ≠ p → portOf t q = portOf s q)) ∧
    (∀ lane : BitVec 3, lane.toNat < 5 → lane.toNat ≠ spareLane s p → x.subst = none →
      let off := Reg.laneInfo (8 * p + spareLane s p)
      Answers (.retrainComplete port false (some lane)) s (fun t => retraining t p = true ∧ portUp t p = true ∧
        spareLane t p = lane.toNat ∧ portOf t p = { x with subst := some lane.toNat, spareSince := s.tbc } ∧
        regFld t off 16 16 = min (regFld s off 16 16 + elapsed s x.spareSince / 3600000000000) 0xFFFF ∧
        (regGet t (Reg.portRetrains p)).toNat = min ((regGet s (Reg.portRetrains p)).toNat + 1) 0xFFFFFFFF)) ∧
    (∀ lane, (x.subst ≠ none ∨ lane = none ∨ ∀ l, lane = some l → l.toNat = spareLane s p) → noCoreWaits s →
      Answers (.retrainComplete port false lane) s (fun t => PortFenced s t p 2))) ∧
  (s.fabClk = false → Answers (.linkTrainingDone port) s (fun t => t = s) ∧
    ∀ serial fp pos tray rack, Answers (.identityFlit l serial fp pos tray rack) s (fun t => t = s)) ∧
  ((portState s p = 1 ∨ (portState s p = 4 ∧ fenceReason s p = 5)) → s.fabClk = true →
    let y : Port := if portState s p = 4 then { portReset with queue := x.queue, spareSince := x.spareSince, lastMove := x.lastMove } else x
    Answers (.linkTrainingDone port) s (fun t => portState t p = 2 ∧ t.out = s.out ++ [.flit p (flitOf y 3 0 0 (identityBody s p))] ∧
      portOf t p = creditsGone y ∧ ∀ q, q ≠ p → portOf t q = portOf s q)) ∧
  (∀ (serial : W64) (fp : BitVec 4) (pos : BitVec 2) (tray : BitVec 5) (rack : BitVec 3) (pl : Plan) (me : Nat),
    portState s p = 2 → s.fabClk = true → s.plan = some pl → myNumber s = some me →
    let far := placeNumber rack.toNat tray.toNat pos.toNat
    let told := fun t => regGet t (Reg.portFarSerial p) = serial ∧
      (regGet t (Reg.portFarPlace p)).toNat = fp.toNat + 16 * pos.toNat + 64 * tray.toNat + 2048 * rack.toNat
    (planFar pl me p = some (far, fp.toNat) → (∀ v, planSerial pl far = some v → v = serial) →
      Answers (.identityFlit l serial fp pos tray rack) s (fun t => portState t p = 3 ∧ told t ∧ PortFrame s t p ∧
        (∃ y, LinkTaken x y l ∧ portOf t p = { y with clkLost := false }) ∧ t.out = s.out)) ∧
    ((planFar pl me p ≠ some (far, fp.toNat) ∨ ∃ v, planSerial pl far = some v ∧ v ≠ serial) → noCoreWaits s →
      Answers (.identityFlit l serial fp pos tray rack) s (fun t => PortFenced s t p 1 ∧ told t))) ∧
  (noCoreWaits s → portState s p ∈ [1, 2, 3] →
    (s.fabClk = true → Answers (.withdraw l) s (fun t => PortFenced s t p 5)) ∧
    (platformAgent s a = true → regBit s (Reg.portCtrl p) 0 = false →
      Answers (.portFence a port) s (fun t => PortFenced s t p 3 ∧ regBit t (Reg.portCtrl p) 0 = true))) ∧
  (platformAgent s a = true → regBit s (Reg.portCtrl p) 0 = true → portState s p = 4 →
    Answers (.portUnfence a port) s (fun t =>
      t = { s with ports := t.ports, regs := t.regs, time := { s.time with paths := t.time.paths, told := t.time.told } } ∧
      (∀ q, q ≠ p → portOf t q = portOf s q) ∧ pathHops t p = 31 ∧ RegsKept (portKey p) s t ∧ portState t p = 1 ∧
      regBit t (Reg.portCtrl p) 0 = false ∧
      portOf t p = { portReset with queue := x.queue, spareSince := x.spareSince, lastMove := x.lastMove, clkLost := !s.fabClk })) ∧
  (s.fabClk = true →
    Answers .fabClkLoss s (fun t => t = { s with ports := t.ports, regs := t.regs, out := t.out, fabClk := false, fabClkLostAt := s.tbc } ∧
      t.out = s.out ++ (List.range 12).flatMap (fun q => if portUp s q then moveDropped q (portOf s q) else []) ∧
      ∀ q, q < 12 →
        (portUp s q = true →
          if retraining s q then portOf t q = { portOf s q with moving := false, clkLost := true }
          else RetrainBegun s t q ∧ portOf t q = retrainPort (portOf s q) true) ∧
        (portState s q = 1 ∨ portState s q = 2 → portState t q = 1 ∧ portOf t q = { portOf s q with clkLost := true }) ∧
        (portUp s q = false → portState s q ≠ 1 → portState s q ≠ 2 → portState t q = portState s q ∧ portOf t q = portOf s q))) ∧
  (5000000 ≤ elapsed s s.fabClkLostAt → noCoreWaits s →
    Answers .fabClkLossTimeout s (fun t => ∀ q, q < 12 →
      if (portOf s q).clkLost = true ∧ portState s q ≠ 4 ∧ portUnused s q = false then FencedWith t q 2
      else portState t q = portState s q)) ∧
  Answers .fabClkReturn s (fun t => t = { s with fabClk := true })

end Sys2Proof.Terms

/-- The fabric ports. A message flit goes out when a credit and the replay buffer allow, an ACK releases what it acknowledges, a
bad flit is answered by a NAK, a NAK replays and, when a flit goes out for the eighth time so, retrains; the spare lane moves on clean copies alone. Retrains
begin with everything kept, and complete by replaying, by substituting the spare, or by a fence. A trained port tells its
identity and is up only when the plan's far end answers; a mismatch, a withdrawal or an operator fences it. Loss of the
fabric clock retrains every port that is up, lets one that trains begin anew, and fences those still down after 5 ms. How a flit's
header comes, when a buffer's credit is owed and goes back (log entry 18), which replays are counted, how a lane move is told, and the
reasons of a fence (log entry 23) are the model's choices. -/
def Obligations.PortsCarryTrainAndFence : Prop := ∀ (s : State) (l : Link) (a : Agent), LinkCarries s l.port ∧ LinkTrains s l a

namespace Sys2Proof.Terms

/-- A response as 15 R406 forms it. -/
def responseTo (s : State) (src : BitVec 10) (tenant : Byte) (type : BitVec 6) (addr : BitVec 54) (rid : BitVec 16) (dirs : BitVec 6)
    (status : BitVec 4) (tag : Bool) (payload : List Byte) : Msg :=
  { dest := src, src := BitVec.ofNat 10 (deviceNo s), tenant := tenant, type := type + 0x10, dirs := dirs, addr := addr, tag := tag,
    poison := status == 2, rid := rid, status := status, op := 0, len := BitVec.ofNat 7 payload.length, payload := payload }

/-- The way of a response: the port, channel and DIRS that R401 and R402 give it. -/
def wayBack (s : State) (src : BitVec 10) (type : BitVec 6) (q vc : Nat) (dirs : BitVec 6) : Prop :=
  routeMsg s src.toNat (BitVec.ofNat 10 (deviceNo s)).toNat 0 (type + 0x10) false = .port q vc dirs

/-- The message `m` has joined the end of one queue, and every other queue stands. -/
def Queued (s t : State) (q vc : Nat) (m : Msg) : Prop :=
  ∀ p c, sget (fun _ => []) (portOf t p).queue c =
    sget (fun _ => []) (portOf s p).queue c ++ if p = q ∧ c = vc then [m] else []

/-- An arrival's rules permit it at every byte, and nothing makes it wait (04 R95, R101). -/
def arrivalMay (s : State) (tenant : Byte) (kinds : BitVec 5) (write : Bool) (a n : Nat) : Prop :=
  ∀ x, a ≤ x → x < a + n → inMemory x ∧ accessReady s x = true ∧
    (acuCheck s .tideway tenant.toNat kinds false write x).2 = s ∧ (acuCheck s .tideway tenant.toNat kinds false write x).1.ok = true

/-- A message flit that cannot be performed yet stands in its receive buffer, and no credit goes back (02 R36). -/
def flitHeld (s t : State) (l : Link) : Prop :=
  let x := portOf s l.port.toNat
  let y := portOf t l.port.toNat
  l.seq.toNat ∈ y.parked ∧ y.owed = x.owed ∧ y.rxSeq = (if l.seq.toNat ∈ x.parked then x.rxSeq else l.seq.toNat) ∧
  ∀ p c, sget (fun _ => []) (portOf t p).queue c = sget (fun _ => []) (portOf s p).queue c

/-- Accesses of other devices, performed here. -/
def HomeAnswers (s : State) (l : Link) (src : BitVec 10) (tenant : BitVec 8) (addr : BitVec 54) (rid : BitVec 16) : Prop :=
  let a := addr.toNat
  let back := fun (type : BitVec 6) (status : BitVec 4) (tag : Bool) (payload : List Byte) (t : State) =>
    flitTaken s t l ∧ ∀ q vc dirs, wayBack s src type q vc dirs → Queued s t q vc (responseTo s src tenant type addr rid dirs status tag payload)
  let kinds := fun (write : Bool) (e : Access) =>
    if e = .update then kEngine ||| kAtomic else (if e = .engine then kEngine else 0) ||| if write then kWrite else kRead
  let row := deviceNo s * 2 ^ 54 + a
  let held := fun (e : Access) (n : Nat) => e = .update ∧ heldByOther s (.device src.toNat) row n = true
  inOrder s l →
  (∀ (len : BitVec 7) (e : Access), arrivalMay s tenant (kinds false e) (e == .update) a len.toNat →
    (poisonIn s a len.toNat = false → ¬ held e len.toNat → Answers (.read l src tenant addr rid len e) s (fun t =>
      MemKept s t ∧ t.cores = s.cores ∧ back 1 0 false (memBytes s a len.toNat) t ∧
      (e ≠ .update → t.rowHolds = s.rowHolds) ∧ (e = .update → ⟨.device src.toNat, row, len.toNat, s.tbc⟩ ∈ t.rowHolds))) ∧
    (poisonIn s a len.toNat = true → ¬ held e len.toNat → Answers (.read l src tenant addr rid len e) s (fun t =>
      MemKept s t ∧ t.cores = s.cores ∧ back 1 2 false [] t)) ∧
    (held e len.toNat → Answers (.read l src tenant addr rid len e) s (fun t =>
      MemKept s t ∧ t.rowHolds = s.rowHolds ∧ flitHeld s t l))) ∧
  (∀ (payload : List Byte) (e : Access), arrivalMay s tenant (kinds true e) true a payload.length → StoreTaken s a payload.length →
    payload ≠ [] →
    let mine := e = .update → holdsAll s (.device src.toNat) row payload.length = true
    (mine → Answers (.write l src tenant addr rid payload e) s (fun t =>
      BytesWritten s t a payload ∧ TagsWritten s t a payload.length false ∧ CachesOnly s t ∧ back 2 0 false [] t ∧
      (e = .update → ∀ h, h ∈ t.rowHolds ↔ h ∈ s.rowHolds ∧ (h.holder = .device src.toNat → holdMeets h row payload.length = false)) ∧
      (e ≠ .update → t.rowHolds = s.rowHolds))) ∧
    (¬ mine → Answers (.write l src tenant addr rid payload e) s (fun t =>
      MemKept s t ∧ t.cores = s.cores ∧ t.rowHolds = s.rowHolds ∧ back 2 3 false [] t))) ∧
  (∀ ldc : Bool, arrivalMay s tenant kRead false a 16 → a % 16 = 0 → poisonIn s a 16 = false →
    let tag := hasTags (regionOf a) && tagAt s a
    Answers (.remoteCld l src tenant addr rid ldc) s (fun t => MemKept s t ∧ t.cores = s.cores ∧
      back 3 0 (tag && ldc && capHas ⟨tag, BitVec.ofNat 128 (numIn s a 16)⟩ rGLOB) (memBytes s a 16) t)) ∧
  (∀ (v : BitVec 128) (tag : Bool), arrivalMay s tenant kWrite true a 16 → a % 16 = 0 → StoreTaken s a 16 →
    (tag = true → hasTags (regionOf a) = true) →
    Answers (.remoteCst l src tenant addr rid v tag) s (fun t =>
      BytesWritten s t a (toBytes 16 v.toNat) ∧ TagsWritten s t a 16 (tag && capOk ⟨tag, v⟩ && capHas ⟨tag, v⟩ rGLOB) ∧ CachesOnly s t ∧
        back 4 0 false [] t)) ∧
  (∀ v : BitVec 128, hasTags (regionOf a) = false →
    Answers (.remoteCst l src tenant addr rid v true) s (fun t => MemKept s t ∧ back 4 4 false [] t)) ∧
  (∀ (func : BitVec 5) (b c : W64),
    let w := if func.getLsbD 4 then 64 else 32
    let n := w / 8
    let old := BitVec.ofNat w (numIn s a n)
    arrivalMay s tenant kAtomic true a n → hasTags (regionOf a) = true → func.toNat % 16 ≤ 9 → poisonIn s a n = false →
    Answers (.atomic l src tenant addr rid func b c) s (fun t =>
      back 5 0 false (toBytes 8 old.toNat) t ∧ CachesOnly s t ∧
      match atomicStored (func.toNat % 16) old (b.setWidth w) (c.setWidth w) with
      | some v => NumWritten s t a n v.toNat ∧ TagsWritten s t a n false
      | none => MemKept s t)) ∧
  (∀ (fmt : BitVec 3) (v : BitVec 192), arrivalMay s tenant kAtomic true a (addBytes fmt.toNat) → hasTags (regionOf a) = true →
    fmt.toNat ≤ 4 → poisonIn s a (addBytes fmt.toNat) = false →
    Answers (.remoteMsadd l src tenant addr rid fmt v) s (fun t =>
      BytesWritten s t a (addResult fmt.toNat (numIn s a (addBytes fmt.toNat)) v.toNat) ∧ tagAt t a = false ∧ CachesOnly s t ∧
      back 6 0 false [] t)) ∧
  (∀ (len : BitVec 7) (e : Access), len ≠ 0 →
    (acuCheck s .tideway tenant.toNat (kinds false e) false (e == .update) a).1.ok = false →
    Answers (.read l src tenant addr rid len e) s (fun t => MemKept s t ∧ back 1 1 false [] t))

/-- The response to the oldest instruction of core `n` has come back. -/
def retires (s t : State) (n : Nat) (rid : BitVec 16) : Prop :=
  (coreOf t n).remote = none ∧ (coreOf t n).exc = (advance (coreOf s n)).exc ∧ (∀ m, m ≠ n → LinesLeft (coreOf s m) (coreOf t m)) ∧
  t.reqs = serase s.reqs rid.toNat ∧ MemKept s t

/-- Responses, and requests that no response answers. -/
def ResponsesComplete (s : State) (l : Link) (rid : BitVec 16) (r : Req) : Prop :=
  s.reqs.find? (fun e => e.1 == rid.toNat) = some (rid.toNat, r) →
  (inOrder s l →
    (∀ n m, r.origin = .core n m → (coreOf s n).remote = some rid →
      let c := coreOf s n
      (∀ i k a x size d f payload, r.msg.type = 1 → loadOf i = some (k, m, a, x, size, d, f) →
        Answers (.readRsp l rid 0 payload) s (fun t => retires s t n rid ∧
          ∀ y, gGet (coreOf t n) y = if y = d.toNat ∧ y ≠ 0 then f (ofBytes (payload.take size)) else gGet c y)) ∧
      (r.msg.type = 2 → memWrites m.kind = true → (∀ f w, m.kind ≠ .atomic f w) →
        Answers (.writeRsp l rid 0) s (fun t => retires s t n rid ∧ ∀ y, gGet (coreOf t n) y = gGet c y)) ∧
      (∀ v tag, r.msg.type = 3 → m.kind = .cld → m.rd < 32 →
        Answers (.cldRsp l rid 0 v tag) s (fun t => retires s t n rid ∧
          ∀ y, gGet (coreOf t n) y = if y = m.rd ∧ y ≠ 0 then ⟨tag && capHas (gGet c m.rs1) rLDC && capOk ⟨tag, v⟩, v⟩ else gGet c y)) ∧
      (r.msg.type = 4 → m.kind = .cst →
        Answers (.cstRsp l rid 0) s (fun t => retires s t n rid ∧ ∀ y, gGet (coreOf t n) y = gGet c y)) ∧
      (∀ f old, r.msg.type = 5 → m.kind = .atomic f true → m.rd < 32 →
        Answers (.atomicRsp l rid 0 old) s (fun t => retires s t n rid ∧
          ∀ y, gGet (coreOf t n) y = if y = m.rd ∧ y ≠ 0 then capOfInt old else gGet c y)) ∧
      (∀ f, r.msg.type = 6 → m.kind = .msadd f →
        Answers (.msaddRsp l rid 0) s (fun t => retires s t n rid ∧ ∀ y, gGet (coreOf t n) y = gGet c y))) ∧
    (∀ id block status payload, r.origin = .op id block → r.msg.type = 1 → status ≠ 3 →
      Answers (.readRsp l rid status payload) s (fun t => t.reqs = serase s.reqs rid.toNat ∧ MemKept s t ∧
        ∀ o, findOp s id = some o → ∃ o', findOp t id = some o' ∧ o'.fetched = o.fetched ++ [(block, status.toNat, payload)])) ∧
    (r.msg.type ≠ 1 → ∀ status payload, Answers (.readRsp l rid status payload) s (fun t => t = { s with ports := t.ports } ∧ flitTaken s t l))) ∧
  (∀ id block, r.origin = .op id block → 1000 * regFld s Reg.fabCfg 0 16 ≤ elapsed s r.issued →
    Answers (.requestTimeout rid) s (fun t => t.reqs = serase s.reqs rid.toNat ∧ (regGet t Reg.fabErr).getLsbD 1 = true ∧
      regGet t Reg.fabLost = regGet s Reg.fabLost + 1 ∧ MemKept s t ∧
      ∀ o, findOp s id = some o → ∃ o', findOp t id = some o' ∧ o'.fetched = o.fetched ++ [(block, 3, [])]))

/-- Messages that are not performed here, and those that come out of order. -/
def Forwards (s : State) (l : Link) (m : Msg) : Prop :=
  let p := l.port.toNat
  let x := portOf s p
  let past := decide (l.vc.toNat % 2 = 1)
  let request := 1 ≤ m.type.toNat ∧ m.type.toNat ≤ 6
  let response := 0x11 ≤ m.type.toNat ∧ m.type.toNat ≤ 0x16
  let way := routeMsg s m.dest.toNat m.src.toNat m.dirs m.type past
  (inOrder s l → m.dest.toNat ≠ deviceNo s →
    (∀ q vc dirs, request ∨ response → way = .port q vc dirs →
      Answers (.messageForward l m) s (fun t => t = { s with ports := t.ports } ∧ Queued s t q vc { m with dirs := dirs } ∧
        flitTaken s t l)) ∧
    (∀ mis, response → way = .lost mis →
      Answers (.messageForward l m) s (fun t => (∀ q c, sget (fun _ => []) (portOf t q).queue c =
        sget (fun _ => []) (portOf s q).queue c) ∧ (regGet t Reg.fabErr).getLsbD 0 = true ∧ MemKept s t ∧ flitTaken s t l)) ∧
    (∀ mis q vc dirs, request → m.src.toNat ≠ deviceNo s → way = .lost mis → wayBack s m.src m.type q vc dirs →
      Answers (.messageForward l m) s (fun t => MemKept s t ∧ flitTaken s t l ∧
        Queued s t q vc (responseTo s m.src m.tenant m.type m.addr m.rid dirs 3 false [])))) ∧
  (inOrder s l → ¬ request → ¬ response → (m.type.toNat < 0x20 ∨ 0x22 < m.type.toNat) →
    Answers (.messageForward l m) s (fun t => t = { s with ports := t.ports, regs := t.regs } ∧
      (regGet t Reg.fabErr).getLsbD 0 = true ∧ flitTaken s t l)) ∧
  (portCarries s p = true → l.seq.toNat ∉ x.parked →
    let ahead := (l.seq.toNat + 4095 - x.rxSeq) % 4096
    (ahead ≠ 0 → (x.nakSent = true ∨ 2048 ≤ ahead) →
      Answers (.messageForward l m) s (fun t => PortFrame s t p ∧ t.regs = s.regs ∧ t.out = s.out ∧ LinkTaken x (portOf t p) l)) ∧
    (ahead ≠ 0 → ahead < 2048 → x.nakSent = false →
      Answers (.messageForward l m) s (fun t => PortFrame s t p ∧ t.regs = s.regs ∧ t.out = s.out ++ [.flit p (flitOf x 4 0 0 [])] ∧
        (portOf t p).nakSent = true ∧ (portOf t p).rxSeq = x.rxSeq)))

end Sys2Proof.Terms

/-- A message for another device leaves by the port and channel of R401 and R402; one that has no way is answered lost, and a response
without one is dropped. READ, WRITE, CLD, CST, ATOMIC and MSADD of another device are performed here as a local access would be, a
capability without GLOB losing its tag, and answered with status, tag and bytes; a denied one is answered denied, and the write of an
embedding update whose hold has passed to another is not performed. A message out of its order is discarded, and a gap answered by one
NAK; one that must wait keeps its receive buffer. A response retires the headland instruction or gives the operation its block; a
request without one times out as lost. The second channel at the wrap link, when a credit is owed and goes back (log entry 18), who
sent a READ or a WRITE, and the holds of embedding updates (log entry 19), are the model's choices. -/
def Obligations.MessagesAreForwardedPerformedAndAnswered : Prop :=
  (∀ s l src tenant addr rid, HomeAnswers s l src tenant addr rid) ∧ (∀ s l rid r, ResponsesComplete s l rid r) ∧
  ∀ s l m, Forwards s l m

namespace Sys2Proof.Terms

/-- TB_STATUS: LOCK, ALIGNED, MASTER, HOLDOVER, HOPS, OFFSET (02 R49). -/
def tbLocked (t : State) : Bool := regBit t Reg.tbStatus 0
def tbHoldover (t : State) : Bool := regBit t Reg.tbStatus 3
def tbHops (t : State) : Nat := regFld t Reg.tbStatus 8 8
def tbOffset (t : State) : BitVec 16 := fld (regGet t Reg.tbStatus) 16 16

/-- A device that serves as master: it keeps its TBC, is aligned while locked, and has no hops (R44, R50). -/
def Serving (s t : State) : Prop :=
  isMaster t = true ∧ tbHoldover t = false ∧ tbHops t = 0 ∧ tbOffset t = 0 ∧ t.tbc = s.tbc ∧ (tbLocked s = true → alignedNow t = true) ∧
  flitHops t = 0
/-- It becomes the master: its own number is the master that it follows and tells. -/
def Serves (s t : State) : Prop :=
  Serving s t ∧ t.time.aligned1 = true ∧ t.time.candidate = some (BitVec.ofNat 10 (deviceNo s)) ∧ flitMaster t = deviceNo s

/-- `off` is this device's TBC less the master's as an exchange gives it: its low 32 bits are the operand, and it is within 2^31 ns of this
TBC less the TX_TBC that the flit carries (15 R392; the model's choice, log entry 24). -/
def offsetIs (s : State) (tx : W64) (offset : W32) (off : Int) : Prop :=
  -2 ^ 63 ≤ off ∧ off < 2 ^ 63 ∧ BitVec.ofInt 32 off = offset ∧ -2 ^ 31 < off - (s.tbc - tx).toInt ∧ off - (s.tbc - tx).toInt < 2 ^ 31

/-- Every active link sends a time flit, with the credits that its port returns, and one that retrains will when it is done (15 R392,
R393, R421). -/
def TimeTold (s t : State) : Prop :=
  t.out = s.out ++ ((List.range 12).filter (fun p => portLinked s p && !retraining s p)).map (fun p =>
    .flit p (flitOf (portOf s p) 2 0 0 (timeBody t p))) ∧
  ∀ p, portOf t p = if p < 12 ∧ portLinked s p = true then
      (if retraining s p then { portOf s p with timeDue := true } else creditsGone (portOf s p))
    else portOf s p

end Sys2Proof.Terms

/-- The time base. Time flits go out on every active link at multiples of 125,000 ns, and the chosen master begins its service there;
a time flit of a neighbour with a path sets HOPS and OFFSET, and ALIGNED exactly within 50 ns; the first alignment loads the master's
TBC and nothing else does; without a path ALIGNED lasts 20 ms; an election makes the winner master with its own TBC; TB_CONTROL is
fixed once the place is valid; without the reference LOCK and ALIGNED are clear. The signs and the width of the offset, when the
choice of a master has settled, OFFSET and ALIGNED after the load, and what an election finds of a former master are the model's
choices (log entry 24). -/
def Obligations.TimeBaseAlignsAndHoldsOver : Prop :=
  ∀ (s : State),
    (s.tbc.toNat % 125000 = 0 → alignEn s = true → fenced s = false →
      (isMaster s = false → choiceFalls s = false →
        Answers .timeFlitSend s (fun t => t = { s with out := t.out, ports := t.ports, time := { s.time with settle := t.time.settle } } ∧
          TimeTold s t ∧ t.time.settle = s.time.settle + (if placeValid s = true ∧ s.time.aligned1 = false then 1 else 0))) ∧
      ((isMaster s = true ∨ choiceFalls s = true) →
        Answers .timeFlitSend s (fun t => TimeTold s t ∧ (if isMaster s then Serving s t ∧ t.time = s.time else Serves s t) ∧
          t = { s with out := t.out, ports := t.ports, regs := t.regs, time := t.time } ∧ RegsKept (fun k => k == Reg.tbStatus) s t))) ∧
    (∀ (l : Link) (tx rx : W64) (master : BitVec 10) (hops : BitVec 5) (sent : Bool) (offset : W32) (off : Int),
      let p := l.port.toNat
      offsetIs s tx offset off → portLinked s p = true → retraining s p = false →
      ((alignEn s = false ∨ isMaster s = true) →
        Answers (.timeFlit l tx rx master hops sent offset) s (fun t => t.tbc = s.tbc ∧ t.regs = s.regs ∧ t.out = s.out ∧
          ∃ y, LinkTaken (portOf s p) y l ∧ portOf t p = if alignEn s then { y with rxTime := s.tbc } else y)) ∧
      (alignEn s = true → isMaster s = false →
        (hops ≠ 31 → s.time.aligned1 = true →
          Answers (.timeFlit l tx rx master hops sent offset) s (fun t =>
            t.tbc = s.tbc ∧ t.time.lastFlit = s.tbc ∧ pathHops t p = hops.toNat ∧ tbHoldover t = false ∧ MemKept s t ∧
            (portOf t p).rxTime = s.tbc ∧
            RegsKept (fun k => k == Reg.tbStatus || k == Reg.tbRate || k == Reg.tbErr) s t ∧ tbHops t ≤ hops.toNat + 1 ∧
            (tbOffset t).toInt = max (-32767) (min off 32767) ∧ -200000 ≤ (fld (regGet t Reg.tbRate) 0 32).toInt ∧
            (fld (regGet t Reg.tbRate) 0 32).toInt ≤ 200000 ∧
            (-50 ≤ off → off ≤ 50 → tbLocked s = true → alignedNow t = true ∧ regGet t Reg.tbErr = regGet s Reg.tbErr) ∧
            (off < -50 ∨ 50 < off → alignedNow t = false ∧ (regGet t Reg.tbErr).getLsbD 2 = true))) ∧
        (hops ≠ 31 → s.time.aligned1 = false → s.plan.bind (fun pl => pl.master) = some master.toNat →
          myNumber s ≠ some master.toNat → sent = true → tbLocked s = true →
          let moved := fun (v : W64) => if v = 0 then 0 else BitVec.ofNat 64 (max 1 ((v.toNat : Int) - off)).toNat
          Answers (.timeFlit l tx rx master hops sent offset) s (fun t =>
            t.tbc = s.tbc - BitVec.ofInt 64 off ∧ t.time.aligned1 = true ∧ alignedNow t = true ∧ tbOffset t = 0 ∧ MemKept s t ∧
            (∀ n, n < 16 → regGet t (Reg.trapTimer n) = moved (regGet s (Reg.trapTimer n))) ∧
            (∀ n, n < 16 → regGet t (Reg.trapWdog n) = moved (regGet s (Reg.trapWdog n))))) ∧
        (hops ≠ 31 → s.time.aligned1 = false → sent = false →
          Answers (.timeFlit l tx rx master hops sent offset) s (fun t => t.tbc = s.tbc ∧ t.time.aligned1 = false ∧
            alignedNow t = alignedNow s)) ∧
        (hops = 31 → s.time.aligned1 = true → tbHoldover s = false → (∀ q, q < 12 → q ≠ p → hasPath s q = false) →
          Answers (.timeFlit l tx rx master hops sent offset) s (fun t => tbHoldover t = true ∧ t.tbc = s.tbc ∧
            alignedNow t = alignedNow s ∧ (regGet t Reg.tbErr).getLsbD 1 = true ∧ t.time.lastFlit = s.time.lastFlit)))) ∧
    (tbHoldover s = true → 20000000 ≤ elapsed s s.time.lastFlit →
      Answers .holdoverExpiry s (fun t => OnlyRegs (fun k => k == Reg.tbStatus) s t ∧ alignedNow t = false ∧ tbHoldover t = true)) ∧
    (∀ w : BitVec 10, placeValid s = true → s.time.aligned1 = true → fenced s = false →
      (w.toNat = deviceNo s → alignedNow s = true → Answers (.masterElection w) s (fun t => Serves s t ∧ MemKept s t)) ∧
      (w.toNat ≠ deviceNo s → (alignedNow s = false ∨ w.toNat < deviceNo s) →
        Answers (.masterElection w) s (fun t => isMaster t = false ∧ t.tbc = s.tbc ∧ t.time.candidate = some w ∧
          RegsKept (fun k => k == Reg.tbStatus) s t))) ∧
    (∀ (a : Agent) (v : W32), pfAgent s a = true →
      (placeValid s = true → Answers (.tbControlWrite a v) s (fun t => OnlyRegs (fun k => k == Reg.tbErr) s t ∧
        regGet t Reg.tbControl = regGet s Reg.tbControl ∧ (regGet t Reg.tbErr).getLsbD 3 = true)) ∧
      (placeValid s = false → Answers (.tbControlWrite a v) s (fun t => OnlyRegs (fun k => k == Reg.tbControl) s t ∧
        regFld t Reg.tbControl 0 2 = v.toNat % 4))) ∧
    (s.time.refclk = true → Answers .refclkLoss s (fun t => t.time.refclk = false ∧ tbLocked t = false ∧ alignedNow t = false ∧
      (regGet t Reg.tbErr).getLsbD 0 = true ∧ t.tbc = s.tbc ∧ RegsKept (fun k => k == Reg.tbStatus || k == Reg.tbErr) s t)) ∧
    (s.time.refclk = false → Answers .refclkReturn s (fun t => t.time.refclk = true ∧ tbLocked t = true ∧
      alignedNow t = alignedNow s ∧ RegsKept (fun k => k == Reg.tbStatus) s t))

namespace Sys2Proof.Terms

/-- Outside its power block and its registers a device stands as before. -/
def PowerFrame (s t : State) : Prop := t = { s with power := t.power, regs := t.regs }

/-- The code that VCORE moves to (17 R446): 20 until RUN, else 10 codes a level above code 0 for the lowest of request, policy and
cap, held down by the governor. -/
def wantsCode (s : State) (request : Nat) : Nat :=
  if inReset s = true ∨ regBit s Reg.pwrPolicy 8 = false then 20
  else min (10 * (min (min request (if regBit s Reg.pwrPolicy 0 then 8 else 4)) (regFld s Reg.pwrStatus 0 4) - 1)) s.power.govCode

/-- The waiting of R450 stands as the operations say. -/
def waitSettled (s : State) : Prop :=
  if powerWaiting s then s.power.waitSince ≠ none else s.power.waitSince = none ∧ s.power.holdOver = false

/-- CAP and TJ_STATE. -/
def thermal (t : State) : Nat × Nat := (regFld t Reg.pwrStatus 0 4, regFld t Reg.pwrStatus 8 2)

/-- Where a junction reading of `x` °C takes CAP and TJ_STATE (R453), from level `level`. -/
def thermalNext (s : State) (level x : Nat) : Nat × Nat :=
  let th := regFld s Reg.tjTherm 0 8
  let cr := regFld s Reg.tjTherm 8 8
  let hy := regFld s Reg.tjTherm 16 4
  let (cap, state) := thermal s
  if state = 0 then (if cr ≤ x then (1, 2) else if th ≤ x then (max (level - 1) 1, 1) else (cap, 0))
  else if state = 1 then
    (if cr ≤ x then (1, 2) else if th ≤ x then (max (cap - 1) 1, 1)
      else if x + hy < th then (min (cap + 1) 8, if 7 ≤ cap then 0 else 1) else (cap, 1))
  else if x + hy < cr then (1, 1) else (cap, state)

/-- An event counter of a class one up. -/
def ErrCounted (s t : State) (cls : Nat) : Prop :=
  (regGet t (Reg.errClass (cls - 1))).toNat = min ((regGet s (Reg.errClass (cls - 1))).toNat + 1) 0xFFFFFFFF

/-- Levels, the governor and the fill. -/
def PowerGoverns (s : State) : Prop :=
  (s.boot.powered = true → Answers .opPointUpdate s (fun t => OnlyRegs (fun k => k == Reg.opPoint) s t ∧
    (s.power.vcore < 256 → regFld t Reg.opPoint 0 4 = (if s.power.levelSet then min (s.power.vcore / 10 + 1) 8 else 0) ∧
      regFld t Reg.opPoint 4 8 = s.power.vcore ∧ regFld t Reg.opPoint 12 8 = regFld s Reg.opPoint 12 8 ∧
      regFld t Reg.opPoint 20 11 = s.power.rate % 2048))) ∧
  (s.boot.powered = true → fenced s = false → suStep s ≠ 15 → (∀ x, s.power.vcoreAt = some x → 1000 ≤ elapsed s x) →
    let c := s.power.vcore
    let w := wantsCode s (regFld s Reg.pwrPolicy 4 4)
    let c' := if c < w then c + 1 else c - 1
    Answers .vcoreSlewStep s (fun t =>
      if c = w then t = s
      else if s.boot.settling = true ∧ c' = 20 ∧ pinsHold s = false ∧ s.power.failed = [] then
        inReset t = false ∧ t.boot.settling = false ∧ t.power.vcore = 20 ∧ t.mem = [] ∧ t.ops = [] ∧ t.flash = s.flash ∧
        (s.boot.kind < 4 → (regGet t Reg.suStatus).toNat = 0x40 + s.boot.kind * 0x1000)
      else PowerFrame s t ∧ RegsKept (fun k => k == Reg.opPoint) s t ∧ t.power.vcore = c' ∧
        t.power.vcoreAt = some s.tbc ∧ (c < 255 → regFld t Reg.opPoint 4 8 = t.power.vcore))) ∧
  (∀ (a : Agent) (v : W32), platformAgent s a = true → v &&& 0xFFFFFE0E = 0 → 1 ≤ v.toNat / 16 % 16 → v.toNat / 16 % 16 ≤ 8 →
    Answers (.pwrPolicyWrite a v) s (fun t => PowerFrame s t ∧ regGet t Reg.pwrPolicy &&& 0x1F1#64 = v.setWidth 64 ∧
      RegsKept (fun k => k == Reg.pwrPolicy || k == Reg.suStatus) s t ∧
      t.power = { s.power with levelSet := s.power.levelSet || v.getLsbD 8 })) ∧
  (∀ (a : Agent) (v : W32), platformAgent s a = true →
    let th := v.toNat % 256
    let cr := v.toNat / 256 % 256
    let hy := v.toNat / 65536
    80 ≤ th → th ≤ 104 → 90 ≤ cr → cr ≤ 110 → 1 ≤ hy → hy ≤ 15 →
    Answers (.tjThermWrite a v) s (fun t => if th + hy < cr then OnlyRegs (fun k => k == Reg.tjTherm) s t ∧
      regGet t Reg.tjTherm &&& 0xFFFFF#64 = v.setWidth 64 else t = s)) ∧
  (∀ (power demand : BitVec 32), inReset s = false → s.tbc.toNat % 10000 = 0 → s.power.govAt ≠ some s.tbc → waitSettled s →
    regFld s Reg.pwrStatus 8 2 ≠ 2 →
    let p := power.toNat * 100000
    let d := demand.toNat * 100000
    let g := s.power.g.getD p
    let hi := min (g + (regGet s Reg.rampUp).toNat) (regFld s Reg.pwrLimit 0 10 * 100000000)
    let floor := if powerWaiting s = true ∧ s.power.holdOver = false then regFld s Reg.fill 0 7 * s.power.busy * 1000 else 0
    let lo := min (max (g - (regGet s Reg.rampDown).toNat) floor) hi
    Answers (.governorStep power demand) s (fun t =>
      t = { s with power := t.power, regs := t.regs, ops := t.ops, heldOps := t.heldOps, changeSet := t.changeSet } ∧
      OpsAre t s.ops ∧ DrainNoted s t ∧
      RegsKept (fun k => k == Reg.pwrStatus || k == Reg.pwrNow || k == Reg.pwrErr || k == Reg.rampViolCount) s t ∧
      t.power.g = some (max lo (min hi p)) ∧ thermal t = thermal s ∧
      ((regGet t Reg.pwrStatus).getLsbD 4 = decide (hi ≤ p)) ∧ ((regGet t Reg.pwrStatus).getLsbD 6 = decide (d < lo)) ∧
      (d ≤ hi → t.power.govCode = 70 ∧ (regGet t Reg.pwrStatus).getLsbD 5 = false) ∧
      (hi < d → let c := t.power.govCode
        let x := targetCode s
        (0 < c → c ≤ x ∧ demand.toNat * 100000 * codePower c ≤ hi * codePower x) ∧ (hi < p → c ≤ s.power.vcore - 1) ∧
        (∀ y, c < y → y ≤ x → (hi < p → y < s.power.vcore) → hi * codePower x < demand.toNat * 100000 * codePower y) ∧
        ((regGet t Reg.pwrStatus).getLsbD 5 = true ↔ hi < p ∧ (s.power.vcore = 0 ∨ regBit s Reg.pwrPolicy 8 = false))) ∧
      (regGet t Reg.rampViolCount).toNat =
        if p < lo ∨ hi < p then min ((regGet s Reg.rampViolCount).toNat + 1) 0xFFFFFFFF else (regGet s Reg.rampViolCount).toNat)) ∧
  (∀ t0, s.power.waitSince = some t0 → regFld s Reg.fill 8 16 * 1000000 ≤ elapsed s t0 →
    Answers .fillHoldExpiry s (fun t => t = { s with power := { s.power with holdOver := true } }))

/-- Junction temperature, dips, failed rails, canaries and wear. -/
def PowerProtects (s : State) : Prop :=
  (∀ (hottest : Option Byte) (failed : Bool), s.boot.powered = true → s.tbc.toNat % 1000000 = 0 → s.power.tjAt ≠ some s.tbc →
    let bad := failed = true ∨ hottest = none
    let x := max (hottest.elim 0 (fun x => x.toNat)) (if bad then regFld s Reg.tjTherm 0 8 else 0)
    Answers (.junctionReading hottest failed) s (fun t =>
      t = { s with power := t.power, regs := t.regs, ops := t.ops, heldOps := t.heldOps, changeSet := t.changeSet } ∧
      OpsAre t s.ops ∧ DrainNoted s t ∧
      t.power = { s.power with tjAt := some s.tbc, waitSince := t.power.waitSince, holdOver := t.power.holdOver, busy := t.power.busy } ∧
      thermal t = thermalNext s (levelOf s.power.vcore) x ∧ regFld t Reg.opPoint 12 8 = x ∧
      (bad → (regGet t Reg.pwrErr).getLsbD 6 = true) ∧
      ((thermal s).2 ≠ 2 → (thermal t).2 = 2 → ErrCounted s t 4 ∧ (regGet t Reg.pwrErr).getLsbD 2 = true ∧
        (regGet t Reg.pwrStatus).getLsbD 5 = true ∧ (regGet t Reg.pwrStatus).getLsbD 6 = false))) ∧
  (s.boot.powered = true → s.boot.thermtripN = false →
    Answers .junctionTrip s (fun t => t.boot = { s.boot with thermtripN := true, settling := false } ∧
      (pinsHold s = true → t.power = s.power ∧ t.regs = s.regs) ∧
      (pinsHold s = false → fenced t = true ∧ t.power.failed = []))) ∧
  (∀ (rail : BitVec 2) (mv : BitVec 11),
    let r := rail.toNat
    (s.boot.powered = true → dipOf s r = none → r ∉ s.power.failed → belowWarning s r mv.toNat = true →
      Answers (.dipBegin rail mv) s (fun t => t = { s with power := { s.power with dips := t.power.dips } } ∧
        dipOf t r = some ⟨s.tbc, mv.toNat, false⟩ ∧ (∀ x, x ≠ r → dipOf t x = dipOf s x) ∧
        (regGet s Reg.pwrStatus < 0x400 → ∀ w, readHighBlocks t Reg.pwrStatus = some w → natBit w (10 + r) = true))) ∧
    (∀ d, dipOf s r = some d → r = 1 ∨ r = 2 → d.stopped = false → inReset s = false → 20000 ≤ elapsed s d.start →
      Answers (.rideThroughExpiry rail) s (fun t => dipOf t r = some { d with stopped := true } ∧
        (s.hbm.trained = true → ∀ n, n < 8 → stackOffline s n = false → sget markDflt t.hbm.held n = true) ∧
        (∀ p, p < 12 → r = 1 → portUp s p = true → fenced s = false → retraining t p = true) ∧ MemKept s t)) ∧
    (∀ d, dipOf s r = some d →
      Answers (.dipEnd rail mv) s (fun t => dipOf t r = none ∧ MemKept s t ∧ ErrCounted s t 1 ∧
        (regGet t Reg.dipCount).toNat = ((regGet s Reg.dipCount).toNat + 1) % 2 ^ 32 ∧
        (regGet t Reg.pwrErr).getLsbD ([3, 4, 5, 7].getD r 7) = true ∧
        (let i := 2 * ((regGet s Reg.dipCount).toNat % 16)
         regGet t (Reg.dipLog i) = d.start ∧
         (fld (regGet t (Reg.dipLog (i + 1))) 0 32).toNat = min (elapsed s d.start) (2 ^ 32 - 1) ∧ (fld (regGet t (Reg.dipLog (i + 1))) 32 11).toNat = mv.toNat ∧
         (fld (regGet t (Reg.dipLog (i + 1))) 43 2).toNat = r ∧ (regGet t (Reg.dipLog (i + 1))).getLsbD 45 = d.stopped) ∧
        (d.stopped = true → r = 1 → inReset s = false → t.power.pcieBy = some (s.tbc + 10000000)))) ∧
    (∀ reading : Option (BitVec 11), s.boot.powered = true → (∀ x, reading = some x → belowFail r x.toNat = true) →
      r ∉ s.power.failed → inReset s = false → (s.class5.filter (fun x => decide (elapsed s x ≤ hourTbc))).length < 2 →
      Answers (.railFail rail reading) s (fun t => t.power.failed = s.power.failed ++ [r] ∧ inReset t = true ∧
        t.boot.kind = (if r = 0 ∨ r = 2 then 2 else 1) ∧ t.mem = [] ∧ t.ops = [] ∧ dipOf t r = none ∧ t.hostMem = s.hostMem ∧
        t.flash = s.flash ∧ (fenced s = false → ∀ p, p < 12 → portUp s p = true →
          Out.flit p (flitOf (portOf s p) 6 0 0 []) ∈ t.out) ∧
        (r = 3 → reading ≠ none → t.boot.powered = false ∧ t.boot.fatalN = false ∧ t.boot.thermtripN = false ∧ t.power.vcore = 20)))) ∧
  (s.power.failed ≠ [] →
    let powered := s.boot.powered = true ∨ 3 ∈ s.power.failed
    let free := s.boot.perst = false ∧ s.boot.tmcHold = false ∧ s.boot.held = false ∧ s.boot.pwrgd = true ∧ powered
    (free → s.power.vcore = 20 →
      Answers .supplyResetRelease s (fun t => t.power.failed = [] ∧ inReset t = false ∧ t.mem = [] ∧ t.ops = [] ∧
        t.flash = s.flash ∧ t.hostMem = s.hostMem ∧ (s.boot.kind ≠ 1 → t.tbc = s.tbc) ∧
        (s.boot.kind < 4 → (regGet t Reg.suStatus).toNat = 0x40 + s.boot.kind * 0x1000))) ∧
    (free → s.power.vcore ≠ 20 → Answers .supplyResetRelease s (fun t =>
      t = { s with power := { s.power with failed := [] }, boot := { s.boot with powered := true, settling := true } })) ∧
    (¬ free → Answers .supplyResetRelease s (fun t => t.boot.settling = s.boot.settling ∧ (t.boot.powered = true ↔ powered) ∧
      t = { s with power := { s.power with failed := [] }, boot := { s.boot with powered := t.boot.powered } }))) ∧
  (∀ rates : List Nat, inReset s = false → (∀ x, s.power.canaryAt = some x → 1000000 ≤ elapsed s x) →
    let m := median2 ((countedCanaries s rates).map (fun e => e.2))
    Answers (.canarySample rates) s (fun t => MemKept s t ∧ t.power.canaryAt = some s.tbc ∧
      (∀ i, i ∈ t.power.excluded ↔ i ∈ s.power.excluded ∨ (i < 16 ∧ (20 * m + m < 40 * rates.getD i 0 ∨ 40 * rates.getD i 0 + m < 20 * m))) ∧
      (4 < t.power.excluded.length → regGet t Reg.wearRate = regGet s Reg.wearRate ∧ regGet t Reg.wearVneed = regGet s Reg.wearVneed ∧
        (s.power.excluded.length ≤ 4 → ErrCounted s t 4)) ∧
      (t.power.excluded.length ≤ 4 → (regGet t Reg.wearRate).toNat = min (median2 ((countedCanaries t rates).map (fun e => e.2)) * 1000 *
        10000 / (2 * Config.canaryCurve s.power.vcore * (10900 - 15 * regFld s Reg.opPoint 12 8))) 2047))) ∧
  (∀ meanW : BitVec 11, inReset s = false → s.power.sampledAt + 24 * hourTbc ≤ onTimeNow s →
    let a := 0x4300000 + 128 * (s.power.samples % 1024)
    Answers (.wearSample meanW) s (fun t => MemKept s t ∧ t.power.samples = s.power.samples + 1 ∧
      t.power.sampledAt = s.power.sampledAt + 24 * hourTbc ∧ t.power.corrSince = [] ∧
      regGet t Reg.wearAt = s.tbc ∧ numAt (flashBytes t a 128) 0 8 = s.tbc.toNat ∧
      numAt (flashBytes t a 128) 16 4 = onTimeNow s / hourTbc % 2 ^ 32 ∧ numAt (flashBytes t a 128) 20 2 = meanW.toNat ∧
      (∀ n, n < 8 → numAt (flashBytes t a 128) (32 + 4 * n) 4 = min (sget (fun _ => 0) s.power.corrSince n) 0xFFFFFFFF) ∧
      numAt (flashBytes t a 128) 124 4 = (crc32 (flashBytes t a 124)).toNat ∧
      ∀ x, (x < a ∨ a + 128 ≤ x) → flashBytes t x 1 = flashBytes s x 1))

end Sys2Proof.Terms

/-- Power. VCORE steps one code a microsecond toward the lowest of request, policy and cap, held by the governor, which keeps the ramp
limits and counts what breaks them; a step that brings it to code 20 releases a reset that waits for that alone; a junction reading
moves CAP and the thermal state as the table of R453 says, and the trip fences; a dip is marked, stops what it must after 20 µs, and
is logged and recorded when it ends; a failed rail resets the device until it is good again; canaries that stray are excluded, and the
wear record takes a sample a day. How far the governor lowers VCORE, when the waiting of R450 begins and ends, the median of an even
number, and the failed monitor as a failed rail are the model's choices (log entry 26). -/
def Obligations.PowerIsGovernedAndProtected : Prop := ∀ s : State, PowerGoverns s ∧ PowerProtects s

namespace Sys2Proof.Terms

/-- A tray writes a record (18 R495): its SEQ, KIND and ALARM, the RTC at its start and its CRC at its end. The log holds it unless the
log cannot be written (R499), and so does the rack manager's copy, unless the tray is silent. -/
def Logs (s t : State) (tray kind alarm : Nat) : Prop :=
  (trayOf t tray).logSeq = ((trayOf s tray).logSeq + 1) % 2 ^ 32 ∧
  ∃ r, numAt r 8 4 = (trayOf t tray).logSeq ∧ numAt r 12 1 = kind ∧ numAt r 13 1 = alarm ∧
    r.length = 32 ∧ numAt r 28 4 = (crc32 (r.take 28)).toNat ∧ (trayOf t tray).rtc = some (BitVec.ofNat 64 (numAt r 0 8)) ∧
    (if logWrites (trayOf s tray) = true then (trayOf t tray).log.getLast? = some r else (trayOf t tray).log = (trayOf s tray).log) ∧
    ((trayOf s tray).silent = false → (trayOf t tray).copy.getLast? = some r)

/-- Only the tray, and the count of free values, differ. -/
def OnlyTray (s t : State) (tray : Nat) : Prop :=
  t = { s with system := t.system, freeCtr := t.freeCtr } ∧ rackOf t = rackOf s ∧ ∀ u, u ≠ tray → trayOf t u = trayOf s u

/-- Alarm `b` of R468 by a sample of tray `n`: whether the sample raises it, and the ms of good readings that clear it, if readings do;
none when no sample moves it. The flow, input and trip alarms are judged on main power alone. -/
def alarmRule (s : State) (n : Nat) (m : TraySample) (b : Nat) : Option (Bool × Option Nat) :=
  let cell := (trayOf s n).onCell
  if b = 0 then some (m.leak != 0, none)
  else if b = 1 then some (decide (55000 ≤ m.outletMC), some 600000)
  else if b = 2 then some (m.plateMC.any (fun x => decide (70000 ≤ x)), some 600000)
  else if b = 3 then some (decide (75000 ≤ m.boardMC), some 600000)
  else if b = 4 then (if cell then none else some (decide (m.flowCl.toNat < 400), some 600000))
  else if b = 5 then (if cell then none else some (m.inputOut, some 10000))
  else if 7 ≤ b ∧ b ≤ 10 then (if cell then none else some (bitAt m.devTrip (b - 7) ||
    (homePowered s n && b - 7 == s.system.homePos && s.boot.thermtripN), none))
  else if b = 11 then some (decide (m.cellPct.toNat < 20), if 30 ≤ m.cellPct.toNat then some 0 else none)
  else if b = 13 then some (!m.logOk, none)
  else none

/-- The alarm after the sample. -/
def alarmAfter (s : State) (n : Nat) (m : TraySample) (b : Nat) : Bool :=
  let x := trayOf s n
  match alarmRule s n m b with
  | none => bitAt x.alarms b
  | some (bad, limit) => bad || (bitAt x.alarms b &&
      limit.all (fun l => decide (sget (fun _ => 0) x.timers b + (if x.onCell then 1000 else 100) < l)))

/-- A tray not yet held fenced remains besides this one, so its fence opens no other slot (R476). -/
def notLast (s : State) (tray : Nat) : Prop := (rackOf s).fenced ||| BitVec.ofNat 32 (2 ^ tray) ≠ BitVec.allOnes 32

/-- The rack manager holds the tray fenced. -/
def rackHolds (t : State) (tray : Nat) : Prop := tray < 32 → bitAt (rackOf t).fenced tray = true

/-- Samples, alarms and fencing. -/
def TrayWatches (s : State) (tray : BitVec 5) : Prop :=
  let n := tray.toNat
  let x := trayOf s n
  (∀ m : TraySample,
    (tmcRuns s n = false → Answers (.tmcSample tray m) s (fun t => t = s)) ∧
    (tmcRuns s n = true → Answers (.tmcSample tray m) s (fun t =>
      (trayOf t n).last = some m ∧ (∀ b, b < 14 → bitAt (trayOf t n).alarms b = alarmAfter s n m b) ∧
      (x.devOn = 0 → OnlyTray s t n ∧ (trayOf t n).devOn = 0 ∧ (trayOf t n).state = x.state) ∧
      (x.fencing = true → (trayOf t n).fencing = true ∧ (trayOf t n).devOn = x.devOn) ∧
      (x.devOn ≠ 0 → x.fencing = false →
        let urgent := (List.range 14).any (fun b => alarmAfter s n m b && [0, 6, 7, 8, 9, 10, 13].contains b) ||
          (!x.onCell && (m.inputFar || m.devFatal != 0)) || (homePowered s n && s.boot.fatalN)
        if alarmAfter s n m 0 then (trayOf t n).state = 4 ∧ (trayOf t n).devOn = 0 ∧ rackHolds t n
        else if urgent then (trayOf t n).fencing = true ∧ (trayOf t n).devOn = x.devOn ∧ rackHolds t n
        else (trayOf t n).devOn = x.devOn ∧ (trayOf t n).fencing = false ∧
          (trayOf t n).limited = (List.range 14).any (fun b => alarmAfter s n m b && decide (1 ≤ b ∧ b ≤ 4)))))) ∧
  (x.fencing = true →
    Answers (.regulatorDisable tray) s (fun t => (trayOf t n).state = 4 ∧ (trayOf t n).devOn = 0 ∧ (trayOf t n).fencing = false ∧
      rackHolds t n ∧ (homePowered s n = true → t.boot.powered = false) ∧
      (notLast s n → (x.up = true → Logs s t n 7 0xFF) ∧ ∀ u, u ≠ n → trayOf t u = trayOf s u) ∧
      (¬ notLast s n → (∀ u, u < 32 → u ≠ n → (trayOf s u).fencing = false) → (rackOf t).state = 2))) ∧
  (∀ faults : BitVec 16, tmcRuns s n = true → x.onCell = false → x.devOn = 0 →
    Answers (.regulatorPoll tray faults) s (fun t => OnlyTray s t n ∧ (trayOf t n).faults = faults ∧
      (∀ b, b < 14 → bitAt (trayOf t n).alarms b = (bitAt x.alarms b || (b == 6 && faults != 0))) ∧
      (faults ≠ 0 → bitAt x.alarms 6 = false → Logs s t n 1 6))) ∧
  (x.state ≠ 0 → x.silent = false →
    Answers (.heartbeatLoss tray) s (fun t => (trayOf t n).silent = true ∧ (trayOf t n).state = 4 ∧ (trayOf t n).slotOn = false ∧
      (trayOf t n).onCell = true ∧ (x.onCell = false ∨ x.devOn = 0 → (trayOf t n).devOn = 0) ∧ rackHolds t n)) ∧
  (x.state ≠ 0 → x.up = true →
    Answers (.tmcHeartbeat tray) s (fun t => OnlyTray s t n ∧ trayOf t n = syncCopy { x with silent := false })) ∧
  (x.state ≠ 0 → x.up = false → Answers (.tmcHeartbeat tray) s (fun t => t = s)) ∧
  (x.state = 0 → Answers (.tmcHeartbeat tray) s (fun t => OnlyTray s t n ∧ (trayOf t n).up = true ∧
    if n = s.system.homeTray ∧ s.boot.powered = true then
      (trayOf t n).state = 3 ∧ (trayOf t n).slotOn = true ∧ (trayOf t n).onCell = false ∧ homePowered t n = decide (s.system.homePos < 4)
    else (trayOf t n).state = 1 ∧ (trayOf t n).onCell = true))

/-- Main power, the cell, and power-up. -/
def TrayPowers (s : State) (tray : BitVec 5) : Prop :=
  let n := tray.toNat
  let x := trayOf s n
  (x.state ≠ 0 → x.onCell = false →
    (x.devOn = 0 → Answers (.mainPowerLost tray) s (fun t => OnlyTray s t n ∧ (trayOf t n).onCell = true ∧
      (trayOf t n).state = (if x.state = 4 then 4 else 1) ∧ (trayOf t n).alarms = x.alarms ∧ (x.up = true → Logs s t n 3 0xFF))) ∧
    (x.devOn ≠ 0 → Answers (.mainPowerLost tray) s (fun t => (trayOf t n).onCell = true ∧
      (trayOf t n).state = 4 ∧ (trayOf t n).devOn = 0 ∧ (trayOf t n).fencing = false ∧ rackHolds t n ∧
      (x.up = true → (trayOf t n).logSeq = (x.logSeq + 2) % 2 ^ 32) ∧ (homePowered s n = true → t.boot.powered = false)))) ∧
  (∀ mv : BitVec 16, tmcRuns s n = true → x.onCell = true → mv.toNat ≤ 10000 →
    Answers (.cellCutoff tray mv) s (fun t => OnlyTray s t n ∧ (trayOf t n).up = false ∧ (trayOf t n).alarms = x.alarms ∧
      (trayOf t n).timers = [] ∧ Logs s t n 5 0xFF)) ∧
  (∀ m : TraySample, x.state ≠ 0 → x.slotOn = true → x.onCell = true → 46000 ≤ m.inputMv.toNat → x.devOn = 0 →
    Answers (.mainPowerRestored tray m) s (fun t => OnlyTray s t n ∧ (trayOf t n).onCell = false ∧ (trayOf t n).up = true ∧
      (trayOf t n).acked = false ∧ (trayOf t n).state = (if x.state = 4 then 4 else 2) ∧ (trayOf t n).last = some m ∧
      (x.up = false → bitAt (trayOf t n).alarms 12 = true))) ∧
  (∀ m : TraySample, x.slotOn = false → Answers (.mainPowerRestored tray m) s (fun t => t = s)) ∧
  (tmcRuns s n = true →
    Answers (.alarmAck tray) s (fun t => OnlyTray s t n ∧ trayOf t n = syncCopy { x with acked := true }) ∧
    Answers (.tmcRestart tray) s (fun t => OnlyTray s t n ∧ Logs s t n 6 0xFF ∧
      trayOf t n = { x with
        timers := [], rtc := (trayOf t n).rtc, logSeq := (trayOf t n).logSeq, log := (trayOf t n).log, copy := (trayOf t n).copy })) ∧
  (tmcRuns s n = true → x.silent = false → x.onCell = false → x.acked = true → x.fencing = false → x.devOn = 0 →
    x.alarms &&& 0x27FF = 0 → (∀ u, u < n → (trayOf s u).devOn ≠ 0) →
    (((rackOf s).state ≠ 3 ∨ ∃ a, (rackOf s).poweredAt = some a ∧ (rackOf s).ticks < a + powerWait (rackOf s)) →
      Answers (.trayPowerUp tray) s (fun t => t = s)) ∧
    ((rackOf s).state = 3 → (∀ a, (rackOf s).poweredAt = some a → a + powerWait (rackOf s) ≤ (rackOf s).ticks) →
      Answers (.trayPowerUp tray) s (fun t => (trayOf t n).devOn = 0xF ∧ (trayOf t n).state = (if x.state = 4 then 4 else 3) ∧
        (trayOf t n).alarms = x.alarms ∧ (trayOf t n).setPoints = [850, 1100, 1800] ∧ (rackOf t).poweredAt = some (rackOf s).ticks ∧
        (∀ u, u ≠ n → trayOf t u = trayOf s u) ∧ (n = s.system.homeTray → t.boot.powered = true))))

end Sys2Proof.Terms

/-- The tray's controller. A sample raises and clears each alarm by its rule; an alarm that fences takes the tray's devices off, at
once for a leak and within 1 ms otherwise, and one that limits sets the limit; a silent tray is fenced through its slot switch; loss
of main power fences a powered tray and moves the controller to its cell, which at 10 V writes its last record and stops; power
returns in the order of R472 where the slot is closed, and a tray is powered in turn, after the wait of R483, acknowledged and free of
blocking alarms. When a tray first heard of counts as present and powered (log entry 5), and the order, the time stamps and the values
of what a tray logs (log entry 27), are the model's choices. -/
def Obligations.TraysWatchFenceAndPower : Prop := ∀ (s : State) (tray : BitVec 5), TrayWatches s tray ∧ TrayPowers s tray

namespace Sys2Proof.Terms

/-- Only the rack manager, and the count of free values, differ. -/
def OnlyRack (s t : State) : Prop :=
  t = { s with system := { s.system with rack := t.system.rack }, freeCtr := t.freeCtr }

/-- RM_CMD_STATUS: CMD, BUSY, RESULT, DETAIL (18 R494). -/
def cmdIs (t : State) (cmd : Nat) (busy : Bool) (result detail : Nat) : Prop :=
  (rackOf t).cmdStatus = BitVec.ofNat 32 (cmd + (if busy then 16 else 0) + result * 32 + detail * 256)

/-- Every slot switch is open (R486). -/
def allOff (t : State) : Prop := ∀ n, n < 32 → (trayOf t n).state ≠ 0 → (trayOf t n).onCell = true ∧ (trayOf t n).devOn = 0

/-- No tray on its cell has a device powered. -/
def cellsOff (s : State) : Prop := ∀ n, n < 32 → (trayOf s n).onCell = true → (trayOf s n).devOn = 0

/-- Power, coolant and service. -/
def RackServes (s : State) : Prop :=
  let r := rackOf s
  (∀ (w : BitVec 17) (inlet flow : BitVec 20), inlet.toNat ≤ 40000 → (r.state = 3 → r.laneDone = none) →
    let kt := if inlet.toNat ≤ 35000 then 1000000 else 1000000 - 60 * (inlet.toNat - 35000)
    Answers (.rackMeasure w inlet flow) s (fun t => let r' := rackOf t
      r'.ticks = r.ticks + 1 ∧ r'.outlet < 256 ∧ r'.watts = w.toNat ∧ r'.inlet = inlet.toNat ∧ r'.flow = flow.toNat ∧ r'.state = r.state ∧
      r'.rackLimit = min (r.facility.toNat / 65536 % 256 * 1000) (115000 * kt * min 15000 flow.toNat / 15000000000) ∧
      (r'.coolant = decide (40000 < inlet.toNat ∨ flow.toNat < 7500 ∨ inlet.toNat < 17000)) ∧
      (r'.rackLimit < w.toNat → 9 ≤ r.overRun → r'.isOver = true) ∧ (r.isOver = true → r'.written ≤ max r.written (r.written * 102 / 100)) ∧
      (let c := poweredCounts s
       r'.deviceLimit = if c.1 = 0 then r.deviceLimit
         else max 130 (min 780 ((r'.rackLimit - 300 - 40 * c.2) * 94 / (100 * c.1)))) ∧
      (let want := if flow.toNat < 7500 then 130000 else 1000 * r'.deviceLimit
       r.isOver = false → w.toNat ≤ r'.rackLimit →
         r'.written = if want < r.written then max want (r.written - shareRamp s / 100) else want) ∧
      t.system.trays = s.system.trays)) ∧
  (Answers .rackOverStep s (fun t => t.system.trays = s.system.trays ∧ if r.isOver = true ∧ r.rackLimit < r.watts then
    (rackOf t).written = max 130000 (r.written * 98 / 100) else t = s)) ∧
  (rackBusy s = false →
    (r.state = 0 → Answers .serviceEnter s (fun t => OnlyRack s t ∧ (rackOf t).state = 1 ∧ (rackOf t).drainFrom = r.ticks ∧
      cmdIs t 1 true 0 0)) ∧
    (r.state ≠ 0 → Answers .serviceEnter s (fun t => OnlyRack s t ∧ (rackOf t).state = r.state ∧ cmdIs t 1 false 1 0)) ∧
    (r.state = 2 → r.plan ≠ none → (∀ n, n < 32 → (trayOf s n).state ≠ 0 ∧ (trayOf s n).alarms &&& 0x27FF = 0) →
      Answers .serviceExit s (fun t => t = { s with system := t.system } ∧ (rackOf t).state = 3 ∧ (rackOf t).poweredAt = none ∧
        cmdIs t 2 true 0 0 ∧ ∀ n, n < 32 → trayOf t n = { trayOf s n with slotOn := true })) ∧
    (r.state ≠ 2 ∨ r.plan = none ∨ (∃ n, n < 32 ∧ ((trayOf s n).state = 0 ∨ (trayOf s n).alarms &&& 0x27FF ≠ 0)) →
      Answers .serviceExit s (fun t => OnlyRack s t ∧ (rackOf t).state = r.state ∧ cmdIs t 2 false 1 0)) ∧
    (let text := (List.range r.planLen.toNat).map (fun i => sget memDflt r.planBuf i)
     (r.state ≠ 2 → Answers .planCommit s (fun t => OnlyRack s t ∧ (rackOf t).plan = r.plan ∧ cmdIs t 3 false 1 0)) ∧
      (∀ n, r.state = 2 → planParse true text = .inr n →
        Answers .planCommit s (fun t => OnlyRack s t ∧ (rackOf t).plan = r.plan ∧ cmdIs t 3 false 2 n)) ∧
      (∀ p, r.state = 2 → planParse true text = .inl p → planComplete p = false →
        Answers .planCommit s (fun t => OnlyRack s t ∧ (rackOf t).plan = r.plan ∧ cmdIs t 3 false 2 0)) ∧
      (∀ p, r.state = 2 → planParse true text = .inl p → planComplete p = true →
        Answers .planCommit s (fun t => OnlyRack s t ∧ cmdIs t 3 false 0 0 ∧ ∃ p', (rackOf t).plan = some (text, p') ∧
          p'.links = p.links ∧ p'.unused = p.unused ∧ p'.racks = p.racks ∧ ∀ e ∈ p'.devices, e.2 ≠ none)))) ∧
  (r.state = 1 → cellsOff s →
    (s.ops = [] → Answers .drainComplete s (fun t => (rackOf t).state = 2 ∧ cmdIs t 1 false 0 0 ∧ allOff t)) ∧
    (s.ops ≠ [] → Answers .drainComplete s (fun t => t = s)) ∧
    (r.drainFrom + 100 * (r.drain.toNat % 4096) ≤ r.ticks →
      Answers .drainTimeout s (fun t => (rackOf t).state = 2 ∧ cmdIs t 1 false 0 0 ∧ allOff t)) ∧
    (r.ticks < r.drainFrom + 100 * (r.drain.toNat % 4096) → Answers .drainTimeout s (fun t => t = s))) ∧
  (∀ tray : BitVec 5,
    let n := tray.toNat
    let x := trayOf s n
    (x.state = 0 → rackBusy s = false → Answers (.fenceTray tray) s (fun t => OnlyRack s t ∧ cmdIs t 4 false 1 0)) ∧
    (x.state ≠ 0 → (x.state = 4 → x.devOn ≠ 0) → x.fencing = false → x.onCell = false →
      Answers (.fenceTray tray) s (fun t => rackHolds t n ∧
        if x.up = true ∧ x.silent = false ∧ x.devOn ≠ 0 then (trayOf t n).fencing = true ∧ (trayOf t n).devOn = x.devOn
        else (trayOf t n).state = 4 ∧ (trayOf t n).devOn = 0)) ∧
    (∀ mask : BitVec 14, tmcRuns s n = true → rackBusy s = false →
      let may := 0x17C0 ||| (if x.last.any (fun m => m.leak == 0) then 1 else 0) ||| (if x.last.any (fun m => m.logOk) then 0x2000 else 0)
      Answers (.alarmClear tray mask) s (fun t => (trayOf t n).alarms = x.alarms &&& ~~~(mask &&& may) ∧
        (trayOf t n).faults = (if bitAt (mask &&& x.alarms) 6 = true then 0 else x.faults) ∧
        (∀ u, u ≠ n → trayOf t u = trayOf s u) ∧ cmdIs t 5 false (if mask &&& x.alarms &&& ~~~may = 0 then 0 else 1) 0))) ∧
  Answers .rmRestart s (fun t => t = { s with system := { s.system with rack := rackOf t, trays := t.system.trays } } ∧
    (∀ n, trayOf t n = if tmcRuns s n = true then syncCopy (trayOf s n) else trayOf s n) ∧ (rackOf t).plan = r.plan ∧ (rackOf t).facility = r.facility ∧
    (rackOf t).fenced = r.fenced ∧ (rackOf t).state = r.state ∧ (rackOf t).written = r.written ∧ (rackOf t).lanes = r.lanes)

/-- What the identity exchange after a passed lane test comes to (R488, R489): the rack returns to service with the lowest device at
which an identity does not match; or, every planned port of the modelled device being up, it runs, with the results stored, the
fenced-tray bits clear and its powered trays running; or it waits. -/
def Settles (s t : State) (p : Plan) (results others : List Nat) : Prop :=
  let me := slotDevice s s.system.homeTray s.system.homePos
  let planned := fun q => homePowered s s.system.homeTray = true ∧ q < 12 ∧ (planFar p me q).isSome = true
  let bad := fun d => d ∈ others ∨ (d = me ∧ ∃ q, planned q ∧ portState s q = 4)
  ((∃ d, bad d) → (∀ d, bad d → d < 1024) → cellsOff s → (rackOf t).state = 2 ∧ allOff t ∧
    ∃ d, bad d ∧ (∀ e, bad e → d ≤ e) ∧ cmdIs t 2 false 2 d) ∧
  ((∀ d, ¬ bad d) → (∀ q, planned q → portUp s q = true) →
    (rackOf t).state = 0 ∧ (rackOf t).fenced = 0 ∧ cmdIs t 2 false 0 0 ∧
    (∀ i, i < 7680 → if lanePlanned s p i = true then
      (laneRec t i).errors = results.getD i 0 ∧ (laneRec t i).flags = 1 else laneRec t i = laneRec s i) ∧
    ∀ n, n < 32 → trayOf t n = if (trayOf s n).devOn = 0 then trayOf s n else { trayOf s n with state := 3 }) ∧
  ((∀ d, ¬ bad d) → (∃ q, planned q ∧ portUp s q = false) →
    (rackOf t).state = 3 ∧ (rackOf t).laneDone = some (results, others) ∧ t.system.trays = s.system.trays)

/-- Wiring verification. -/
def RackVerifies (s : State) : Prop :=
  let r := rackOf s
  (∀ (results others : List Nat) (text : List Byte) (p : Plan), r.state = 3 → r.plan = some (text, p) →
    ((∀ i, i < 7680 → lanePlanned s p i = true → laneFails s results i = false) →
      Answers (.laneTestEnd results others) s (fun t => Settles s t p results others)) ∧
    (∀ w inlet flow, r.laneDone = some (results, others) →
      Answers (.rackMeasure w inlet flow) s (fun t => Settles s t p results others)) ∧
    (∀ i, i < 7680 → lanePlanned s p i = true → laneFails s results i = true →
      (∀ j, j < i → lanePlanned s p j = true → laneFails s results j = false) → cellsOff s →
      Answers (.laneTestEnd results others) s (fun t => (rackOf t).state = 2 ∧ allOff t ∧
        cmdIs t 2 false 2 (slotDevice s (i / 240) (i / 60 % 4))))) ∧
  (∀ reads : List (Nat × Nat × Nat), r.state = 0 →
    Answers (.laneHourlyRead reads) s (fun t => OnlyRack s t ∧ (rackOf t).period = r.period + 1 ∧ ∀ i, i < 7680 → homeLane s i = false →
      (reads.find? (fun e => e.1 == i) = none → laneRec t i = { laneRec s i with wasSpare := false }) ∧
      ∀ spare n, reads.find? (fun e => e.1 == i) = some (i, spare, n) → n < 2 ^ 32 →
        laneRec t i = { laneRec s i with
          hours := if spare = 1 ∧ (laneRec s i).wasSpare = true then (laneRec s i).hours + 1 else (laneRec s i).hours
          fresh := (laneRec s i).fresh + (if (laneRec s i).count ≤ n then n - (laneRec s i).count else n)
          count := n
          wasSpare := decide (spare = 1) })) ∧
  (r.period < 24 * (r.wiring.toNat % 256) → Answers .lanePeriodEvaluation s (fun t => t = s)) ∧
  (∀ (text : List Byte) (p : Plan), r.state = 0 → r.plan = some (text, p) → 24 * (r.wiring.toNat % 256) ≤ r.period →
    Answers .lanePeriodEvaluation s (fun t => OnlyRack s t ∧ (rackOf t).period = 0 ∧ ∀ i, i < 7680 →
      let x := laneRec s i
      if lanePlanned s p i = true then
        (laneRec t i).hours = 0 ∧ (laneRec t i).fresh = 0 ∧ (laneRec t i).errors = x.fresh ∧
        (x.count < 0xFFFFFFFF → 0 < x.hours → 2 * x.fresh ≤ 765 * x.hours → (laneRec t i).flags = 5) ∧
        (x.count < 0xFFFFFFFF → 0 < x.hours → 765 * x.hours < 2 * x.fresh → (laneRec t i).flags = 4 ∧
          bitAt (rackOf t).laneFail (i / 240) = true) ∧
        (x.count < 0xFFFFFFFF → x.hours = 0 → (laneRec t i).flags = 6 ∧ (x.untested = true → bitAt (rackOf t).laneFail (i / 240) = true))
      else laneRec t i = x))

/-- The answer to a request of the rack management port (R493). -/
def rackAnswer (op status : Nat) (h : Frame) (payload : List Byte) : Out :=
  .answer (toBytes 1 (op ||| 128) ++ toBytes 1 status ++ toBytes 2 payload.length ++ toBytes 4 h.seq.toNat ++ toBytes 8 h.addr.toNat ++
    payload)

/-- A register of R494 with one field, which a write changes: its value, the range of the field, and 2 to its width. -/
def rackField (r : RackMgr) (a : Nat) : Option (W32 × Nat × Nat × Nat) :=
  if a = 0x24 then some (r.drain, 10, 3600, 4096) else if a = 0x28 then some (r.wiring, 1, 90, 256) else none

/-- The records of a tray's file: one whose CRC fails is skipped (R499). -/
def recordsRead (s : State) (n : Nat) : List (List Byte) :=
  (trayOf s n).copy.filter (fun r => numAt r 28 4 == (crc32 (r.take 28)).toNat)

/-- The rack management port. -/
def RackPort (s : State) (h : Frame) : Prop :=
  let r := rackOf s
  let a := h.addr.toNat
  let ro : List (Nat × W32) := [(0x04, r.config), (0x0C, r.cmdStatus), (0x10, r.facility), (0x14, r.fill), (0x24, r.drain),
    (0x28, r.wiring), (0x2C, r.fenced), (0x30, r.laneFail), (0x38, r.planLen), (0x08, 0),
    (0x18, BitVec.ofNat 32 (r.inlet / 1000 % 256 + r.outlet * 256 + r.flow / 100 % 4096 * 65536))]
  let aligned := a % 4 = 0 ∧ a < 0x2000 ∧ inRegister64 a = false
  (∀ v : W32, (a, v) ∈ ro → Answers (.read32 1 h) s (fun t => t = { s with out := s.out ++ [rackAnswer 1 0 h (toBytes 4 v.toNat)] })) ∧
  (∀ n k, n < 32 → k < 2 → a = 0x1004 + 0x80 * n + 4 * k →
    Answers (.read32 1 h) s (fun t => t = { s with out := s.out ++ [rackAnswer 1 0 h
      (toBytes 4 (if k = 0 then (trayOf s n).alarms.toNat else (trayOf s n).logSeq))] })) ∧
  (∀ op : Byte, (op = 0 ∨ 7 ≤ op.toNat) →
    Answers (.read32 op h) s (fun t => t = { s with out := s.out ++ [rackAnswer op.toNat 1 h []] })) ∧
  (¬ aligned → Answers (.read32 1 h) s (fun t => t = { s with out := s.out ++ [rackAnswer 1 2 h []] }) ∧
    ∀ bs, Answers (.write32 h bs) s (fun t => t = { s with out := s.out ++ [rackAnswer 2 2 h []] })) ∧
  (∀ (v : W32),
    let w := Instr.write32 h (toBytes 4 v.toNat)
    (a = 0x04 → r.state = 2 → Answers w s (fun t => t.out = s.out ++ [rackAnswer 2 0 h []] ∧ (rackOf t).config = v &&& 7)) ∧
    (a = 0x04 → r.state ≠ 2 → Answers w s (fun t => t = { s with out := s.out ++ [rackAnswer 2 4 h []] })) ∧
    (a = 0x38 → Answers w s (fun t => t.out = s.out ++ [rackAnswer 2 0 h []] ∧
      (rackOf t).planLen = if v.toNat ≤ 1048576 then v else r.planLen)) ∧
    (a ∈ [0x00, 0x0C, 0x18, 0x1C, 0x20, 0x2C, 0x30] → Answers w s (fun t => t = { s with out := s.out ++ [rackAnswer 2 4 h []] })) ∧
    (∀ old lo hi m, rackField r a = some (old, lo, hi, m) → Answers w s (fun t => t.out = s.out ++ [rackAnswer 2 0 h []] ∧
      (∀ now lo' hi' m', rackField (rackOf t) a = some (now, lo', hi', m') → now.toNat = (if lo ≤ v.toNat % m ∧ v.toNat % m ≤ hi then
        v.toNat % m else old.toNat % m)))) ∧
    (a = 0x08 → rackBusy s = true → 1 ≤ v.toNat % 16 → v.toNat % 16 ≤ 3 →
      Answers w s (fun t => t = { s with out := s.out ++ [rackAnswer 2 3 h []] }))) ∧
  (∀ n, n < 32 → a = 0x1020 + 0x80 * n →
    (∀ v, (trayOf s n).rtc = some v →
      Answers (.read64 h) s (fun t => t = { s with out := s.out ++ [rackAnswer 3 0 h (toBytes 8 v.toNat)] })) ∧
    ∀ bs, Answers (.write64 h bs) s (fun t => t = { s with out := s.out ++ [rackAnswer 4 4 h []] })) ∧
  (a % 8 ≠ 0 ∨ a < 0x1000 ∨ 0x2000 ≤ a →
    Answers (.read64 h) s (fun t => t = { s with out := s.out ++ [rackAnswer 3 2 h []] }) ∧
    ∀ bs, Answers (.write64 h bs) s (fun t => t = { s with out := s.out ++ [rackAnswer 4 2 h []] })) ∧
  (∀ bs : List Byte, h.file = 0 → bs.length ≤ 4096 →
    (a + bs.length ≤ 1048576 → Answers (.filePut h bs) s (fun t => OnlyRack { s with out := t.out } t ∧
      t.out = s.out ++ [rackAnswer 5 0 h []] ∧ ∀ i, sget memDflt (rackOf t).planBuf i =
        if a ≤ i ∧ i < a + bs.length then bs.getD (i - a) 0 else sget memDflt r.planBuf i)) ∧
    (1048576 < a + bs.length → Answers (.filePut h bs) s (fun t => t = { s with out := s.out ++ [rackAnswer 5 5 h []] }))) ∧
  (h.file ≠ 0 → h.file.toNat ≤ 33 → Answers (.filePut h []) s (fun t => t = { s with out := s.out ++ [rackAnswer 5 4 h []] })) ∧
  (∀ n, h.len.toNat = n → n ≤ 4096 →
    (h.file = 0 → a + n ≤ 1048576 → Answers (.fileGet h) s (fun t => t = { s with out := s.out ++ [rackAnswer 6 0 h
      ((List.range n).map (fun i => sget memDflt r.planBuf (a + i)))] })) ∧
    (1 ≤ h.file.toNat → h.file.toNat ≤ 32 → a + n ≤ 32 * (recordsRead s (h.file.toNat - 1)).length →
      Answers (.fileGet h) s (fun t => t = { s with out := s.out ++ [rackAnswer 6 0 h
        (((recordsRead s (h.file.toNat - 1)).flatten.drop a).take n)] })) ∧
    (33 < h.file.toNat → Answers (.fileGet h) s (fun t => t = { s with out := s.out ++ [rackAnswer 6 2 h []] })))

end Sys2Proof.Terms

/-- The rack manager. A measurement sets the limit of R480 and the coolant alarm; an input above it for 100 ms lowers every limit;
service is entered from running, drains, and opens every slot; the way back is refused without a plan, a tray, or with a blocking
alarm, and ends in running only when every planned lane passes and every identity matches. The plan is taken whole or not at all; a
lane is judged by its hours and errors; the management port reads, writes, and answers by R493. The clock of measurements, rounding,
OVER and BUSY, the answer 4 to RM_CONFIG outside service and 2 to an unaligned access or one of another width, and what a restart
clears are the model's choices (log entry 27). -/
def Obligations.TheRackManagerServesAndVerifies : Prop :=
  (∀ s, RackServes s) ∧ (∀ s, RackVerifies s) ∧ ∀ s h, RackPort s h

namespace Sys2Proof.Terms

/-- A reset of kind `kind` has been released now: nothing but what R500 keeps has survived, and the start-up path begins (19 R502). -/
def Restarted (s t : State) (kind : Nat) : Prop :=
  inReset t = false ∧ t.mem = [] ∧ t.tags = [] ∧ t.ops = [] ∧ t.cores = [] ∧ t.coresReleased = false ∧ t.boot.zeroed = false ∧
  (regGet t Reg.suStatus).toNat = 0x40 + kind * 0x1000 ∧ regGet t Reg.suResetAt = t.tbc ∧ t.flash = s.flash ∧ t.minSvn = s.minSvn ∧
  t.revoked = s.revoked ∧ t.hostMem = s.hostMem ∧ t.boot.began = t.tbc ∧
  t.system = { s.system with records := t.system.records, returned := t.system.returned, toReturn := t.system.toReturn } ∧
  (kind = 1 → t.tbc = 0) ∧
  (kind ≠ 1 → t.system = s.system ∧ t.tbc = s.tbc ∧ (Memory.wf regReset s.regs = true →
    regGet t Reg.errSeq = regGet s Reg.errSeq ∧ regGet t Reg.tbControl = regGet s Reg.tbControl))

/-- The device is held in reset: everything that the reset reaches is at its reset value (19 R500; 21 R558). -/
def HeldInReset (s t : State) : Prop :=
  inReset t = true ∧ t.mem = [] ∧ t.ops = [] ∧ t.cores = [] ∧ t.coresReleased = false ∧ t.tbc = s.tbc ∧ t.flash = s.flash ∧
  t.hostMem = s.hostMem

/-- A reset of kind `kind` is to be released: at once where VID stands at code 20, else the device is held until it does (21 R547). -/
def Released (s t : State) (kind : Nat) : Prop :=
  if s.power.vcore = 20 then Restarted s t kind
  else inReset t = true ∧ t.boot.settling = true ∧ t.boot.kind = kind ∧ t.tbc = s.tbc ∧ t.flash = s.flash ∧ t.coresReleased = false

/-- The withdraw flit goes out on every port that is up (15 R398). -/
def withdrawn (s t : State) : Prop := ∀ p, p < 12 → portUp s p = true → Out.flit p (flitOf (portOf s p) 6 0 0 []) ∈ t.out

/-- Fewer than two class 5 records stand within the last hour, so one more does not escalate (20 R526). -/
def mayRecord5 (s : State) : Prop := (s.class5.filter (fun x => decide (elapsed s x ≤ hourTbc))).length < 2

/-- Reset pins and resets. -/
def ResetAnswers (s : State) : Prop :=
  (s.boot.perst = false →
    (inReset s = false → Answers .perstAssert s (fun t => HeldInReset s t ∧ t.boot.perst = true ∧ t.boot.kind = 3)) ∧
    (inReset s = true → s.boot.tmcHold = false →
      Answers .perstAssert s (fun t => t = { s with boot := { s.boot with perst := true, kind := min s.boot.kind 3 } })) ∧
    (s.boot.tmcHold = true → Answers .perstAssert s (fun t => t = { s with boot := { s.boot with perst := true } }))) ∧
  (s.boot.perst = true →
    (s.boot.tmcHold = true → Answers .perstRelease s (fun t => t = { s with boot := { s.boot with perst := false } } ∧ inReset t = true)) ∧
    (s.boot.tmcHold = false → s.boot.pwrgd = true → s.boot.powered = true → s.power.failed = [] → s.boot.kind < 4 →
      (s.power.vcore ≠ 20 → s.coresReleased = false) → Answers .perstRelease s (fun t => Released s t s.boot.kind)) ∧
    (s.boot.tmcHold = false → (s.boot.pwrgd = false ∨ s.boot.powered = false ∨ s.power.failed ≠ []) → Answers .perstRelease s (fun t =>
      t = { s with boot := { s.boot with perst := false, held := !s.boot.pwrgd } } ∧ inReset t = true))) ∧
  (s.boot.powered = false → Answers .pwrgdRise s (fun t => t = s)) ∧
  (s.boot.powered = true → (s.boot.tmcHold = false ∨ s.boot.perst = true ∨ s.boot.held = true ∨ s.power.failed ≠ []) →
    Answers .pwrgdRise s (fun t => t = { s with boot := { s.boot with pwrgd := true, tmcHold := false } })) ∧
  (s.boot.powered = true → s.boot.tmcHold = true → s.boot.perst = false → s.boot.held = false → s.power.failed = [] → s.boot.kind < 4 →
    (s.power.vcore ≠ 20 → s.coresReleased = false) → Answers .pwrgdRise s (fun t => Released s t s.boot.kind)) ∧
  (s.boot.pwrgd = true → inReset s = false → Answers .pwrgdFall s (fun t => HeldInReset s t ∧ t.boot.pwrgd = false ∧ t.boot.kind = 1 ∧
    t.boot.held = true ∧ withdrawn s t)) ∧
  (∀ (a : Agent) (c : BitVec 16), platformAgent s a = true →
    (c = 0x4410 → Answers (.deviceReset a c) s (fun t => Released s t 3)) ∧ (c ≠ 0x4410 → Answers (.deviceReset a c) s (fun t => t = s))) ∧
  (inReset s = false → s.time.refclk = true → Answers .tbPllLocked s (fun t => OnlyRegs (fun k => k == Reg.tbStatus) s t ∧
    tbLocked t = true ∧ alignedNow t = alignedNow s)) ∧
  (s.coresReleased = true → bootOkSet s = false → inReset s = false → mayRecord5 s →
    regFld s Reg.suBootDeadline 0 20 * 1000000 ≤ elapsed s s.boot.released →
    Answers .bootDeadlineExpiry s (fun t => t.mem = [] ∧ t.ops = [] ∧ t.coresReleased = false ∧ t.flash = s.flash ∧ t.tbc = s.tbc ∧
      (if s.power.vcore = 20 then inReset t = false ∧ (regGet t Reg.suStatus).toNat = 0x3040
        else inReset t = true ∧ t.boot.settling = true ∧ t.boot.kind = 3) ∧
      (Memory.wf regReset s.regs = true → ErrCounted s t 5)))

/-- The start-up path and boot attempts. -/
def BootAnswers (s : State) : Prop :=
  let r := bootRec s
  inReset s = false →
  (s.boot.zeroed = false → Answers .startupMemoriesZeroed s (fun t => t.boot = { s.boot with zeroed := true } ∧ suStep t = 1 ∧
    RegsKept (fun k => k == Reg.suStatus) s t ∧ MemKept s t)) ∧
  (s.boot.zeroed = true → s.boot.chosen = false → suStep s ≠ 15 → r.gen + 1 < 2 ^ 32 →
    (∀ b f, (if r.fails r.active < 3 then b = r.active ∧ f = r.fallback else r.fails (!r.active) < 3 ∧ b = !r.active ∧ f = true) →
      Answers .bootRecordRead s (fun t => t.boot.chosen = true ∧ runningSlot t = b ∧ fenced t = fenced s ∧
        bootRec t = { (r.withFails b (r.fails b + 1)) with gen := r.gen + 1, active := b, fallback := f })) ∧
    (3 ≤ r.fails false → 3 ≤ r.fails true → Answers .bootRecordRead s (fun t => suStep t = 15 ∧ fenced t = true ∧ t.boot.fatalN = true ∧
      t.flash = s.flash))) ∧
  (∀ tripped : BitVec 8, s.boot.zeroed = true → s.hbm.trained = false →
    Answers (.stackTrainingDone tripped) s (fun t => t.hbm.trained = true ∧ ∀ n, n < 8 →
      (tripped.getLsbD n = true → stackOffline t n = true) ∧
      (tripped.getLsbD n = false → sget markDflt s.hbm.tripped n = false → stackState t n = 0))) ∧
  (s.boot.chosen = true → s.hbm.trained = true → fenced s = false →
    let b := runningSlot s
    let h := slotHeader s b
    let n := imgLen h - 1024
    let body := flashBytes s (slotBase b + 256) (imgLen h)
    let failed := fun t : State => t.coresReleased = s.coresReleased ∧ (bootRec t).fails b = 3
    let zeroed := fun t : State => ∀ x, memByte t x = if x < n then 0 else memByte s x
    (suStep s = 2 →
      ((slotCheck s b = 0 ∨ 4 ≤ slotCheck s b) → imageReaches s n = true → (∀ x, x < n → accessReady s x = true) → StoreTaken s 0 n →
        Answers (.imageLoaded false) s (fun t => suStep t = 3 ∧ t.coresReleased = s.coresReleased ∧ t.flash = s.flash ∧
          ∀ x, memByte t x = if x < n then body.getD (x + 1024) 0 else memByte s x)) ∧
      ((1 ≤ slotCheck s b ∧ slotCheck s b ≤ 3 ∨ imageReaches s n = false) → r.gen + 2 < 2 ^ 32 →
        Answers (.imageLoaded false) s (fun t => failed t ∧ t.mem = s.mem))) ∧
    (suStep s = 3 →
      (slotCheck s b = 0 → StoreTaken s 0x6000000000 1024 →
        Answers (.imageLoaded false) s (fun t => t.coresReleased = true ∧ t.boot.released = s.tbc ∧ suStep t = 4 ∧
          (regGet t Reg.fwSchema).toNat = imgSchema h ∧ ∀ x, memByte t x =
            if 0x6000000000 ≤ x ∧ x < 0x6000000400 then body.getD (x - 0x6000000000) 0 else memByte s x)) ∧
      (slotCheck s b ≠ 0 → r.gen + 2 < 2 ^ 32 → Answers (.imageLoaded false) s (fun t => failed t ∧ zeroed t))) ∧
    ((suStep s = 2 ∨ suStep s = 3) → r.gen + 2 < 2 ^ 32 → Answers (.imageLoaded true) s (fun t => failed t ∧ zeroed t))) ∧
  (∀ a, ringZero s a = true → s.coresReleased = true → bootOkSet s = false → r.gen + 1 < 2 ^ 32 →
    (settingsSource s = none → Answers (.bootOk a) s (fun t => bootOkSet t = true ∧ (bootRec t).fails (runningSlot s) = 0 ∧
      (bootRec t).gen = r.gen + 1 ∧ regBit t Reg.suStatus 7 = true ∧ regFld t Reg.fwSchema 16 16 = 0)) ∧
    (∀ b k schema, settingsSource s = some (b, k, schema) →
      settingsRecord (flashBytes s (halfBase b k) 0x80000) 0x10000 64 [] = ([], false) → schema < 65536 →
      Answers (.bootOk a) s (fun t => bootOkSet t = true ∧ (bootRec t).fails (runningSlot s) = 0 ∧
        regBit t Reg.suStatus 7 = regBit s Reg.suStatus 7 ∧ regFld t Reg.fwSchema 16 16 = schema))) ∧
  (∀ a, ringZero s a = true → Answers (.aliasOff a) s (fun t => aliasOn t = false ∧ MemKept s t ∧ t.flash = s.flash ∧
    (bootOkSet s = false → OnlyRegs (fun k => k == Reg.suStatus) s t)))

/-- The five firmware requests: command and number. -/
def fwCommand (a : Agent) : Instr → Option (Nat × Bool × Nat)
  | .install x => if x = a then some (1, false, 0) else none
  | .select x now => if x = a then some (2, now, 0) else none
  | .settingsCommit x => if x = a then some (3, false, 0) else none
  | .raiseSvn x => if x = a then some (4, false, 0) else none
  | .revokeKey x k => if x = a then some (5, false, k.toNat) else none
  | _ => none

/-- PF registers that a write reaches as 00 R8 to R10 say, with no effect beside their own fields. -/
def plainRegs : List Nat :=
  [Reg.hlErr, Reg.hlCorrected, Reg.strCorrected, Reg.strErr, Reg.vcuSched, Reg.vcuErr, Reg.vcuCorrected, Reg.geHub, Reg.geErr,
   Reg.geCorrected, Reg.embPolicy, Reg.embErr, Reg.embCorrected, Reg.dtaErr, Reg.dtaCorrected, Reg.hbmScrub, Reg.hbmErr,
   Reg.fabCfg, Reg.fabErr, Reg.fabCorrected, Reg.pwrErr, Reg.rampViolCount, Reg.scErr, Reg.scCorrected, Reg.suBootDeadline,
   Reg.fwReqLen, Reg.errAck, Reg.errCfg, Reg.errOverrun, Reg.coveCorrected, Reg.coveErr]

/-- Bit `i` of a register of row `r` after `x` is written to it (00 R8 to R10): an RW bit takes the bit written, unless its field
is written with a reserved value; a W1C bit written as 1 clears; every other stays. -/
def bitWritten (r : RegRow) (old : W64) (x i : Nat) : Bool :=
  if r.rw.testBit i && r.ranges.all (fun f => decide (i < f.1) || decide (f.1 + f.2.1 ≤ i) ||
      (decide (f.2.2.1 ≤ x / 2 ^ f.1 % 2 ^ f.2.1) && decide (x / 2 ^ f.1 % 2 ^ f.2.1 ≤ f.2.2.2))) then x.testBit i
  else old.getLsbD i && !(r.w1c.testBit i && x.testBit i)

/-- FW_REQ_STATUS after a request of CMD `cmd` has ended with RESULT. -/
def fwEnded (t : State) (cmd result : Nat) : Prop :=
  t.boot.request = none ∧ (regGet t Reg.fwReqStatus).toNat = result * 2 + cmd * 16

/-- Firmware requests and register writes. -/
def FirmwareAnswers (s : State) : Prop :=
  (∀ (i : Instr) (a : Agent) (cmd key : Nat) (now : Bool), fwCommand a i = some (cmd, now, key) → ringZero s a = true →
    (s.boot.request = none →
      let erases := decide (cmd = 1) && (stageWaiting s).isNone && decide (stageResult s = 0)
      let b := runningSlot s
      Answers i s (fun t => t.boot = { s.boot with request := some ⟨cmd, now, key, erases⟩ } ∧
        (regGet t Reg.fwReqStatus).toNat = 1 + cmd * 16 ∧ MemKept s t ∧
        if erases = true then slotCheck t (!b) = 1 ∧ currentHalf t (!b) = none ∧ slotHeader t b = slotHeader s b else t.flash = s.flash)) ∧
    (s.boot.request ≠ none → Answers i s (fun t => OnlyRegs (fun k => k == Reg.fwReqStatus) s t ∧ regFld t Reg.fwReqStatus 1 3 = 1))) ∧
  (∀ q : FwReq, s.boot.request = some q → fenced s = false → inReset s = false →
    let b := runningSlot s
    let staged := memBytes s Config.stageArea 256
    let body := memBytes s (Config.stageArea + 256) (imgLen staged)
    (q.cmd = 1 →
      let fits := imgHeaderOk staged = true ∧ 256 + imgLen staged = (regGet s Reg.fwReqLen).toNat ∧
        poisonIn s Config.stageArea (256 + imgLen staged) = false
      (imgCheck s staged body = 0 → (bootRec s).gen + 1 < 2 ^ 32 → (q.erased = true ∨ (fits ∧ stageWaiting s = none)) →
        Answers (.fwRequestDone false false) s (fun t => fwEnded t 1 0 ∧ slotHeader t (!b) = staged ∧
          flashBytes t (slotBase (!b) + 256) (imgLen staged) = body ∧ (bootRec t).fails (!b) = 0 ∧ slotHeader t b = slotHeader s b) ∧
        Answers (.fwRequestDone false true) s (fun t => fwEnded t 1 2 ∧ slotHeader t b = slotHeader s b) ∧
        (q.erased = false → ∀ e, Answers (.fwRequestDone true e) s (fun t => fwEnded t 1 3 ∧ slotCheck t (!b) = 1 ∧
          slotHeader t b = slotHeader s b))) ∧
      (q.erased = true → imgHeaderOk staged = true → imgCheck s staged body ≠ 0 →
        Answers (.fwRequestDone false false) s (fun t => fwEnded t 1 2 ∧ slotCheck t (!b) ≠ 0 ∧ slotHeader t b = slotHeader s b)) ∧
      (q.erased = false → ∀ w e,
        (stageWaiting s ≠ none → Answers (.fwRequestDone w e) s (fun t => t.boot = s.boot ∧ t.flash = s.flash ∧ MemKept s t)) ∧
        (stageWaiting s = none →
          (fits → imgCheck s staged body = 3 → imgCheck { s with minSvn := 0 } staged body = 0 →
            Answers (.fwRequestDone w e) s (fun t => fwEnded t 1 4 ∧ t.flash = s.flash)) ∧
          ((¬ fits ∨ imgCheck s staged body ∉ [0, 3]) →
            Answers (.fwRequestDone w e) s (fun t => fwEnded t 1 2 ∧ t.flash = s.flash))))) ∧
    (q.cmd = 2 →
      (∀ w, Answers (.fwRequestDone w true) s (fun t => fwEnded t 2 1 ∧ t.flash = s.flash ∧ t.mem = s.mem)) ∧
      (slotCheck s (!b) ≠ 0 → ∀ w, Answers (.fwRequestDone w false) s (fun t => fwEnded t 2 1 ∧ t.flash = s.flash ∧ t.mem = s.mem)) ∧
      (slotCheck s (!b) = 0 →
        Answers (.fwRequestDone true false) s (fun t => fwEnded t 2 3 ∧ t.flash = s.flash ∧ t.mem = s.mem) ∧
        ((bootRec s).gen + 1 < 2 ^ 32 → q.now = false → Answers (.fwRequestDone false false) s (fun t => fwEnded t 2 0 ∧
          (bootRec t).active = !b ∧ (bootRec t).fallback = false ∧ (bootRec t).fails (!b) = 0 ∧ MemKept s t)) ∧
        ((bootRec s).gen + 1 < 2 ^ 32 → q.now = true → Answers (.fwRequestDone false false) s (fun t =>
          (bootRec t).active = !b ∧ t.mem = [] ∧ t.coresReleased = false ∧
          if s.power.vcore = 20 then (regGet t Reg.suStatus).toNat = 0x3040 else inReset t = true ∧ t.boot.settling = true)))) ∧
    (q.cmd = 3 → let data := settingsData s (imgSchema (slotHeader s b))
      ((65535 < data.length ∨ 0x80000 < 72 + data.length) → ∀ w e, Answers (.fwRequestDone w e) s (fun t => fwEnded t 3 3 ∧
        t.flash = s.flash)) ∧
      (data.length ≤ 65535 → 72 + data.length ≤ 0x80000 → ∀ e,
        Answers (.fwRequestDone true e) s (fun t => fwEnded t 3 3 ∧ currentHalf t b = currentHalf s b) ∧
        ((∀ x, currentHalf s b = some x → numAt x.2 8 4 + 1 < 2 ^ 32) →
          Answers (.fwRequestDone false e) s (fun t => fwEnded t 3 0 ∧ regBit t Reg.suStatus 7 = false ∧ ∃ k h, currentHalf t b = some (k, h) ∧
            numAt h 8 4 = ((currentHalf s b).map (fun x => numAt x.2 8 4)).getD 0 + 1 ∧
            flashBytes t (halfBase b k + 72) data.length = data)))) ∧
    (∀ w e : Bool,
      (q.cmd = 4 → Answers (.fwRequestDone w e) s (fun t => fwEnded t 4 0 ∧ t.flash = s.flash ∧ t.revoked = s.revoked ∧
        t.minSvn = BitVec.ofNat 7 (max s.minSvn.toNat (imgSvn (slotHeader s b))))) ∧
      (q.cmd = 5 → Answers (.fwRequestDone w e) s (fun t => t.flash = s.flash ∧ t.minSvn = s.minSvn ∧
        if q.key = imgKey (slotHeader s b) then fwEnded t 5 1 ∧ t.revoked = s.revoked
        else fwEnded t 5 0 ∧ t.revoked = s.revoked ||| BitVec.ofNat 4 (2 ^ q.key))))) ∧
  (∀ (a : Agent) (fn : BitVec 8) (off : BitVec 20) (size : BitVec 5) (v : W64), fn.toNat ≤ 128 →
    (regRowExact fn.toNat off.toNat size.toNat = none → regTouched fn.toNat off.toNat size.toNat = false →
      Answers (.registerWrite a fn off size v) s (fun t => t = s)) ∧
    (regRowExact fn.toNat off.toNat size.toNat = none → regTouched fn.toNat off.toNat size.toNat = true →
      reachesWindow s a fn.toNat = true →
      Answers (.registerWrite a fn off size v) s (fun t => OnlyRegs errKey s t ∧ ErrCounted s t 3)) ∧
    (∀ r, fn = 0 → off.toNat ∈ plainRegs → regRowExact 0 off.toNat size.toNat = some r → platformAgent s a = true →
      reachesWindow s a 0 = true →
      Answers (.registerWrite a fn off size v) s (fun t => OnlyRegs (fun k => k == off.toNat) s t ∧
        ∀ i, i < 64 → (regGet t off.toNat).getLsbD i = bitWritten r (regGet s off.toNat) (v.toNat % 2 ^ r.bits) i)) ∧
    (fn = 0 → off = 0xA0008 → size = 4 → platformAgent s a = true → reachesWindow s a 0 = true →
      let x := v.toNat % 2 ^ 16
      let y := v.toNat / 2 ^ 16 % 2 ^ 8
      Answers (.registerWrite a fn off size v) s (fun t => OnlyRegs (fun k => k == Reg.fabCfg) s t ∧
        regFld t Reg.fabCfg 0 16 = (if 100 ≤ x then x else regFld s Reg.fabCfg 0 16) ∧
        regFld t Reg.fabCfg 16 8 = if 1 ≤ y ∧ y ≤ 168 then y else regFld s Reg.fabCfg 16 8)))

/-- A returned record (20 R537): sixteen words. -/
def importBytes (s : State) (v : W64) : List Byte := (s.importBuf ++ [v]).flatMap (fun w => toBytes 8 w.toNat)

/-- The device fence, imported records, and the corrected rate. -/
def ErrorAnswers (s : State) : Prop :=
  (∀ (a : Agent) (c : BitVec 16), platformAgent s a = true →
    (c ≠ 0x4410 → Answers (.fenceDevice a c) s (fun t => t = s)) ∧
    (c = 0x4410 → fenced s = false → Answers (.fenceDevice a c) s (fun t => fenced t = true ∧ t.ops = [] ∧ withdrawn s t ∧ MemKept s t ∧
      (∀ n, n < 16 → (coreOf t n).running = false) ∧ (mayRecord5 s → ErrCounted s t 5 ∧ t.boot = s.boot)))) ∧
  (∀ v : W64, (s.system.toReturn = 0 ∨ inReset s = true ∨ regBit s Reg.suStatus 4 = true) →
    Answers (.errImport .tmc v) s (fun t => t = s)) ∧
  (∀ (v : W64) (kept : List Byte), inReset s = false → regBit s Reg.suStatus 4 = false → s.system.toReturn ≠ 0 →
    s.system.records[s.system.returned]? = some kept →
    let y := { s.system with returned := s.system.returned + 1, toReturn := s.system.toReturn - 1 }
    (s.importBuf.length < 15 → Answers (.errImport .tmc v) s (fun t => t = { s with importBuf := s.importBuf ++ [v] })) ∧
    (s.importBuf.length = 15 → (regGet s Reg.errSeq).toNat < 2 ^ 32 → importBytes s v = kept →
      numAt (importBytes s v) 124 4 = (crc32 ((importBytes s v).take 124)).toNat →
      Answers (.errImport .tmc v) s (fun t => t = { s with importBuf := [], regs := t.regs, system := y } ∧ RegsKept errKey s t ∧
        (regGet t Reg.errSeq).toNat = nextSeqNo (regGet s Reg.errSeq).toNat ∧
        (let rec_ := getRecord t 0 (logSlot (regGet t Reg.errSeq).toNat)
         numAt rec_ 0 4 = (regGet t Reg.errSeq).toNat % 2 ^ 32 ∧ natBit (numAt rec_ 7 1) 1 = true ∧ natBit (numAt rec_ 7 1) 3 = false ∧
         bytesAt rec_ 8 116 = bytesAt (importBytes s v) 8 116))) ∧
    (s.importBuf.length = 15 →
      (importBytes s v ≠ kept ∨ numAt (importBytes s v) 124 4 ≠ (crc32 ((importBytes s v).take 124)).toNat) →
      Answers (.errImport .tmc v) s (fun t => t = { s with importBuf := [], system := y }))) ∧
  (∀ (a : Agent) (v : W64), a ≠ .tmc → Answers (.errImport a v) s (fun t => t = s)) ∧
  (∀ source : Byte, inReset s = false → (regGet s Reg.errSeq).toNat < 2 ^ 32 →
    let key := corrKey (s.tbc.toNat / 1000000000 - 1) source.toNat
    let n := sget (fun _ => 0) s.corrections key
    Answers (.correctedRateWindow source) s (fun t =>
      if s.tbc.toNat = 0 ∨ s.tbc.toNat % 1000000000 ≠ 0 ∨ n ≤ regFld s Reg.errCfg 0 8 then t = s
      else t = { s with regs := t.regs, corrections := t.corrections } ∧ RegsKept errKey s t ∧
        (∀ k, sget (fun _ => 0) t.corrections k = if k = key then 0 else sget (fun _ => 0) s.corrections k) ∧
        (regGet t Reg.errSeq).toNat = nextSeqNo (regGet s Reg.errSeq).toNat ∧
        (regGet t (Reg.errClass 0)).toNat = min ((regGet s (Reg.errClass 0)).toNat + min n 0xFFFF) 0xFFFFFFFF))

/-- One corrected error more, in the source's register and in its count of this window, and nothing else (R534). -/
def Corrected (s t : State) (source reg : Nat) : Prop :=
  t = { s with regs := t.regs, corrections := t.corrections } ∧ RegsKept (fun k => k == reg) s t ∧
  (regGet t reg).toNat = min ((regGet s reg).toNat + 1) 0xFFFFFFFF ∧
  let w := s.tbc.toNat / 1000000000
  (∀ x, x ≠ source → x < 256 → sget (fun _ => 0) t.corrections (corrKey w x) = sget (fun _ => 0) s.corrections (corrKey w x)) ∧
  sget (fun _ => 0) t.corrections (corrKey w source) = sget (fun _ => 0) s.corrections (corrKey w source) + 1

/-- An error found where the model lets it be found (log entry 40): a corrected one is counted, an uncorrectable one poisons, ends or
fences what held it (04 R117; 05 R147; 09 R276; 10 R300; 12 R350; 15 R423; 16 R444; 20 R529). -/
def StrikeAnswers (s : State) : Prop :=
  Corrected s (strikeEffect s .video) 5 Reg.vcuCorrected ∧
  (∀ c : BitVec 5, (∀ part, Corrected s (strikeEffect s (.gather c false part)) 6 Reg.geCorrected) ∧
    Corrected s (strikeEffect s (.accumulator c false)) 8 Reg.dtaCorrected ∧
    (∀ o, runningOn s (0x20 + c.toNat) = some o → findOp s o.id = some o →
      let t := strikeEffect s (.gather c true false)
      opDone s t o.id (compl 6 0 0 0) ∧ (regGet t Reg.geErr).getLsbD 0 = true) ∧
    (∀ o, walkServed s c.toNat = some o → findOp s o.id = some o →
      let t := strikeEffect s (.gather c true true)
      opDone s t o.id (compl 6 0 0 0) ∧ (regGet t Reg.geErr).getLsbD 0 = true) ∧
    (∀ o, runningOn s c.toNat = some o → findOp s o.id = some o →
      let t := strikeEffect s (.accumulator c true)
      opDone s t o.id (compl 6 0 0 0) ∧ (regGet t Reg.dtaErr).getLsbD 0 = true)) ∧
  (∀ (b : Bool) (i : Byte), acuBad s.acu b i.toNat = 0 →
    let t := strikeEffect s (.rule b i)
    t = { s with acu := t.acu } ∧ acuBad t.acu b i.toNat = 1 ∧ ∀ c j, acuRule t.acu c j = acuRule s.acu c j) ∧
  (∀ a n, regionOf a = .cove n → n < 32 → accessReady s a = true → poisonAt s a = false →
    Corrected s (strikeEffect s (.granule a false)) 0x0F Reg.coveCorrected ∧
    (let t := strikeEffect s (.granule a true)
     poisonAt t a = true ∧ tagAt t a = false ∧ (regGet t Reg.coveErr).getLsbD n = true ∧ t.mem = s.mem)) ∧
  (∀ (k : BitVec 4) (a : Nat) (e : Nat × CacheLine), (coreOf s k.toNat).dcache.find? (fun x => x.1 == alignDown a 64) = some e →
    Corrected s (strikeEffect s (.dataLine k a false)) 1 Reg.hlCorrected ∧
    (let t := strikeEffect s (.dataLine k a true)
     (∀ x ∈ (coreOf t k.toNat).dcache, x.1 ≠ alignDown a 64) ∧
     (e.2.dirty = false → MemKept s t ∧ (regGet t Reg.hlCorrected).toNat = min ((regGet s Reg.hlCorrected).toNat + 1) 0xFFFFFFFF) ∧
     (e.2.dirty = true → (regGet t Reg.hlErr).getLsbD k.toNat = true ∧
       (regionOf (alignDown a 16) ≠ .host → ∀ x, alignDown a 16 ≤ x → x < alignDown a 16 + 16 → poisonAt t x = true)))) ∧
  (∀ n : Byte, scPoisoned s n.toNat = false →
    Corrected s (strikeEffect s (.counter n false)) 0x0B Reg.scCorrected ∧
    (let t := strikeEffect s (.counter n true)
     scPoisoned t n.toNat = true ∧ (regGet t Reg.scErr).getLsbD 0 = true ∧ MemKept s t)) ∧
  (noCoreWaits s →
    (∀ d : BitVec 10, Corrected s (strikeEffect s (.route d false)) 0x0A Reg.fabCorrected ∧
      (let t := strikeEffect s (.route d true)
       (regGet t (Reg.route d.toNat)).getLsbD 0 = false ∧ (regGet t Reg.fabErr).getLsbD 2 = true)) ∧
    (∀ p : BitVec 4, p.toNat < 12 → portUp s p.toNat = true →
      Corrected s (strikeEffect s (.replay p false)) 0x0A Reg.fabCorrected ∧
      (let t := strikeEffect s (.replay p true)
       FencedWith t p.toNat 2 ∧ (regGet t Reg.fabErr).getLsbD 2 = true)))

end Sys2Proof.Terms

/-- Start-up, firmware and fences. The pins hold the device in reset and release it with the kind of the reset in SU_STATUS; a boot
attempt is counted before it is made, a slot that fails is left for the other, and with both failed the device halts; the image is
loaded at address 0, verified, and its first 1,024 bytes written at the fixed vectors; BOOT_OK ends the attempt; a firmware request is
queued once, and changes only what it names. A register write of another size is an error, and of a register without effects of its
own takes its fields; the device fence stops everything; a returned record enters the log as carried; an error found is counted, or
poisons, ends or fences what held it. What the monitor does at BOOT_OK and when STEP and the erase of INSTALL come (log entry 25), the
records that the TMC keeps and COPIED in a returned one (log entry 26), FW_REQ_LEN and a poisoned staged image (log entry 29), and
where an error strikes and what it leaves (log entry 40), are the model's choices. -/
def Obligations.TheDeviceStartsAndIsFenced : Prop :=
  ∀ s : State, ResetAnswers s ∧ BootAnswers s ∧ FirmwareAnswers s ∧ ErrorAnswers s ∧ StrikeAnswers s

namespace Sys2Proof.Terms

/-- A command of the management bus whose PEC is good, or not (21 R550). -/
def onBusOf (pec : Bool) : Instr → Prop
  | .regWrite32 _ _ p => p = pec
  | .regWrite64 _ _ p => p = pec
  | .regAddr _ _ p => p = pec
  | .regRead p => p = pec
  | .place _ _ _ p => p = pec
  | .plan _ p => p = pec
  | .planEnd _ p => p = pec
  | .record p => p = pec
  | .status p => p = pec
  | _ => False

/-- The pins as the boundary register captures them (21 R553, R554, R558): PERST_N, PWRGD, VID, the alert, fatal and trip outputs as
the machine has them; every other pin as it is reported, but in a reset and once the device is fenced or halted, where R558 fixes
it. -/
def Sampled (s : State) (pins cells : BitVec 48) : Prop :=
  cells.getLsbD 0 = (!(s.boot.perst || s.boot.tmcHold)) ∧ cells.getLsbD 1 = s.boot.pwrgd ∧
  (∀ i, i < 7 → cells.getLsbD (2 + 2 * i) = s.power.vcore.testBit i ∧ cells.getLsbD (3 + 2 * i) = true) ∧
  cells.getLsbD 20 = (pinsInReset s || decide (s.tmcHeld = [])) ∧ cells.getLsbD 22 = !s.boot.fatalN ∧
  cells.getLsbD 24 = !s.boot.thermtripN ∧
  (pinsInReset s = false → ∀ i, (16 ≤ i ∧ i < 20 ∨ 26 ≤ i ∧ i < 48) →
    cells.getLsbD i = ((fenced s || suStep s == 15) && (i == 28 || i == 29) || pins.getLsbD i)) ∧
  (pinsInReset s = true → cells.getLsbD 26 = false ∧ cells.getLsbD 27 = true ∧ cells.getLsbD 28 = true ∧ cells.getLsbD 29 = true ∧
    ∀ i, (i = 16 ∨ i = 18 ∨ 30 ≤ i ∧ i < 48 ∧ i % 2 = 0) → cells.getLsbD i = pins.getLsbD i ∧ cells.getLsbD (i + 1) = false)

/-- The rows of a plan are those of the committed one that concern the device (18 R467), or, before it has a place, some device of its
rack. -/
def Fits (s : State) (p : Plan) : Prop :=
  let y := s.system
  let rack := y.rack.config.toNat % 8
  ∃ text all, y.rack.plan = some (text, all) ∧
    if y.homeKnown then planDelivers all p (placeNumber rack y.homeTray y.homePos) = true
    else ∃ d, d < 128 ∧ planDelivers all p (128 * rack + d) = true

/-- The place fixes the home of the device; a tray that has been heard by then runs on main power with the device on, since it powers it. -/
def HomeFixed (s t : State) (pos tray : Nat) : Prop :=
  t.system = { s.system with homeKnown := true, homePos := pos, homeTray := tray, trays := t.system.trays } ∧
  ∀ k, trayOf t k =
    if k = tray ∧ (trayOf s k).state ≠ 0 ∧ (trayOf s k).devOn.getLsbD pos = false then
      { trayOf s k with up := true, state := 3, slotOn := true, onCell := false, acked := true, setPoints := [850, 1100, 1800]
                        devOn := (trayOf s k).devOn ||| BitVec.ofNat 4 (2 ^ pos) }
    else trayOf s k

/-- The plan has reached the device with its place `me` (15 R397, R400; 18 R467). -/
def PlanTakes (t : State) (p : Plan) (me : Nat) : Prop :=
  planLoaded t = true ∧ (∀ d, d < 1024 → (regGet t (Reg.route d)).toNat = planRoute p.racks me d % 2 ^ 64) ∧
  ∀ q, q < 12 → if (planFar p me q).isNone then portState t q = 0 ∧ fenceReason t q = 4
    else if regBit t (Reg.portCtrl q) 0 = true then portState t q = 4 ∧ fenceReason t q = 3 else portState t q = 1

end Sys2Proof.Terms

/-- The management bus and the test access port. A command that is not acknowledged or has a bad PEC has no effect. Register accesses
are the platform's; the register named by REG_ADDR is read; PLACE and PLAN are taken until the plan is loaded, and the checked text
with a place fills the routes and starts the ports; the oldest record is read and removed; STATUS tells its bits. A test instruction
is loaded while the device is powered; IDCODE, the boundary cells and the bypass bit shift out. That a home place stands once it is
delivered (log entry 5), and that BYPASS captures 0, that the other pins are operands, what the test instructions capture and shift,
and when a PLAN and a PLACE are judged (log entry 31), are the model's choices. -/
def Obligations.ManagementAndTestPortAnswer : Prop :=
  ∀ s : State,
    (∀ i, (onBusOf false i ∨ (onBusOf true i ∧ busAcks s = false)) → Answers i s (fun t => t = s)) ∧
    (busAcks s = true →
      (∀ (off : BitVec 20) (v : W32), Answers (.regWrite32 (off.setWidth 32) v true) s (fun t =>
        exec (.registerWrite .tmc 0 off 4 (v.setWidth 64)) s = .next t)) ∧
      (∀ (off : BitVec 20) (v : W64), Answers (.regWrite64 (off.setWidth 32) v true) s (fun t =>
        exec (.registerWrite .tmc 0 off 8 v) s = .next t)) ∧
      (∀ (off : W32) (w : Byte), w = 4 ∨ w = 8 → Answers (.regAddr off w true) s (fun t =>
        t = { s with regAddr := (off.toNat, w.toNat) })) ∧
      (∀ off w, s.regAddr = (off, w) →
        (∀ row, regRowExact 0 off w = some row → Answers (.regRead true) s (fun t =>
          t = { s with out := s.out ++ [.answer (toBytes w (regRead s 0 off).toNat)] })) ∧
        (regRowExact 0 off w = none → regTouched 0 off w = false → Answers (.regRead true) s (fun t =>
          t = { s with out := s.out ++ [.answer (toBytes w 0)] })) ∧
        (regRowExact 0 off w = none → regTouched 0 off w = true → Answers (.regRead true) s (fun t =>
          OnlyRegs errKey { s with out := t.out } t ∧ ErrCounted s t 3 ∧ t.out = s.out ++ [.answer (toBytes w 0)]))) ∧
      (s.regAddr = (Reg.fabCfg, 4) → Answers (.regRead true) s (fun t =>
        t = { s with out := s.out ++ [.answer (toBytes 4 (regGet s Reg.fabCfg).toNat)] })) ∧
      (∀ pos tray rack : Byte, pos.toNat < 4 → tray.toNat < 32 → rack.toNat < 8 → planLoaded s = false →
        let me := placeNumber rack.toNat tray.toNat pos.toNat
        let y := s.system
        let here := rack.toNat = y.rack.config.toNat % 8 ∧ (y.homeKnown = true → pos.toNat = y.homePos ∧ tray.toNat = y.homeTray)
        (¬ here → Answers (.place pos tray rack true) s (fun t => t = s)) ∧
        let placed : State → Prop := fun t => t.place = some (pos.toNat, tray.toNat, rack.toNat) ∧ HomeFixed s t pos.toNat tray.toNat
        (here → s.plan = none → Answers (.place pos tray rack true) s (fun t => placed t ∧ t = { s with place := t.place, system := t.system })) ∧
        (here → ∀ p, s.plan = some p →
          ((∃ text all, y.rack.plan = some (text, all) ∧ planDelivers all p me = true) →
            Answers (.place pos tray rack true) s (fun t => placed t ∧ myNumber t = some me ∧ PlanTakes t p me)) ∧
          ((∀ text all, y.rack.plan = some (text, all) → planDelivers all p me = false) →
            Answers (.place pos tray rack true) s (fun t => placed t ∧
              t = { s with place := t.place, plan := none, system := t.system })))) ∧
      (planLoaded s = true → (∀ pos tray rack : Byte, Answers (.place pos tray rack true) s (fun t => t = s)) ∧
        (∀ text, Answers (.plan text true) s (fun t => t = s)) ∧ Answers (.planEnd 0 true) s (fun t => t = s)) ∧
      (planLoaded s = false →
        (∀ text, text ≠ [] → text.length ≤ 255 → Answers (.plan text true) s (fun t => t = { s with planText := s.planText ++ text })) ∧
        (∀ n, planParse false s.planText = .inr n → Answers (.planEnd 0 true) s (fun t => t = { s with planText := [] })) ∧
        (∀ p, planParse false s.planText = .inl p →
          (¬ Fits s p → Answers (.planEnd 0 true) s (fun t => t = { s with planText := [] })) ∧
          (Fits s p → s.place = none → Answers (.planEnd 0 true) s (fun t => t = { s with planText := [], plan := some p })) ∧
          (Fits s p → ∀ me, myNumber s = some me →
            Answers (.planEnd 0 true) s (fun t => t.plan = some p ∧ t.planText = [] ∧ PlanTakes t p me)))) ∧
      (s.tmcHeld = [] → Answers (.record true) s (fun t => t = { s with out := s.out ++ [.answer [0]] })) ∧
      (∀ r rest, s.tmcHeld = r :: rest → Answers (.record true) s (fun t =>
        t = { s with
          out := s.out ++ [.answer r], tmcHeld := rest
          system := { s.system with
            records := (s.system.records ++ [r]).drop (s.system.records.length + 1 - 8), returned := t.system.returned
            toReturn := t.system.toReturn } } ∧
        (s.system.records.length < 8 → t.system.returned = s.system.returned ∧ t.system.toReturn = s.system.toReturn) ∧
        (s.system.records.length = 8 → t.system.returned = s.system.returned - 1 ∧
          t.system.toReturn = if s.system.returned = 0 then s.system.toReturn - 1 else s.system.toReturn))) ∧
      Answers (.status true) s (fun t => ∃ b : Byte, t = { s with out := s.out ++ [.answer [b]] } ∧
        b.getLsbD 0 = regBit s Reg.suStatus 4 ∧ b.getLsbD 1 = fenced s ∧ b.getLsbD 2 = planLoaded s ∧
        b.getLsbD 3 = decide (s.tmcHeld ≠ []) ∧ b.toNat / 16 = suStep s)) ∧
    (s.boot.powered = true →
      (∀ pins tdi : BitVec 48,
        let boundary : Byte → State → Prop := fun op t => ∃ cells : BitVec 48, Sampled s pins cells ∧
          t = { s with jtag := ⟨op, tdi⟩, out := s.out ++ [.scan 48 cells.toNat] }
        let through : Byte → State → Prop := fun op t => if s.boot.perst || s.boot.tmcHold then
          t = { s with jtag := { s.jtag with instruction := op }, out := s.out ++ [.scan 1 0] } else boundary op t
        Answers (.extest pins tdi) s (boundary 0) ∧ Answers (.samplePreload pins tdi) s (boundary 2) ∧
        Answers (.clamp pins tdi) s (through 4) ∧ Answers (.highz pins tdi) s (through 5)) ∧
      Answers .tapReset s (fun t => t = { s with jtag := { s.jtag with instruction := 1 } }) ∧
      (∀ tdi, Answers (.idcode tdi) s (fun t => t.jtag = { s.jtag with instruction := 1 } ∧ t.out = s.out ++ [.scan 32 0xB441009F] ∧
        t = { s with jtag := t.jtag, out := t.out })) ∧
      (∀ (op : Byte) (tdi : Bool), op ∉ [0, 1, 2, 4, 5] → Answers (.bypass op tdi) s (fun t =>
        t = { s with jtag := { s.jtag with instruction := op }, out := s.out ++ [.scan 1 0] })))

namespace Sys2Proof.Terms

/-- What every step keeps: the memories are canonical; operations have distinct numbers, each already given out. -/
def Sound (s : State) : Prop := s.memWf = true ∧ OpsDistinct s ∧ ∀ o ∈ s.ops, o.id < s.nextOp

end Sys2Proof.Terms

namespace Sys2Proof.Terms

/-- Rows of CTUs that may advance by one each. -/
def rowsAdvance (x y : List Nat) : Prop := y.length = x.length ∧ ∀ i, x.getD i 0 ≤ y.getD i 0 ∧ y.getD i 0 ≤ x.getD i 0 + 1

/-- A tick passes (log entries 3, 20, 32 and 40): the start-up path takes up step 1, and an error may strike; then nothing changes but the
free-value counter, the coded CTUs of the pictures on the encode pipes, none of which falls back, the run-ahead reads, which are
only appended, and what the rule checks of those reads find. -/
def TickPasses (s t : State) : Prop :=
  let u := strikeTick (startTick { s with tbc := s.tbc + 1 })
  (inReset s = false → suStep s = 0 → suStep (startTick { s with tbc := s.tbc + 1 }) = 1) ∧
  ((inReset s = true ∨ suStep s ≠ 0) → startTick { s with tbc := s.tbc + 1 } = { s with tbc := s.tbc + 1 }) ∧
  t = { u with
    freeCtr := u.freeCtr + 1, pipes := t.pipes, walks := t.walks, regs := t.regs
    acu := { u.acu with bad0 := t.acu.bad0, bad1 := t.acu.bad1 } } ∧
  RegsKept acuKey u t ∧
  (fenced u = true → t = { u with freeCtr := u.freeCtr + 1 }) ∧
  (∀ p, (pipeOf t p).pic.map (fun x => { x with coded := [] }) = (pipeOf u p).pic.map (fun x => { x with coded := [] }) ∧
    (2 ≤ p → pipeOf t p = pipeOf u p) ∧
    ∀ x y, (pipeOf u p).pic = some x → (pipeOf t p).pic = some y → rowsAdvance x.coded y.coded) ∧
  ∀ c, { walkOf t c with spec := [] } = { walkOf u c with spec := [] } ∧ (walkOf u c).spec <+: (walkOf t c).spec ∧
    ((u.walks.map (fun e => e.1)).Nodup → (walkOf t c).spec.length ≤ (walkOf u c).spec.length + 1)

end Sys2Proof.Terms

/-- A step takes the command at the front of the queue and runs it with the queue's rest; on an empty queue one unit passes on the
time base, the start-up path takes up its first step, an error may strike, and the encode pipes and the gather engines' run-ahead
work on (the model's choice, log entries 3, 20, 25, 32 and 40). -/
def Obligations.AStepRunsTheFrontCommand : Prop :=
  (∀ (c : Instr) (rest : List Instr) (s : State), step { s with pending := c :: rest } = exec c { s with pending := rest }) ∧
  ∀ s : State, s.pending = [] → ∃ t, step s = .next t ∧ TickPasses s t

/-- After power-on reset: nothing waits; memory, tags, poison and caches are clear; every core but core 0 is halted, and core 0
stands at the slot of cause 0 of the fixed vectors with the roots of 03 R64, ready to fetch once it is released; no operation
stands; the time base is 0; every register has its reset value, and SU_STATUS shows a power-on reset with the alias on; strand cores,
video contexts and pipes, walks, tables with their directory and skew counters, tensor arrays, stacks, ports, barrier objects, power,
trays, rack manager, pins, flash and fuses stand as before anything has happened; the invariant of the machine holds. Values that the
spec does not give are the model's choice (log entry 5). -/
def Obligations.ResetLeavesTheDeviceClear : Prop :=
  let s := State.reset
  s.pending = [] ∧ s.tbc = 0 ∧ s.ops = [] ∧ s.reqs = [] ∧ s.changeSet = none ∧ s.coresReleased = false ∧ s.place = none ∧
  (∀ a, memByte s a = 0 ∧ sget markDflt s.tags a = false ∧ sget markDflt s.poison a = false) ∧
  (∀ n, n ≠ 0 → coreOf s n = coreReset) ∧
  coreOf s 0 = { coreReset with g := [(1, memoryRoot), (2, sealingRoot)], exc := (coreOf s 0).exc, running := true } ∧
  capCursor (coreOf s 0).exc = 0x6000000000 ∧ excRing (coreOf s 0) = 0 ∧ HlFetches { s with coresReleased := true } 0 ∧
  (∀ fn off, regKey fn off ≠ Reg.suStatus → regGetFn s fn off = regReset (regKey fn off)) ∧ regGet s Reg.suStatus = 0x1040 ∧
  regGet s Reg.tbControl = 2 ∧ regGet s Reg.pwrPolicy = 0x40 ∧ regGet s Reg.fabCfg = 0x182710 ∧ regGet s Reg.tjTherm = 0x3695F ∧
  regGet s (Reg.tenQuota 0) = 0x01000040 ∧ (∀ p, p < 12 → portState s p = 0) ∧ tbLocked s = false ∧ alignedNow s = false ∧
  acuRule s.acu false 0 = ⟨0, 0x001FFFFFFFFFFFC0, 0x011F0003⟩ ∧ (∀ fn, fn ≠ 0 → fnExists s fn = false) ∧
  (∀ n, strandOf s n = strandReset) ∧ (∀ c, (vctxOf s c).configured = false ∧ (vctxOf s c).refs = [] ∧ vctxOwnerOf s c = 0) ∧
  (∀ p, (pipeOf s p).pic = none ∧ (pipeOf s p).starting = none) ∧ (∀ c, walkOf s c = walkNone ∧ coveOwnerOf s c = 0) ∧
  (∀ n, tblOf s n = tblFree) ∧ s.bound = [] ∧ s.updates = [] ∧ s.rowHolds = [] ∧ s.dir = [] ∧ s.skewNow = [] ∧ s.skewLast = [] ∧
  s.skewPairs = [] ∧ s.dtas = [] ∧ s.hbm.trained = false ∧ (∀ n, n < 8 → stackOffline s n = false) ∧
  (∀ p, portOf s p = portReset) ∧ (∀ b, objOf s b = ⟨[], none⟩) ∧ s.fabClk = true ∧ s.plan = none ∧
  s.power.vcore = 20 ∧ s.power.failed = [] ∧ s.power.dips = [] ∧ s.power.levelSet = false ∧ s.power.samples = 0 ∧
  (∀ k, (trayOf s k).state = 0 ∧ (trayOf s k).log = []) ∧ (rackOf s).state = 2 ∧ (rackOf s).plan = none ∧ s.system.records = [] ∧
  s.boot.powered = true ∧ s.boot.perst = false ∧ s.boot.pwrgd = true ∧ s.boot.fatalN = false ∧ s.boot.thermtripN = false ∧
  s.boot.zeroed = false ∧ s.boot.request = none ∧ inReset s = false ∧ fenced s = false ∧ s.jtag.instruction = 1 ∧ s.tmcHeld = [] ∧
  s.flash = [] ∧ s.minSvn = 0 ∧ s.revoked = 0 ∧ Sound s

/-- From every state in which the memories are canonical and the operations have distinct numbers, a step answers a next state,
and that state has them too. -/
def Obligations.EveryStepAnswersAndKeepsTheMachineSound : Prop := ∀ s : State, Sound s → ∃ t, step s = .next t ∧ Sound t

/-- Decoding the word that a well-formed headland instruction is encoded as gives that instruction, with every operand: for every
instruction with a word other than 0, which the tables leave illegal. -/
def Obligations.HeadlandWordsDecodeToTheirInstruction : Prop :=
  (∀ i : Instr, i.wellFormed = true → encodeHl i ≠ 0 → ∃ c : BitVec 4, decodeHl c (encodeHl i) = i) ∧
  ∀ c : BitVec 4, decodeHl c 0 = .illegalInstruction c 0
end

