-- ==== Sys2Proof/Laws/SMap.lean ====
section
/-! SUPPORT. Sparse maps: reading after writing, and that every operation keeps the canonical form; the same for the
memories that are written through them. -/

namespace Sys2Proof.Machine

section
variable {α : Type}

/-- An erased key reads as the default. -/
theorem sget_serase_self (d : Nat → α) (m : SMap α) (k : Nat) : sget d (serase m k) k = d k := by
  induction m with
  | nil => rfl
  | cons e m ih =>
    by_cases h : e.1 = k
    · simpa [serase, h] using ih
    · have : (e.1 != k) = true := by simpa using h
      simp only [serase, List.filter_cons, this, if_true, sget, h, if_false]
      exact ih

/-- Erasing a key leaves every other key. -/
theorem sget_serase_ne (d : Nat → α) (m : SMap α) {k j : Nat} (h : j ≠ k) : sget d (serase m k) j = sget d m j := by
  induction m with
  | nil => rfl
  | cons e m ih =>
    by_cases hk : e.1 = k
    · have hj : ¬ e.1 = j := fun x => h (x.symm.trans hk)
      have : (e.1 != k) = false := by simpa using hk
      simp only [serase, List.filter_cons, this, sget, hj, if_false]
      exact ih
    · have : (e.1 != k) = true := by simpa using hk
      simp only [serase, List.filter_cons, this, if_true, sget]
      split
      · rfl
      · exact ih

/-- Reading the inserted key. -/
theorem sget_sins_self (d : Nat → α) (m : SMap α) (k : Nat) (v : α) (h : ∀ e ∈ m, e.1 ≠ k) :
    sget d (sins k v m) k = v := by
  induction m with
  | nil => simp [sins, sget]
  | cons e m ih =>
    have he : ¬ e.1 = k := h e (by simp)
    simp only [sins]
    split
    · simp [sget]
    · simp only [sget, he, if_false]
      exact ih (fun x hx => h x (List.mem_cons_of_mem _ hx))

/-- Inserting a key leaves every other key. -/
theorem sget_sins_ne (d : Nat → α) (m : SMap α) {k j : Nat} (v : α) (h : j ≠ k) : sget d (sins k v m) j = sget d m j := by
  induction m with
  | nil => simp [sins, sget, Ne.symm h]
  | cons e m ih =>
    simp only [sins]
    split
    · simp [sget, Ne.symm h]
    · simp only [sget]
      split
      · rfl
      · exact ih

/-- No key of an erased map is the erased one. -/
theorem serase_ne (m : SMap α) (k : Nat) : ∀ e ∈ serase m k, e.1 ≠ k := by
  intro e he
  have := (List.mem_filter.mp he).2
  simpa using this

variable [DecidableEq α]

/-- Reading the key that was set. -/
@[simp] theorem sget_sset_self (d : Nat → α) (m : SMap α) (k : Nat) (v : α) : sget d (sset d m k v) k = v := by
  unfold sset
  split
  · next h => rw [sget_serase_self, h]
  · exact sget_sins_self d _ k v (serase_ne m k)

/-- Setting a key leaves every other key. -/
theorem sget_sset_ne (d : Nat → α) (m : SMap α) {k j : Nat} (v : α) (h : j ≠ k) :
    sget d (sset d m k v) j = sget d m j := by
  unfold sset
  split
  · exact sget_serase_ne d m h
  · rw [sget_sins_ne d _ v h, sget_serase_ne d m h]

/-- Reading any key after a set. -/
theorem sget_sset (d : Nat → α) (m : SMap α) (k j : Nat) (v : α) :
    sget d (sset d m k v) j = if j = k then v else sget d m j := by
  split
  · next h => subst h; exact sget_sset_self d m j v
  · next h => exact sget_sset_ne d m v h

/- Canonical form -/

omit [DecidableEq α] in
/-- `sorted` read as a property. -/
theorem sorted_cons (e : Nat × α) (m : SMap α) :
    Memory.sorted (e :: m) = true ↔ (∀ x ∈ m, e.1 < x.1) ∧ Memory.sorted m = true := by
  simp [Memory.sorted, List.all_eq_true]

omit [DecidableEq α] in
/-- A filtered map stays sorted. -/
theorem sorted_filter (p : Nat × α → Bool) (m : SMap α) (h : Memory.sorted m = true) :
    Memory.sorted (m.filter p) = true := by
  induction m with
  | nil => exact h
  | cons e m ih =>
    obtain ⟨h1, h2⟩ := (sorted_cons e m).mp h
    by_cases hp : p e
    · simp only [List.filter_cons, hp, if_true]
      exact (sorted_cons _ _).mpr ⟨fun x hx => h1 x (List.mem_filter.mp hx).1, ih h2⟩
    · simp only [List.filter_cons, hp]
      exact ih h2

omit [DecidableEq α] in
/-- What an insertion holds. -/
theorem mem_sins (k : Nat) (v : α) (m : SMap α) (x : Nat × α) : x ∈ sins k v m ↔ x = (k, v) ∨ x ∈ m := by
  induction m with
  | nil => simp [sins]
  | cons e m ih =>
    simp only [sins]
    split
    · simp
    · rw [List.mem_cons, ih, or_left_comm, List.mem_cons]

omit [DecidableEq α] in
/-- Inserting a new key keeps the order. -/
theorem sorted_sins (k : Nat) (v : α) (m : SMap α) (hs : Memory.sorted m = true) (hk : ∀ e ∈ m, e.1 ≠ k) :
    Memory.sorted (sins k v m) = true := by
  induction m with
  | nil => simp [sins, Memory.sorted]
  | cons e m ih =>
    obtain ⟨h1, h2⟩ := (sorted_cons e m).mp hs
    simp only [sins]
    split
    · next hlt =>
      refine (sorted_cons _ _).mpr ⟨?_, hs⟩
      intro x hx
      rcases List.mem_cons.mp hx with rfl | hx
      · exact hlt
      · exact Nat.lt_trans hlt (h1 x hx)
    · next hge =>
      have hne : e.1 ≠ k := hk e (by simp)
      refine (sorted_cons _ _).mpr ⟨?_, ih h2 (fun x hx => hk x (List.mem_cons_of_mem _ hx))⟩
      intro x hx
      rcases (mem_sins k v m x).mp hx with rfl | hx
      · show e.1 < k
        omega
      · exact h1 x hx

/-- The canonical form, read as a property. -/
theorem wf_iff (d : Nat → α) (m : SMap α) :
    Memory.wf d m = true ↔ Memory.sorted m = true ∧ ∀ e ∈ m, e.2 ≠ d e.1 := by
  simp [Memory.wf, List.all_eq_true]

/-- The empty map is canonical. -/
@[simp] theorem wf_nil (d : Nat → α) : Memory.wf d ([] : SMap α) = true := rfl

/-- Removing entries keeps the canonical form. -/
theorem wf_filter (d : Nat → α) (p : Nat × α → Bool) (m : SMap α) (h : Memory.wf d m = true) :
    Memory.wf d (m.filter p) = true := by
  obtain ⟨h1, h2⟩ := (wf_iff d m).mp h
  exact (wf_iff d _).mpr ⟨sorted_filter p m h1, fun e he => h2 e (List.mem_filter.mp he).1⟩

/-- Erasing keeps the canonical form. -/
theorem wf_serase (d : Nat → α) (m : SMap α) (k : Nat) (h : Memory.wf d m = true) : Memory.wf d (serase m k) = true :=
  wf_filter d _ m h

/-- Clearing a range keeps the canonical form. -/
theorem wf_sclear (d : Nat → α) (m : SMap α) (lo len : Nat) (h : Memory.wf d m = true) :
    Memory.wf d (sclear m lo len) = true :=
  wf_filter d _ m h

/-- Setting keeps the canonical form. -/
theorem wf_sset (d : Nat → α) (m : SMap α) (k : Nat) (v : α) (h : Memory.wf d m = true) :
    Memory.wf d (sset d m k v) = true := by
  unfold sset
  split
  · exact wf_serase d m k h
  · next hv =>
    obtain ⟨h1, h2⟩ := (wf_iff d _).mp (wf_serase d m k h)
    refine (wf_iff d _).mpr ⟨sorted_sins k v _ h1 (serase_ne m k), ?_⟩
    intro e he
    rcases (mem_sins k v _ e).mp he with rfl | he
    · exact hv
    · exact h2 e he

end

/- Memories -/

/-- One byte of memory after a byte is set. -/
theorem sget_setByte (m : Mem) (a j : Nat) (b : Byte) : sget memDflt (setByte m a b) j = if j = a then b else sget memDflt m j :=
  sget_sset memDflt m a j b

/-- Storing bytes leaves every byte outside them. -/
theorem sget_putBytes_ne (m : Mem) (a : Nat) (bs : List Byte) (j : Nat) (h : j < a ∨ a + bs.length ≤ j) :
    sget memDflt (putBytes m a bs) j = sget memDflt m j := by
  induction bs generalizing m a with
  | nil => rfl
  | cons b bs ih =>
    simp only [List.length_cons] at h
    simp only [putBytes]
    rw [ih (setByte m a b) (a + 1) (by omega)]
    exact sget_sset_ne memDflt m b (by omega)

/-- Reading a stored byte. -/
theorem sget_putBytes_mem (m : Mem) (a : Nat) (bs : List Byte) (i : Nat) (h : i < bs.length) :
    sget memDflt (putBytes m a bs) (a + i) = bs[i] := by
  induction bs generalizing m a i with
  | nil => simp at h
  | cons b bs ih =>
    simp only [putBytes]
    cases i with
    | zero =>
      rw [sget_putBytes_ne _ (a + 1) bs (a + 0) (by omega)]
      simp [setByte]
    | succ i =>
      have := ih (setByte m a b) (a + 1) i (by simpa using h)
      rw [show a + (i + 1) = a + 1 + i by omega, this]
      rfl

/-- Every memory operation keeps the canonical form: one byte. -/
theorem wf_setByte (m : Mem) (a : Nat) (b : Byte) (h : Memory.wf memDflt m = true) : Memory.wf memDflt (setByte m a b) = true :=
  wf_sset memDflt m a b h

/-- Every memory operation keeps the canonical form: a run of bytes. -/
theorem wf_putBytes (m : Mem) (a : Nat) (bs : List Byte) (h : Memory.wf memDflt m = true) :
    Memory.wf memDflt (putBytes m a bs) = true := by
  induction bs generalizing m a with
  | nil => exact h
  | cons b bs ih => exact ih (setByte m a b) (a + 1) (wf_setByte m a b h)

/-- Clearing tags keeps the canonical form. -/
theorem wf_clearTags (t : SMap Bool) (a n : Nat) (h : Memory.wf markDflt t = true) : Memory.wf markDflt (clearTags t a n) = true := by
  unfold clearTags
  split
  · exact h
  · exact wf_sclear markDflt t _ _ h

/-- A run of bytes stored unit by unit keeps memory, tags and poison canonical. -/
theorem memWf_storeUnits (a : Nat) (bs : List Byte) (us : List (Nat × Nat)) (s : State) (h : s.memWf = true) :
    (storeUnits s a bs us).memWf = true := by
  induction us generalizing s with
  | nil => exact h
  | cons u us ih =>
    obtain ⟨u, w⟩ := u
    simp only [storeUnits]
    apply ih
    simp only [State.memWf, Bool.and_eq_true] at h ⊢
    obtain ⟨⟨⟨h1, h2⟩, h3⟩, h4⟩ := h
    split
    · exact ⟨⟨⟨h1, h2⟩, h3⟩, h4⟩
    · split
      · exact ⟨⟨⟨h1, h2⟩, h3⟩, h4⟩
      · dsimp only
        exact ⟨⟨⟨wf_putBytes _ _ _ h1, wf_clearTags _ _ _ h2⟩, wf_sset _ _ _ _ h3⟩, h4⟩

/-- Reset memory is canonical. -/
theorem memWf_reset : State.reset.memWf = true := rfl

end Sys2Proof.Machine
end

