-- ==== Sys2Proof/Laws/State.lean ====
section
/-! SUPPORT. One lemma per field per update of State, true by unfolding: what each single-field operation leaves. -/

namespace Sys2Proof.Machine

variable (s : State)

/- regSetFn -/

@[simp] theorem regSetFn_pending (fn off : Nat) (v : W64) : (regSetFn s fn off v).pending = s.pending := by unfold regSetFn; rfl
@[simp] theorem regSetFn_freeCtr (fn off : Nat) (v : W64) : (regSetFn s fn off v).freeCtr = s.freeCtr := by unfold regSetFn; rfl
@[simp] theorem regSetFn_out (fn off : Nat) (v : W64) : (regSetFn s fn off v).out = s.out := by unfold regSetFn; rfl
@[simp] theorem regSetFn_tbc (fn off : Nat) (v : W64) : (regSetFn s fn off v).tbc = s.tbc := by unfold regSetFn; rfl
@[simp] theorem regSetFn_time (fn off : Nat) (v : W64) : (regSetFn s fn off v).time = s.time := by unfold regSetFn; rfl
@[simp] theorem regSetFn_mem (fn off : Nat) (v : W64) : (regSetFn s fn off v).mem = s.mem := by unfold regSetFn; rfl
@[simp] theorem regSetFn_tags (fn off : Nat) (v : W64) : (regSetFn s fn off v).tags = s.tags := by unfold regSetFn; rfl
@[simp] theorem regSetFn_poison (fn off : Nat) (v : W64) : (regSetFn s fn off v).poison = s.poison := by unfold regSetFn; rfl
@[simp] theorem regSetFn_zeroed (fn off : Nat) (v : W64) : (regSetFn s fn off v).zeroed = s.zeroed := by unfold regSetFn; rfl
@[simp] theorem regSetFn_zeroFront (fn off : Nat) (v : W64) : (regSetFn s fn off v).zeroFront = s.zeroFront := by unfold regSetFn; rfl
@[simp] theorem regSetFn_hostMem (fn off : Nat) (v : W64) : (regSetFn s fn off v).hostMem = s.hostMem := by unfold regSetFn; rfl
@[simp] theorem regSetFn_flash (fn off : Nat) (v : W64) : (regSetFn s fn off v).flash = s.flash := by unfold regSetFn; rfl
@[simp] theorem regSetFn_minSvn (fn off : Nat) (v : W64) : (regSetFn s fn off v).minSvn = s.minSvn := by unfold regSetFn; rfl
@[simp] theorem regSetFn_revoked (fn off : Nat) (v : W64) : (regSetFn s fn off v).revoked = s.revoked := by unfold regSetFn; rfl
@[simp] theorem regSetFn_keyEra (fn off : Nat) (v : W64) : (regSetFn s fn off v).keyEra = s.keyEra := by unfold regSetFn; rfl
@[simp] theorem regSetFn_keyDraw (fn off : Nat) (v : W64) : (regSetFn s fn off v).keyDraw = s.keyDraw := by unfold regSetFn; rfl
@[simp] theorem regSetFn_advancing (fn off : Nat) (v : W64) : (regSetFn s fn off v).advancing = s.advancing := by unfold regSetFn; rfl
@[simp] theorem regSetFn_cores (fn off : Nat) (v : W64) : (regSetFn s fn off v).cores = s.cores := by unfold regSetFn; rfl
@[simp] theorem regSetFn_coresReleased (fn off : Nat) (v : W64) : (regSetFn s fn off v).coresReleased = s.coresReleased := by unfold regSetFn; rfl
@[simp] theorem regSetFn_acu (fn off : Nat) (v : W64) : (regSetFn s fn off v).acu = s.acu := by unfold regSetFn; rfl
@[simp] theorem regSetFn_funcs (fn off : Nat) (v : W64) : (regSetFn s fn off v).funcs = s.funcs := by unfold regSetFn; rfl
@[simp] theorem regSetFn_turnFn (fn off : Nat) (v : W64) : (regSetFn s fn off v).turnFn = s.turnFn := by unfold regSetFn; rfl
@[simp] theorem regSetFn_turnTaken (fn off : Nat) (v : W64) : (regSetFn s fn off v).turnTaken = s.turnTaken := by unfold regSetFn; rfl
@[simp] theorem regSetFn_vfEnable (fn off : Nat) (v : W64) : (regSetFn s fn off v).vfEnable = s.vfEnable := by unfold regSetFn; rfl
@[simp] theorem regSetFn_numVfs (fn off : Nat) (v : W64) : (regSetFn s fn off v).numVfs = s.numVfs := by unfold regSetFn; rfl
@[simp] theorem regSetFn_ops (fn off : Nat) (v : W64) : (regSetFn s fn off v).ops = s.ops := by unfold regSetFn; rfl
@[simp] theorem regSetFn_nextOp (fn off : Nat) (v : W64) : (regSetFn s fn off v).nextOp = s.nextOp := by unfold regSetFn; rfl
@[simp] theorem regSetFn_nextEnd (fn off : Nat) (v : W64) : (regSetFn s fn off v).nextEnd = s.nextEnd := by unfold regSetFn; rfl
@[simp] theorem regSetFn_queueSeq (fn off : Nat) (v : W64) : (regSetFn s fn off v).queueSeq = s.queueSeq := by unfold regSetFn; rfl
@[simp] theorem regSetFn_coveOwner (fn off : Nat) (v : W64) : (regSetFn s fn off v).coveOwner = s.coveOwner := by unfold regSetFn; rfl
@[simp] theorem regSetFn_coveClearing (fn off : Nat) (v : W64) : (regSetFn s fn off v).coveClearing = s.coveClearing := by unfold regSetFn; rfl
@[simp] theorem regSetFn_vctxOwner (fn off : Nat) (v : W64) : (regSetFn s fn off v).vctxOwner = s.vctxOwner := by unfold regSetFn; rfl
@[simp] theorem regSetFn_changeSet (fn off : Nat) (v : W64) : (regSetFn s fn off v).changeSet = s.changeSet := by unfold regSetFn; rfl
@[simp] theorem regSetFn_reqs (fn off : Nat) (v : W64) : (regSetFn s fn off v).reqs = s.reqs := by unfold regSetFn; rfl
@[simp] theorem regSetFn_nextRid (fn off : Nat) (v : W64) : (regSetFn s fn off v).nextRid = s.nextRid := by unfold regSetFn; rfl
@[simp] theorem regSetFn_class5 (fn off : Nat) (v : W64) : (regSetFn s fn off v).class5 = s.class5 := by unfold regSetFn; rfl
@[simp] theorem regSetFn_corrections (fn off : Nat) (v : W64) : (regSetFn s fn off v).corrections = s.corrections := by unfold regSetFn; rfl
@[simp] theorem regSetFn_wordsRecorded (fn off : Nat) (v : W64) : (regSetFn s fn off v).wordsRecorded = s.wordsRecorded := by unfold regSetFn; rfl
@[simp] theorem regSetFn_stopsHeld (fn off : Nat) (v : W64) : (regSetFn s fn off v).stopsHeld = s.stopsHeld := by unfold regSetFn; rfl
@[simp] theorem regSetFn_importBuf (fn off : Nat) (v : W64) : (regSetFn s fn off v).importBuf = s.importBuf := by unfold regSetFn; rfl
@[simp] theorem regSetFn_resetting (fn off : Nat) (v : W64) : (regSetFn s fn off v).resetting = s.resetting := by unfold regSetFn; rfl
@[simp] theorem regSetFn_strands (fn off : Nat) (v : W64) : (regSetFn s fn off v).strands = s.strands := by unfold regSetFn; rfl
@[simp] theorem regSetFn_vctxs (fn off : Nat) (v : W64) : (regSetFn s fn off v).vctxs = s.vctxs := by unfold regSetFn; rfl
@[simp] theorem regSetFn_pipes (fn off : Nat) (v : W64) : (regSetFn s fn off v).pipes = s.pipes := by unfold regSetFn; rfl
@[simp] theorem regSetFn_walks (fn off : Nat) (v : W64) : (regSetFn s fn off v).walks = s.walks := by unfold regSetFn; rfl
@[simp] theorem regSetFn_tables (fn off : Nat) (v : W64) : (regSetFn s fn off v).tables = s.tables := by unfold regSetFn; rfl
@[simp] theorem regSetFn_bound (fn off : Nat) (v : W64) : (regSetFn s fn off v).bound = s.bound := by unfold regSetFn; rfl
@[simp] theorem regSetFn_updates (fn off : Nat) (v : W64) : (regSetFn s fn off v).updates = s.updates := by unfold regSetFn; rfl
@[simp] theorem regSetFn_rowHolds (fn off : Nat) (v : W64) : (regSetFn s fn off v).rowHolds = s.rowHolds := by unfold regSetFn; rfl
@[simp] theorem regSetFn_dir (fn off : Nat) (v : W64) : (regSetFn s fn off v).dir = s.dir := by unfold regSetFn; rfl
@[simp] theorem regSetFn_skewNow (fn off : Nat) (v : W64) : (regSetFn s fn off v).skewNow = s.skewNow := by unfold regSetFn; rfl
@[simp] theorem regSetFn_skewLast (fn off : Nat) (v : W64) : (regSetFn s fn off v).skewLast = s.skewLast := by unfold regSetFn; rfl
@[simp] theorem regSetFn_skewPairs (fn off : Nat) (v : W64) : (regSetFn s fn off v).skewPairs = s.skewPairs := by unfold regSetFn; rfl
@[simp] theorem regSetFn_dtas (fn off : Nat) (v : W64) : (regSetFn s fn off v).dtas = s.dtas := by unfold regSetFn; rfl
@[simp] theorem regSetFn_hbm (fn off : Nat) (v : W64) : (regSetFn s fn off v).hbm = s.hbm := by unfold regSetFn; rfl
@[simp] theorem regSetFn_ports (fn off : Nat) (v : W64) : (regSetFn s fn off v).ports = s.ports := by unfold regSetFn; rfl
@[simp] theorem regSetFn_objects (fn off : Nat) (v : W64) : (regSetFn s fn off v).objects = s.objects := by unfold regSetFn; rfl
@[simp] theorem regSetFn_fabClk (fn off : Nat) (v : W64) : (regSetFn s fn off v).fabClk = s.fabClk := by unfold regSetFn; rfl
@[simp] theorem regSetFn_fabClkLostAt (fn off : Nat) (v : W64) : (regSetFn s fn off v).fabClkLostAt = s.fabClkLostAt := by unfold regSetFn; rfl
@[simp] theorem regSetFn_place (fn off : Nat) (v : W64) : (regSetFn s fn off v).place = s.place := by unfold regSetFn; rfl
@[simp] theorem regSetFn_planText (fn off : Nat) (v : W64) : (regSetFn s fn off v).planText = s.planText := by unfold regSetFn; rfl
@[simp] theorem regSetFn_plan (fn off : Nat) (v : W64) : (regSetFn s fn off v).plan = s.plan := by unfold regSetFn; rfl
@[simp] theorem regSetFn_power (fn off : Nat) (v : W64) : (regSetFn s fn off v).power = s.power := by unfold regSetFn; rfl
@[simp] theorem regSetFn_heldOps (fn off : Nat) (v : W64) : (regSetFn s fn off v).heldOps = s.heldOps := by unfold regSetFn; rfl
@[simp] theorem regSetFn_system (fn off : Nat) (v : W64) : (regSetFn s fn off v).system = s.system := by unfold regSetFn; rfl
@[simp] theorem regSetFn_boot (fn off : Nat) (v : W64) : (regSetFn s fn off v).boot = s.boot := by unfold regSetFn; rfl
@[simp] theorem regSetFn_tmcHeld (fn off : Nat) (v : W64) : (regSetFn s fn off v).tmcHeld = s.tmcHeld := by unfold regSetFn; rfl
@[simp] theorem regSetFn_regAddr (fn off : Nat) (v : W64) : (regSetFn s fn off v).regAddr = s.regAddr := by unfold regSetFn; rfl
@[simp] theorem regSetFn_jtag (fn off : Nat) (v : W64) : (regSetFn s fn off v).jtag = s.jtag := by unfold regSetFn; rfl

/- regSet -/

@[simp] theorem regSet_pending (off : Nat) (v : W64) : (regSet s off v).pending = s.pending := by unfold regSet regSetFn; rfl
@[simp] theorem regSet_freeCtr (off : Nat) (v : W64) : (regSet s off v).freeCtr = s.freeCtr := by unfold regSet regSetFn; rfl
@[simp] theorem regSet_out (off : Nat) (v : W64) : (regSet s off v).out = s.out := by unfold regSet regSetFn; rfl
@[simp] theorem regSet_tbc (off : Nat) (v : W64) : (regSet s off v).tbc = s.tbc := by unfold regSet regSetFn; rfl
@[simp] theorem regSet_time (off : Nat) (v : W64) : (regSet s off v).time = s.time := by unfold regSet regSetFn; rfl
@[simp] theorem regSet_mem (off : Nat) (v : W64) : (regSet s off v).mem = s.mem := by unfold regSet regSetFn; rfl
@[simp] theorem regSet_tags (off : Nat) (v : W64) : (regSet s off v).tags = s.tags := by unfold regSet regSetFn; rfl
@[simp] theorem regSet_poison (off : Nat) (v : W64) : (regSet s off v).poison = s.poison := by unfold regSet regSetFn; rfl
@[simp] theorem regSet_zeroed (off : Nat) (v : W64) : (regSet s off v).zeroed = s.zeroed := by unfold regSet regSetFn; rfl
@[simp] theorem regSet_zeroFront (off : Nat) (v : W64) : (regSet s off v).zeroFront = s.zeroFront := by unfold regSet regSetFn; rfl
@[simp] theorem regSet_hostMem (off : Nat) (v : W64) : (regSet s off v).hostMem = s.hostMem := by unfold regSet regSetFn; rfl
@[simp] theorem regSet_flash (off : Nat) (v : W64) : (regSet s off v).flash = s.flash := by unfold regSet regSetFn; rfl
@[simp] theorem regSet_minSvn (off : Nat) (v : W64) : (regSet s off v).minSvn = s.minSvn := by unfold regSet regSetFn; rfl
@[simp] theorem regSet_revoked (off : Nat) (v : W64) : (regSet s off v).revoked = s.revoked := by unfold regSet regSetFn; rfl
@[simp] theorem regSet_keyEra (off : Nat) (v : W64) : (regSet s off v).keyEra = s.keyEra := by unfold regSet regSetFn; rfl
@[simp] theorem regSet_keyDraw (off : Nat) (v : W64) : (regSet s off v).keyDraw = s.keyDraw := by unfold regSet regSetFn; rfl
@[simp] theorem regSet_advancing (off : Nat) (v : W64) : (regSet s off v).advancing = s.advancing := by unfold regSet regSetFn; rfl
@[simp] theorem regSet_cores (off : Nat) (v : W64) : (regSet s off v).cores = s.cores := by unfold regSet regSetFn; rfl
@[simp] theorem regSet_coresReleased (off : Nat) (v : W64) : (regSet s off v).coresReleased = s.coresReleased := by unfold regSet regSetFn; rfl
@[simp] theorem regSet_acu (off : Nat) (v : W64) : (regSet s off v).acu = s.acu := by unfold regSet regSetFn; rfl
@[simp] theorem regSet_funcs (off : Nat) (v : W64) : (regSet s off v).funcs = s.funcs := by unfold regSet regSetFn; rfl
@[simp] theorem regSet_turnFn (off : Nat) (v : W64) : (regSet s off v).turnFn = s.turnFn := by unfold regSet regSetFn; rfl
@[simp] theorem regSet_turnTaken (off : Nat) (v : W64) : (regSet s off v).turnTaken = s.turnTaken := by unfold regSet regSetFn; rfl
@[simp] theorem regSet_vfEnable (off : Nat) (v : W64) : (regSet s off v).vfEnable = s.vfEnable := by unfold regSet regSetFn; rfl
@[simp] theorem regSet_numVfs (off : Nat) (v : W64) : (regSet s off v).numVfs = s.numVfs := by unfold regSet regSetFn; rfl
@[simp] theorem regSet_ops (off : Nat) (v : W64) : (regSet s off v).ops = s.ops := by unfold regSet regSetFn; rfl
@[simp] theorem regSet_nextOp (off : Nat) (v : W64) : (regSet s off v).nextOp = s.nextOp := by unfold regSet regSetFn; rfl
@[simp] theorem regSet_nextEnd (off : Nat) (v : W64) : (regSet s off v).nextEnd = s.nextEnd := by unfold regSet regSetFn; rfl
@[simp] theorem regSet_queueSeq (off : Nat) (v : W64) : (regSet s off v).queueSeq = s.queueSeq := by unfold regSet regSetFn; rfl
@[simp] theorem regSet_coveOwner (off : Nat) (v : W64) : (regSet s off v).coveOwner = s.coveOwner := by unfold regSet regSetFn; rfl
@[simp] theorem regSet_coveClearing (off : Nat) (v : W64) : (regSet s off v).coveClearing = s.coveClearing := by unfold regSet regSetFn; rfl
@[simp] theorem regSet_vctxOwner (off : Nat) (v : W64) : (regSet s off v).vctxOwner = s.vctxOwner := by unfold regSet regSetFn; rfl
@[simp] theorem regSet_changeSet (off : Nat) (v : W64) : (regSet s off v).changeSet = s.changeSet := by unfold regSet regSetFn; rfl
@[simp] theorem regSet_reqs (off : Nat) (v : W64) : (regSet s off v).reqs = s.reqs := by unfold regSet regSetFn; rfl
@[simp] theorem regSet_nextRid (off : Nat) (v : W64) : (regSet s off v).nextRid = s.nextRid := by unfold regSet regSetFn; rfl
@[simp] theorem regSet_class5 (off : Nat) (v : W64) : (regSet s off v).class5 = s.class5 := by unfold regSet regSetFn; rfl
@[simp] theorem regSet_corrections (off : Nat) (v : W64) : (regSet s off v).corrections = s.corrections := by unfold regSet regSetFn; rfl
@[simp] theorem regSet_wordsRecorded (off : Nat) (v : W64) : (regSet s off v).wordsRecorded = s.wordsRecorded := by unfold regSet regSetFn; rfl
@[simp] theorem regSet_stopsHeld (off : Nat) (v : W64) : (regSet s off v).stopsHeld = s.stopsHeld := by unfold regSet regSetFn; rfl
@[simp] theorem regSet_importBuf (off : Nat) (v : W64) : (regSet s off v).importBuf = s.importBuf := by unfold regSet regSetFn; rfl
@[simp] theorem regSet_resetting (off : Nat) (v : W64) : (regSet s off v).resetting = s.resetting := by unfold regSet regSetFn; rfl
@[simp] theorem regSet_strands (off : Nat) (v : W64) : (regSet s off v).strands = s.strands := by unfold regSet regSetFn; rfl
@[simp] theorem regSet_vctxs (off : Nat) (v : W64) : (regSet s off v).vctxs = s.vctxs := by unfold regSet regSetFn; rfl
@[simp] theorem regSet_pipes (off : Nat) (v : W64) : (regSet s off v).pipes = s.pipes := by unfold regSet regSetFn; rfl
@[simp] theorem regSet_walks (off : Nat) (v : W64) : (regSet s off v).walks = s.walks := by unfold regSet regSetFn; rfl
@[simp] theorem regSet_tables (off : Nat) (v : W64) : (regSet s off v).tables = s.tables := by unfold regSet regSetFn; rfl
@[simp] theorem regSet_bound (off : Nat) (v : W64) : (regSet s off v).bound = s.bound := by unfold regSet regSetFn; rfl
@[simp] theorem regSet_updates (off : Nat) (v : W64) : (regSet s off v).updates = s.updates := by unfold regSet regSetFn; rfl
@[simp] theorem regSet_rowHolds (off : Nat) (v : W64) : (regSet s off v).rowHolds = s.rowHolds := by unfold regSet regSetFn; rfl
@[simp] theorem regSet_dir (off : Nat) (v : W64) : (regSet s off v).dir = s.dir := by unfold regSet regSetFn; rfl
@[simp] theorem regSet_skewNow (off : Nat) (v : W64) : (regSet s off v).skewNow = s.skewNow := by unfold regSet regSetFn; rfl
@[simp] theorem regSet_skewLast (off : Nat) (v : W64) : (regSet s off v).skewLast = s.skewLast := by unfold regSet regSetFn; rfl
@[simp] theorem regSet_skewPairs (off : Nat) (v : W64) : (regSet s off v).skewPairs = s.skewPairs := by unfold regSet regSetFn; rfl
@[simp] theorem regSet_dtas (off : Nat) (v : W64) : (regSet s off v).dtas = s.dtas := by unfold regSet regSetFn; rfl
@[simp] theorem regSet_hbm (off : Nat) (v : W64) : (regSet s off v).hbm = s.hbm := by unfold regSet regSetFn; rfl
@[simp] theorem regSet_ports (off : Nat) (v : W64) : (regSet s off v).ports = s.ports := by unfold regSet regSetFn; rfl
@[simp] theorem regSet_objects (off : Nat) (v : W64) : (regSet s off v).objects = s.objects := by unfold regSet regSetFn; rfl
@[simp] theorem regSet_fabClk (off : Nat) (v : W64) : (regSet s off v).fabClk = s.fabClk := by unfold regSet regSetFn; rfl
@[simp] theorem regSet_fabClkLostAt (off : Nat) (v : W64) : (regSet s off v).fabClkLostAt = s.fabClkLostAt := by unfold regSet regSetFn; rfl
@[simp] theorem regSet_place (off : Nat) (v : W64) : (regSet s off v).place = s.place := by unfold regSet regSetFn; rfl
@[simp] theorem regSet_planText (off : Nat) (v : W64) : (regSet s off v).planText = s.planText := by unfold regSet regSetFn; rfl
@[simp] theorem regSet_plan (off : Nat) (v : W64) : (regSet s off v).plan = s.plan := by unfold regSet regSetFn; rfl
@[simp] theorem regSet_power (off : Nat) (v : W64) : (regSet s off v).power = s.power := by unfold regSet regSetFn; rfl
@[simp] theorem regSet_heldOps (off : Nat) (v : W64) : (regSet s off v).heldOps = s.heldOps := by unfold regSet regSetFn; rfl
@[simp] theorem regSet_system (off : Nat) (v : W64) : (regSet s off v).system = s.system := by unfold regSet regSetFn; rfl
@[simp] theorem regSet_boot (off : Nat) (v : W64) : (regSet s off v).boot = s.boot := by unfold regSet regSetFn; rfl
@[simp] theorem regSet_tmcHeld (off : Nat) (v : W64) : (regSet s off v).tmcHeld = s.tmcHeld := by unfold regSet regSetFn; rfl
@[simp] theorem regSet_regAddr (off : Nat) (v : W64) : (regSet s off v).regAddr = s.regAddr := by unfold regSet regSetFn; rfl
@[simp] theorem regSet_jtag (off : Nat) (v : W64) : (regSet s off v).jtag = s.jtag := by unfold regSet regSetFn; rfl

/- regSetFldFn -/

@[simp] theorem regSetFldFn_pending (fn off lo w v : Nat) : (regSetFldFn s fn off lo w v).pending = s.pending := by unfold regSetFldFn regSetFn; rfl
@[simp] theorem regSetFldFn_freeCtr (fn off lo w v : Nat) : (regSetFldFn s fn off lo w v).freeCtr = s.freeCtr := by unfold regSetFldFn regSetFn; rfl
@[simp] theorem regSetFldFn_out (fn off lo w v : Nat) : (regSetFldFn s fn off lo w v).out = s.out := by unfold regSetFldFn regSetFn; rfl
@[simp] theorem regSetFldFn_tbc (fn off lo w v : Nat) : (regSetFldFn s fn off lo w v).tbc = s.tbc := by unfold regSetFldFn regSetFn; rfl
@[simp] theorem regSetFldFn_time (fn off lo w v : Nat) : (regSetFldFn s fn off lo w v).time = s.time := by unfold regSetFldFn regSetFn; rfl
@[simp] theorem regSetFldFn_mem (fn off lo w v : Nat) : (regSetFldFn s fn off lo w v).mem = s.mem := by unfold regSetFldFn regSetFn; rfl
@[simp] theorem regSetFldFn_tags (fn off lo w v : Nat) : (regSetFldFn s fn off lo w v).tags = s.tags := by unfold regSetFldFn regSetFn; rfl
@[simp] theorem regSetFldFn_poison (fn off lo w v : Nat) : (regSetFldFn s fn off lo w v).poison = s.poison := by unfold regSetFldFn regSetFn; rfl
@[simp] theorem regSetFldFn_zeroed (fn off lo w v : Nat) : (regSetFldFn s fn off lo w v).zeroed = s.zeroed := by unfold regSetFldFn regSetFn; rfl
@[simp] theorem regSetFldFn_zeroFront (fn off lo w v : Nat) : (regSetFldFn s fn off lo w v).zeroFront = s.zeroFront := by unfold regSetFldFn regSetFn; rfl
@[simp] theorem regSetFldFn_hostMem (fn off lo w v : Nat) : (regSetFldFn s fn off lo w v).hostMem = s.hostMem := by unfold regSetFldFn regSetFn; rfl
@[simp] theorem regSetFldFn_flash (fn off lo w v : Nat) : (regSetFldFn s fn off lo w v).flash = s.flash := by unfold regSetFldFn regSetFn; rfl
@[simp] theorem regSetFldFn_minSvn (fn off lo w v : Nat) : (regSetFldFn s fn off lo w v).minSvn = s.minSvn := by unfold regSetFldFn regSetFn; rfl
@[simp] theorem regSetFldFn_revoked (fn off lo w v : Nat) : (regSetFldFn s fn off lo w v).revoked = s.revoked := by unfold regSetFldFn regSetFn; rfl
@[simp] theorem regSetFldFn_keyEra (fn off lo w v : Nat) : (regSetFldFn s fn off lo w v).keyEra = s.keyEra := by unfold regSetFldFn regSetFn; rfl
@[simp] theorem regSetFldFn_keyDraw (fn off lo w v : Nat) : (regSetFldFn s fn off lo w v).keyDraw = s.keyDraw := by unfold regSetFldFn regSetFn; rfl
@[simp] theorem regSetFldFn_advancing (fn off lo w v : Nat) : (regSetFldFn s fn off lo w v).advancing = s.advancing := by unfold regSetFldFn regSetFn; rfl
@[simp] theorem regSetFldFn_cores (fn off lo w v : Nat) : (regSetFldFn s fn off lo w v).cores = s.cores := by unfold regSetFldFn regSetFn; rfl
@[simp] theorem regSetFldFn_coresReleased (fn off lo w v : Nat) : (regSetFldFn s fn off lo w v).coresReleased = s.coresReleased := by unfold regSetFldFn regSetFn; rfl
@[simp] theorem regSetFldFn_acu (fn off lo w v : Nat) : (regSetFldFn s fn off lo w v).acu = s.acu := by unfold regSetFldFn regSetFn; rfl
@[simp] theorem regSetFldFn_funcs (fn off lo w v : Nat) : (regSetFldFn s fn off lo w v).funcs = s.funcs := by unfold regSetFldFn regSetFn; rfl
@[simp] theorem regSetFldFn_turnFn (fn off lo w v : Nat) : (regSetFldFn s fn off lo w v).turnFn = s.turnFn := by unfold regSetFldFn regSetFn; rfl
@[simp] theorem regSetFldFn_turnTaken (fn off lo w v : Nat) : (regSetFldFn s fn off lo w v).turnTaken = s.turnTaken := by unfold regSetFldFn regSetFn; rfl
@[simp] theorem regSetFldFn_vfEnable (fn off lo w v : Nat) : (regSetFldFn s fn off lo w v).vfEnable = s.vfEnable := by unfold regSetFldFn regSetFn; rfl
@[simp] theorem regSetFldFn_numVfs (fn off lo w v : Nat) : (regSetFldFn s fn off lo w v).numVfs = s.numVfs := by unfold regSetFldFn regSetFn; rfl
@[simp] theorem regSetFldFn_ops (fn off lo w v : Nat) : (regSetFldFn s fn off lo w v).ops = s.ops := by unfold regSetFldFn regSetFn; rfl
@[simp] theorem regSetFldFn_nextOp (fn off lo w v : Nat) : (regSetFldFn s fn off lo w v).nextOp = s.nextOp := by unfold regSetFldFn regSetFn; rfl
@[simp] theorem regSetFldFn_nextEnd (fn off lo w v : Nat) : (regSetFldFn s fn off lo w v).nextEnd = s.nextEnd := by unfold regSetFldFn regSetFn; rfl
@[simp] theorem regSetFldFn_queueSeq (fn off lo w v : Nat) : (regSetFldFn s fn off lo w v).queueSeq = s.queueSeq := by unfold regSetFldFn regSetFn; rfl
@[simp] theorem regSetFldFn_coveOwner (fn off lo w v : Nat) : (regSetFldFn s fn off lo w v).coveOwner = s.coveOwner := by unfold regSetFldFn regSetFn; rfl
@[simp] theorem regSetFldFn_coveClearing (fn off lo w v : Nat) : (regSetFldFn s fn off lo w v).coveClearing = s.coveClearing := by unfold regSetFldFn regSetFn; rfl
@[simp] theorem regSetFldFn_vctxOwner (fn off lo w v : Nat) : (regSetFldFn s fn off lo w v).vctxOwner = s.vctxOwner := by unfold regSetFldFn regSetFn; rfl
@[simp] theorem regSetFldFn_changeSet (fn off lo w v : Nat) : (regSetFldFn s fn off lo w v).changeSet = s.changeSet := by unfold regSetFldFn regSetFn; rfl
@[simp] theorem regSetFldFn_reqs (fn off lo w v : Nat) : (regSetFldFn s fn off lo w v).reqs = s.reqs := by unfold regSetFldFn regSetFn; rfl
@[simp] theorem regSetFldFn_nextRid (fn off lo w v : Nat) : (regSetFldFn s fn off lo w v).nextRid = s.nextRid := by unfold regSetFldFn regSetFn; rfl
@[simp] theorem regSetFldFn_class5 (fn off lo w v : Nat) : (regSetFldFn s fn off lo w v).class5 = s.class5 := by unfold regSetFldFn regSetFn; rfl
@[simp] theorem regSetFldFn_corrections (fn off lo w v : Nat) : (regSetFldFn s fn off lo w v).corrections = s.corrections := by unfold regSetFldFn regSetFn; rfl
@[simp] theorem regSetFldFn_wordsRecorded (fn off lo w v : Nat) : (regSetFldFn s fn off lo w v).wordsRecorded = s.wordsRecorded := by unfold regSetFldFn regSetFn; rfl
@[simp] theorem regSetFldFn_stopsHeld (fn off lo w v : Nat) : (regSetFldFn s fn off lo w v).stopsHeld = s.stopsHeld := by unfold regSetFldFn regSetFn; rfl
@[simp] theorem regSetFldFn_importBuf (fn off lo w v : Nat) : (regSetFldFn s fn off lo w v).importBuf = s.importBuf := by unfold regSetFldFn regSetFn; rfl
@[simp] theorem regSetFldFn_resetting (fn off lo w v : Nat) : (regSetFldFn s fn off lo w v).resetting = s.resetting := by unfold regSetFldFn regSetFn; rfl
@[simp] theorem regSetFldFn_strands (fn off lo w v : Nat) : (regSetFldFn s fn off lo w v).strands = s.strands := by unfold regSetFldFn regSetFn; rfl
@[simp] theorem regSetFldFn_vctxs (fn off lo w v : Nat) : (regSetFldFn s fn off lo w v).vctxs = s.vctxs := by unfold regSetFldFn regSetFn; rfl
@[simp] theorem regSetFldFn_pipes (fn off lo w v : Nat) : (regSetFldFn s fn off lo w v).pipes = s.pipes := by unfold regSetFldFn regSetFn; rfl
@[simp] theorem regSetFldFn_walks (fn off lo w v : Nat) : (regSetFldFn s fn off lo w v).walks = s.walks := by unfold regSetFldFn regSetFn; rfl
@[simp] theorem regSetFldFn_tables (fn off lo w v : Nat) : (regSetFldFn s fn off lo w v).tables = s.tables := by unfold regSetFldFn regSetFn; rfl
@[simp] theorem regSetFldFn_bound (fn off lo w v : Nat) : (regSetFldFn s fn off lo w v).bound = s.bound := by unfold regSetFldFn regSetFn; rfl
@[simp] theorem regSetFldFn_updates (fn off lo w v : Nat) : (regSetFldFn s fn off lo w v).updates = s.updates := by unfold regSetFldFn regSetFn; rfl
@[simp] theorem regSetFldFn_rowHolds (fn off lo w v : Nat) : (regSetFldFn s fn off lo w v).rowHolds = s.rowHolds := by unfold regSetFldFn regSetFn; rfl
@[simp] theorem regSetFldFn_dir (fn off lo w v : Nat) : (regSetFldFn s fn off lo w v).dir = s.dir := by unfold regSetFldFn regSetFn; rfl
@[simp] theorem regSetFldFn_skewNow (fn off lo w v : Nat) : (regSetFldFn s fn off lo w v).skewNow = s.skewNow := by unfold regSetFldFn regSetFn; rfl
@[simp] theorem regSetFldFn_skewLast (fn off lo w v : Nat) : (regSetFldFn s fn off lo w v).skewLast = s.skewLast := by unfold regSetFldFn regSetFn; rfl
@[simp] theorem regSetFldFn_skewPairs (fn off lo w v : Nat) : (regSetFldFn s fn off lo w v).skewPairs = s.skewPairs := by unfold regSetFldFn regSetFn; rfl
@[simp] theorem regSetFldFn_dtas (fn off lo w v : Nat) : (regSetFldFn s fn off lo w v).dtas = s.dtas := by unfold regSetFldFn regSetFn; rfl
@[simp] theorem regSetFldFn_hbm (fn off lo w v : Nat) : (regSetFldFn s fn off lo w v).hbm = s.hbm := by unfold regSetFldFn regSetFn; rfl
@[simp] theorem regSetFldFn_ports (fn off lo w v : Nat) : (regSetFldFn s fn off lo w v).ports = s.ports := by unfold regSetFldFn regSetFn; rfl
@[simp] theorem regSetFldFn_objects (fn off lo w v : Nat) : (regSetFldFn s fn off lo w v).objects = s.objects := by unfold regSetFldFn regSetFn; rfl
@[simp] theorem regSetFldFn_fabClk (fn off lo w v : Nat) : (regSetFldFn s fn off lo w v).fabClk = s.fabClk := by unfold regSetFldFn regSetFn; rfl
@[simp] theorem regSetFldFn_fabClkLostAt (fn off lo w v : Nat) : (regSetFldFn s fn off lo w v).fabClkLostAt = s.fabClkLostAt := by unfold regSetFldFn regSetFn; rfl
@[simp] theorem regSetFldFn_place (fn off lo w v : Nat) : (regSetFldFn s fn off lo w v).place = s.place := by unfold regSetFldFn regSetFn; rfl
@[simp] theorem regSetFldFn_planText (fn off lo w v : Nat) : (regSetFldFn s fn off lo w v).planText = s.planText := by unfold regSetFldFn regSetFn; rfl
@[simp] theorem regSetFldFn_plan (fn off lo w v : Nat) : (regSetFldFn s fn off lo w v).plan = s.plan := by unfold regSetFldFn regSetFn; rfl
@[simp] theorem regSetFldFn_power (fn off lo w v : Nat) : (regSetFldFn s fn off lo w v).power = s.power := by unfold regSetFldFn regSetFn; rfl
@[simp] theorem regSetFldFn_heldOps (fn off lo w v : Nat) : (regSetFldFn s fn off lo w v).heldOps = s.heldOps := by unfold regSetFldFn regSetFn; rfl
@[simp] theorem regSetFldFn_system (fn off lo w v : Nat) : (regSetFldFn s fn off lo w v).system = s.system := by unfold regSetFldFn regSetFn; rfl
@[simp] theorem regSetFldFn_boot (fn off lo w v : Nat) : (regSetFldFn s fn off lo w v).boot = s.boot := by unfold regSetFldFn regSetFn; rfl
@[simp] theorem regSetFldFn_tmcHeld (fn off lo w v : Nat) : (regSetFldFn s fn off lo w v).tmcHeld = s.tmcHeld := by unfold regSetFldFn regSetFn; rfl
@[simp] theorem regSetFldFn_regAddr (fn off lo w v : Nat) : (regSetFldFn s fn off lo w v).regAddr = s.regAddr := by unfold regSetFldFn regSetFn; rfl
@[simp] theorem regSetFldFn_jtag (fn off lo w v : Nat) : (regSetFldFn s fn off lo w v).jtag = s.jtag := by unfold regSetFldFn regSetFn; rfl

/- regSetFld -/

@[simp] theorem regSetFld_pending (off lo w v : Nat) : (regSetFld s off lo w v).pending = s.pending := by unfold regSetFld regSetFldFn regSetFn; rfl
@[simp] theorem regSetFld_freeCtr (off lo w v : Nat) : (regSetFld s off lo w v).freeCtr = s.freeCtr := by unfold regSetFld regSetFldFn regSetFn; rfl
@[simp] theorem regSetFld_out (off lo w v : Nat) : (regSetFld s off lo w v).out = s.out := by unfold regSetFld regSetFldFn regSetFn; rfl
@[simp] theorem regSetFld_tbc (off lo w v : Nat) : (regSetFld s off lo w v).tbc = s.tbc := by unfold regSetFld regSetFldFn regSetFn; rfl
@[simp] theorem regSetFld_time (off lo w v : Nat) : (regSetFld s off lo w v).time = s.time := by unfold regSetFld regSetFldFn regSetFn; rfl
@[simp] theorem regSetFld_mem (off lo w v : Nat) : (regSetFld s off lo w v).mem = s.mem := by unfold regSetFld regSetFldFn regSetFn; rfl
@[simp] theorem regSetFld_tags (off lo w v : Nat) : (regSetFld s off lo w v).tags = s.tags := by unfold regSetFld regSetFldFn regSetFn; rfl
@[simp] theorem regSetFld_poison (off lo w v : Nat) : (regSetFld s off lo w v).poison = s.poison := by unfold regSetFld regSetFldFn regSetFn; rfl
@[simp] theorem regSetFld_zeroed (off lo w v : Nat) : (regSetFld s off lo w v).zeroed = s.zeroed := by unfold regSetFld regSetFldFn regSetFn; rfl
@[simp] theorem regSetFld_zeroFront (off lo w v : Nat) : (regSetFld s off lo w v).zeroFront = s.zeroFront := by unfold regSetFld regSetFldFn regSetFn; rfl
@[simp] theorem regSetFld_hostMem (off lo w v : Nat) : (regSetFld s off lo w v).hostMem = s.hostMem := by unfold regSetFld regSetFldFn regSetFn; rfl
@[simp] theorem regSetFld_flash (off lo w v : Nat) : (regSetFld s off lo w v).flash = s.flash := by unfold regSetFld regSetFldFn regSetFn; rfl
@[simp] theorem regSetFld_minSvn (off lo w v : Nat) : (regSetFld s off lo w v).minSvn = s.minSvn := by unfold regSetFld regSetFldFn regSetFn; rfl
@[simp] theorem regSetFld_revoked (off lo w v : Nat) : (regSetFld s off lo w v).revoked = s.revoked := by unfold regSetFld regSetFldFn regSetFn; rfl
@[simp] theorem regSetFld_keyEra (off lo w v : Nat) : (regSetFld s off lo w v).keyEra = s.keyEra := by unfold regSetFld regSetFldFn regSetFn; rfl
@[simp] theorem regSetFld_keyDraw (off lo w v : Nat) : (regSetFld s off lo w v).keyDraw = s.keyDraw := by unfold regSetFld regSetFldFn regSetFn; rfl
@[simp] theorem regSetFld_advancing (off lo w v : Nat) : (regSetFld s off lo w v).advancing = s.advancing := by unfold regSetFld regSetFldFn regSetFn; rfl
@[simp] theorem regSetFld_cores (off lo w v : Nat) : (regSetFld s off lo w v).cores = s.cores := by unfold regSetFld regSetFldFn regSetFn; rfl
@[simp] theorem regSetFld_coresReleased (off lo w v : Nat) : (regSetFld s off lo w v).coresReleased = s.coresReleased := by unfold regSetFld regSetFldFn regSetFn; rfl
@[simp] theorem regSetFld_acu (off lo w v : Nat) : (regSetFld s off lo w v).acu = s.acu := by unfold regSetFld regSetFldFn regSetFn; rfl
@[simp] theorem regSetFld_funcs (off lo w v : Nat) : (regSetFld s off lo w v).funcs = s.funcs := by unfold regSetFld regSetFldFn regSetFn; rfl
@[simp] theorem regSetFld_turnFn (off lo w v : Nat) : (regSetFld s off lo w v).turnFn = s.turnFn := by unfold regSetFld regSetFldFn regSetFn; rfl
@[simp] theorem regSetFld_turnTaken (off lo w v : Nat) : (regSetFld s off lo w v).turnTaken = s.turnTaken := by unfold regSetFld regSetFldFn regSetFn; rfl
@[simp] theorem regSetFld_vfEnable (off lo w v : Nat) : (regSetFld s off lo w v).vfEnable = s.vfEnable := by unfold regSetFld regSetFldFn regSetFn; rfl
@[simp] theorem regSetFld_numVfs (off lo w v : Nat) : (regSetFld s off lo w v).numVfs = s.numVfs := by unfold regSetFld regSetFldFn regSetFn; rfl
@[simp] theorem regSetFld_ops (off lo w v : Nat) : (regSetFld s off lo w v).ops = s.ops := by unfold regSetFld regSetFldFn regSetFn; rfl
@[simp] theorem regSetFld_nextOp (off lo w v : Nat) : (regSetFld s off lo w v).nextOp = s.nextOp := by unfold regSetFld regSetFldFn regSetFn; rfl
@[simp] theorem regSetFld_nextEnd (off lo w v : Nat) : (regSetFld s off lo w v).nextEnd = s.nextEnd := by unfold regSetFld regSetFldFn regSetFn; rfl
@[simp] theorem regSetFld_queueSeq (off lo w v : Nat) : (regSetFld s off lo w v).queueSeq = s.queueSeq := by unfold regSetFld regSetFldFn regSetFn; rfl
@[simp] theorem regSetFld_coveOwner (off lo w v : Nat) : (regSetFld s off lo w v).coveOwner = s.coveOwner := by unfold regSetFld regSetFldFn regSetFn; rfl
@[simp] theorem regSetFld_coveClearing (off lo w v : Nat) : (regSetFld s off lo w v).coveClearing = s.coveClearing := by unfold regSetFld regSetFldFn regSetFn; rfl
@[simp] theorem regSetFld_vctxOwner (off lo w v : Nat) : (regSetFld s off lo w v).vctxOwner = s.vctxOwner := by unfold regSetFld regSetFldFn regSetFn; rfl
@[simp] theorem regSetFld_changeSet (off lo w v : Nat) : (regSetFld s off lo w v).changeSet = s.changeSet := by unfold regSetFld regSetFldFn regSetFn; rfl
@[simp] theorem regSetFld_reqs (off lo w v : Nat) : (regSetFld s off lo w v).reqs = s.reqs := by unfold regSetFld regSetFldFn regSetFn; rfl
@[simp] theorem regSetFld_nextRid (off lo w v : Nat) : (regSetFld s off lo w v).nextRid = s.nextRid := by unfold regSetFld regSetFldFn regSetFn; rfl
@[simp] theorem regSetFld_class5 (off lo w v : Nat) : (regSetFld s off lo w v).class5 = s.class5 := by unfold regSetFld regSetFldFn regSetFn; rfl
@[simp] theorem regSetFld_corrections (off lo w v : Nat) : (regSetFld s off lo w v).corrections = s.corrections := by unfold regSetFld regSetFldFn regSetFn; rfl
@[simp] theorem regSetFld_wordsRecorded (off lo w v : Nat) : (regSetFld s off lo w v).wordsRecorded = s.wordsRecorded := by unfold regSetFld regSetFldFn regSetFn; rfl
@[simp] theorem regSetFld_stopsHeld (off lo w v : Nat) : (regSetFld s off lo w v).stopsHeld = s.stopsHeld := by unfold regSetFld regSetFldFn regSetFn; rfl
@[simp] theorem regSetFld_importBuf (off lo w v : Nat) : (regSetFld s off lo w v).importBuf = s.importBuf := by unfold regSetFld regSetFldFn regSetFn; rfl
@[simp] theorem regSetFld_resetting (off lo w v : Nat) : (regSetFld s off lo w v).resetting = s.resetting := by unfold regSetFld regSetFldFn regSetFn; rfl
@[simp] theorem regSetFld_strands (off lo w v : Nat) : (regSetFld s off lo w v).strands = s.strands := by unfold regSetFld regSetFldFn regSetFn; rfl
@[simp] theorem regSetFld_vctxs (off lo w v : Nat) : (regSetFld s off lo w v).vctxs = s.vctxs := by unfold regSetFld regSetFldFn regSetFn; rfl
@[simp] theorem regSetFld_pipes (off lo w v : Nat) : (regSetFld s off lo w v).pipes = s.pipes := by unfold regSetFld regSetFldFn regSetFn; rfl
@[simp] theorem regSetFld_walks (off lo w v : Nat) : (regSetFld s off lo w v).walks = s.walks := by unfold regSetFld regSetFldFn regSetFn; rfl
@[simp] theorem regSetFld_tables (off lo w v : Nat) : (regSetFld s off lo w v).tables = s.tables := by unfold regSetFld regSetFldFn regSetFn; rfl
@[simp] theorem regSetFld_bound (off lo w v : Nat) : (regSetFld s off lo w v).bound = s.bound := by unfold regSetFld regSetFldFn regSetFn; rfl
@[simp] theorem regSetFld_updates (off lo w v : Nat) : (regSetFld s off lo w v).updates = s.updates := by unfold regSetFld regSetFldFn regSetFn; rfl
@[simp] theorem regSetFld_rowHolds (off lo w v : Nat) : (regSetFld s off lo w v).rowHolds = s.rowHolds := by unfold regSetFld regSetFldFn regSetFn; rfl
@[simp] theorem regSetFld_dir (off lo w v : Nat) : (regSetFld s off lo w v).dir = s.dir := by unfold regSetFld regSetFldFn regSetFn; rfl
@[simp] theorem regSetFld_skewNow (off lo w v : Nat) : (regSetFld s off lo w v).skewNow = s.skewNow := by unfold regSetFld regSetFldFn regSetFn; rfl
@[simp] theorem regSetFld_skewLast (off lo w v : Nat) : (regSetFld s off lo w v).skewLast = s.skewLast := by unfold regSetFld regSetFldFn regSetFn; rfl
@[simp] theorem regSetFld_skewPairs (off lo w v : Nat) : (regSetFld s off lo w v).skewPairs = s.skewPairs := by unfold regSetFld regSetFldFn regSetFn; rfl
@[simp] theorem regSetFld_dtas (off lo w v : Nat) : (regSetFld s off lo w v).dtas = s.dtas := by unfold regSetFld regSetFldFn regSetFn; rfl
@[simp] theorem regSetFld_hbm (off lo w v : Nat) : (regSetFld s off lo w v).hbm = s.hbm := by unfold regSetFld regSetFldFn regSetFn; rfl
@[simp] theorem regSetFld_ports (off lo w v : Nat) : (regSetFld s off lo w v).ports = s.ports := by unfold regSetFld regSetFldFn regSetFn; rfl
@[simp] theorem regSetFld_objects (off lo w v : Nat) : (regSetFld s off lo w v).objects = s.objects := by unfold regSetFld regSetFldFn regSetFn; rfl
@[simp] theorem regSetFld_fabClk (off lo w v : Nat) : (regSetFld s off lo w v).fabClk = s.fabClk := by unfold regSetFld regSetFldFn regSetFn; rfl
@[simp] theorem regSetFld_fabClkLostAt (off lo w v : Nat) : (regSetFld s off lo w v).fabClkLostAt = s.fabClkLostAt := by unfold regSetFld regSetFldFn regSetFn; rfl
@[simp] theorem regSetFld_place (off lo w v : Nat) : (regSetFld s off lo w v).place = s.place := by unfold regSetFld regSetFldFn regSetFn; rfl
@[simp] theorem regSetFld_planText (off lo w v : Nat) : (regSetFld s off lo w v).planText = s.planText := by unfold regSetFld regSetFldFn regSetFn; rfl
@[simp] theorem regSetFld_plan (off lo w v : Nat) : (regSetFld s off lo w v).plan = s.plan := by unfold regSetFld regSetFldFn regSetFn; rfl
@[simp] theorem regSetFld_power (off lo w v : Nat) : (regSetFld s off lo w v).power = s.power := by unfold regSetFld regSetFldFn regSetFn; rfl
@[simp] theorem regSetFld_heldOps (off lo w v : Nat) : (regSetFld s off lo w v).heldOps = s.heldOps := by unfold regSetFld regSetFldFn regSetFn; rfl
@[simp] theorem regSetFld_system (off lo w v : Nat) : (regSetFld s off lo w v).system = s.system := by unfold regSetFld regSetFldFn regSetFn; rfl
@[simp] theorem regSetFld_boot (off lo w v : Nat) : (regSetFld s off lo w v).boot = s.boot := by unfold regSetFld regSetFldFn regSetFn; rfl
@[simp] theorem regSetFld_tmcHeld (off lo w v : Nat) : (regSetFld s off lo w v).tmcHeld = s.tmcHeld := by unfold regSetFld regSetFldFn regSetFn; rfl
@[simp] theorem regSetFld_regAddr (off lo w v : Nat) : (regSetFld s off lo w v).regAddr = s.regAddr := by unfold regSetFld regSetFldFn regSetFn; rfl
@[simp] theorem regSetFld_jtag (off lo w v : Nat) : (regSetFld s off lo w v).jtag = s.jtag := by unfold regSetFld regSetFldFn regSetFn; rfl

/- regOr -/

@[simp] theorem regOr_pending (off mask : Nat) : (regOr s off mask).pending = s.pending := by unfold regOr regSet regSetFn; rfl
@[simp] theorem regOr_freeCtr (off mask : Nat) : (regOr s off mask).freeCtr = s.freeCtr := by unfold regOr regSet regSetFn; rfl
@[simp] theorem regOr_out (off mask : Nat) : (regOr s off mask).out = s.out := by unfold regOr regSet regSetFn; rfl
@[simp] theorem regOr_tbc (off mask : Nat) : (regOr s off mask).tbc = s.tbc := by unfold regOr regSet regSetFn; rfl
@[simp] theorem regOr_time (off mask : Nat) : (regOr s off mask).time = s.time := by unfold regOr regSet regSetFn; rfl
@[simp] theorem regOr_mem (off mask : Nat) : (regOr s off mask).mem = s.mem := by unfold regOr regSet regSetFn; rfl
@[simp] theorem regOr_tags (off mask : Nat) : (regOr s off mask).tags = s.tags := by unfold regOr regSet regSetFn; rfl
@[simp] theorem regOr_poison (off mask : Nat) : (regOr s off mask).poison = s.poison := by unfold regOr regSet regSetFn; rfl
@[simp] theorem regOr_zeroed (off mask : Nat) : (regOr s off mask).zeroed = s.zeroed := by unfold regOr regSet regSetFn; rfl
@[simp] theorem regOr_zeroFront (off mask : Nat) : (regOr s off mask).zeroFront = s.zeroFront := by unfold regOr regSet regSetFn; rfl
@[simp] theorem regOr_hostMem (off mask : Nat) : (regOr s off mask).hostMem = s.hostMem := by unfold regOr regSet regSetFn; rfl
@[simp] theorem regOr_flash (off mask : Nat) : (regOr s off mask).flash = s.flash := by unfold regOr regSet regSetFn; rfl
@[simp] theorem regOr_minSvn (off mask : Nat) : (regOr s off mask).minSvn = s.minSvn := by unfold regOr regSet regSetFn; rfl
@[simp] theorem regOr_revoked (off mask : Nat) : (regOr s off mask).revoked = s.revoked := by unfold regOr regSet regSetFn; rfl
@[simp] theorem regOr_keyEra (off mask : Nat) : (regOr s off mask).keyEra = s.keyEra := by unfold regOr regSet regSetFn; rfl
@[simp] theorem regOr_keyDraw (off mask : Nat) : (regOr s off mask).keyDraw = s.keyDraw := by unfold regOr regSet regSetFn; rfl
@[simp] theorem regOr_advancing (off mask : Nat) : (regOr s off mask).advancing = s.advancing := by unfold regOr regSet regSetFn; rfl
@[simp] theorem regOr_cores (off mask : Nat) : (regOr s off mask).cores = s.cores := by unfold regOr regSet regSetFn; rfl
@[simp] theorem regOr_coresReleased (off mask : Nat) : (regOr s off mask).coresReleased = s.coresReleased := by unfold regOr regSet regSetFn; rfl
@[simp] theorem regOr_acu (off mask : Nat) : (regOr s off mask).acu = s.acu := by unfold regOr regSet regSetFn; rfl
@[simp] theorem regOr_funcs (off mask : Nat) : (regOr s off mask).funcs = s.funcs := by unfold regOr regSet regSetFn; rfl
@[simp] theorem regOr_turnFn (off mask : Nat) : (regOr s off mask).turnFn = s.turnFn := by unfold regOr regSet regSetFn; rfl
@[simp] theorem regOr_turnTaken (off mask : Nat) : (regOr s off mask).turnTaken = s.turnTaken := by unfold regOr regSet regSetFn; rfl
@[simp] theorem regOr_vfEnable (off mask : Nat) : (regOr s off mask).vfEnable = s.vfEnable := by unfold regOr regSet regSetFn; rfl
@[simp] theorem regOr_numVfs (off mask : Nat) : (regOr s off mask).numVfs = s.numVfs := by unfold regOr regSet regSetFn; rfl
@[simp] theorem regOr_ops (off mask : Nat) : (regOr s off mask).ops = s.ops := by unfold regOr regSet regSetFn; rfl
@[simp] theorem regOr_nextOp (off mask : Nat) : (regOr s off mask).nextOp = s.nextOp := by unfold regOr regSet regSetFn; rfl
@[simp] theorem regOr_nextEnd (off mask : Nat) : (regOr s off mask).nextEnd = s.nextEnd := by unfold regOr regSet regSetFn; rfl
@[simp] theorem regOr_queueSeq (off mask : Nat) : (regOr s off mask).queueSeq = s.queueSeq := by unfold regOr regSet regSetFn; rfl
@[simp] theorem regOr_coveOwner (off mask : Nat) : (regOr s off mask).coveOwner = s.coveOwner := by unfold regOr regSet regSetFn; rfl
@[simp] theorem regOr_coveClearing (off mask : Nat) : (regOr s off mask).coveClearing = s.coveClearing := by unfold regOr regSet regSetFn; rfl
@[simp] theorem regOr_vctxOwner (off mask : Nat) : (regOr s off mask).vctxOwner = s.vctxOwner := by unfold regOr regSet regSetFn; rfl
@[simp] theorem regOr_changeSet (off mask : Nat) : (regOr s off mask).changeSet = s.changeSet := by unfold regOr regSet regSetFn; rfl
@[simp] theorem regOr_reqs (off mask : Nat) : (regOr s off mask).reqs = s.reqs := by unfold regOr regSet regSetFn; rfl
@[simp] theorem regOr_nextRid (off mask : Nat) : (regOr s off mask).nextRid = s.nextRid := by unfold regOr regSet regSetFn; rfl
@[simp] theorem regOr_class5 (off mask : Nat) : (regOr s off mask).class5 = s.class5 := by unfold regOr regSet regSetFn; rfl
@[simp] theorem regOr_corrections (off mask : Nat) : (regOr s off mask).corrections = s.corrections := by unfold regOr regSet regSetFn; rfl
@[simp] theorem regOr_wordsRecorded (off mask : Nat) : (regOr s off mask).wordsRecorded = s.wordsRecorded := by unfold regOr regSet regSetFn; rfl
@[simp] theorem regOr_stopsHeld (off mask : Nat) : (regOr s off mask).stopsHeld = s.stopsHeld := by unfold regOr regSet regSetFn; rfl
@[simp] theorem regOr_importBuf (off mask : Nat) : (regOr s off mask).importBuf = s.importBuf := by unfold regOr regSet regSetFn; rfl
@[simp] theorem regOr_resetting (off mask : Nat) : (regOr s off mask).resetting = s.resetting := by unfold regOr regSet regSetFn; rfl
@[simp] theorem regOr_strands (off mask : Nat) : (regOr s off mask).strands = s.strands := by unfold regOr regSet regSetFn; rfl
@[simp] theorem regOr_vctxs (off mask : Nat) : (regOr s off mask).vctxs = s.vctxs := by unfold regOr regSet regSetFn; rfl
@[simp] theorem regOr_pipes (off mask : Nat) : (regOr s off mask).pipes = s.pipes := by unfold regOr regSet regSetFn; rfl
@[simp] theorem regOr_walks (off mask : Nat) : (regOr s off mask).walks = s.walks := by unfold regOr regSet regSetFn; rfl
@[simp] theorem regOr_tables (off mask : Nat) : (regOr s off mask).tables = s.tables := by unfold regOr regSet regSetFn; rfl
@[simp] theorem regOr_bound (off mask : Nat) : (regOr s off mask).bound = s.bound := by unfold regOr regSet regSetFn; rfl
@[simp] theorem regOr_updates (off mask : Nat) : (regOr s off mask).updates = s.updates := by unfold regOr regSet regSetFn; rfl
@[simp] theorem regOr_rowHolds (off mask : Nat) : (regOr s off mask).rowHolds = s.rowHolds := by unfold regOr regSet regSetFn; rfl
@[simp] theorem regOr_dir (off mask : Nat) : (regOr s off mask).dir = s.dir := by unfold regOr regSet regSetFn; rfl
@[simp] theorem regOr_skewNow (off mask : Nat) : (regOr s off mask).skewNow = s.skewNow := by unfold regOr regSet regSetFn; rfl
@[simp] theorem regOr_skewLast (off mask : Nat) : (regOr s off mask).skewLast = s.skewLast := by unfold regOr regSet regSetFn; rfl
@[simp] theorem regOr_skewPairs (off mask : Nat) : (regOr s off mask).skewPairs = s.skewPairs := by unfold regOr regSet regSetFn; rfl
@[simp] theorem regOr_dtas (off mask : Nat) : (regOr s off mask).dtas = s.dtas := by unfold regOr regSet regSetFn; rfl
@[simp] theorem regOr_hbm (off mask : Nat) : (regOr s off mask).hbm = s.hbm := by unfold regOr regSet regSetFn; rfl
@[simp] theorem regOr_ports (off mask : Nat) : (regOr s off mask).ports = s.ports := by unfold regOr regSet regSetFn; rfl
@[simp] theorem regOr_objects (off mask : Nat) : (regOr s off mask).objects = s.objects := by unfold regOr regSet regSetFn; rfl
@[simp] theorem regOr_fabClk (off mask : Nat) : (regOr s off mask).fabClk = s.fabClk := by unfold regOr regSet regSetFn; rfl
@[simp] theorem regOr_fabClkLostAt (off mask : Nat) : (regOr s off mask).fabClkLostAt = s.fabClkLostAt := by unfold regOr regSet regSetFn; rfl
@[simp] theorem regOr_place (off mask : Nat) : (regOr s off mask).place = s.place := by unfold regOr regSet regSetFn; rfl
@[simp] theorem regOr_planText (off mask : Nat) : (regOr s off mask).planText = s.planText := by unfold regOr regSet regSetFn; rfl
@[simp] theorem regOr_plan (off mask : Nat) : (regOr s off mask).plan = s.plan := by unfold regOr regSet regSetFn; rfl
@[simp] theorem regOr_power (off mask : Nat) : (regOr s off mask).power = s.power := by unfold regOr regSet regSetFn; rfl
@[simp] theorem regOr_heldOps (off mask : Nat) : (regOr s off mask).heldOps = s.heldOps := by unfold regOr regSet regSetFn; rfl
@[simp] theorem regOr_system (off mask : Nat) : (regOr s off mask).system = s.system := by unfold regOr regSet regSetFn; rfl
@[simp] theorem regOr_boot (off mask : Nat) : (regOr s off mask).boot = s.boot := by unfold regOr regSet regSetFn; rfl
@[simp] theorem regOr_tmcHeld (off mask : Nat) : (regOr s off mask).tmcHeld = s.tmcHeld := by unfold regOr regSet regSetFn; rfl
@[simp] theorem regOr_regAddr (off mask : Nat) : (regOr s off mask).regAddr = s.regAddr := by unfold regOr regSet regSetFn; rfl
@[simp] theorem regOr_jtag (off mask : Nat) : (regOr s off mask).jtag = s.jtag := by unfold regOr regSet regSetFn; rfl

/- regClr -/

@[simp] theorem regClr_pending (off mask : Nat) : (regClr s off mask).pending = s.pending := by unfold regClr regSet regSetFn; rfl
@[simp] theorem regClr_freeCtr (off mask : Nat) : (regClr s off mask).freeCtr = s.freeCtr := by unfold regClr regSet regSetFn; rfl
@[simp] theorem regClr_out (off mask : Nat) : (regClr s off mask).out = s.out := by unfold regClr regSet regSetFn; rfl
@[simp] theorem regClr_tbc (off mask : Nat) : (regClr s off mask).tbc = s.tbc := by unfold regClr regSet regSetFn; rfl
@[simp] theorem regClr_time (off mask : Nat) : (regClr s off mask).time = s.time := by unfold regClr regSet regSetFn; rfl
@[simp] theorem regClr_mem (off mask : Nat) : (regClr s off mask).mem = s.mem := by unfold regClr regSet regSetFn; rfl
@[simp] theorem regClr_tags (off mask : Nat) : (regClr s off mask).tags = s.tags := by unfold regClr regSet regSetFn; rfl
@[simp] theorem regClr_poison (off mask : Nat) : (regClr s off mask).poison = s.poison := by unfold regClr regSet regSetFn; rfl
@[simp] theorem regClr_zeroed (off mask : Nat) : (regClr s off mask).zeroed = s.zeroed := by unfold regClr regSet regSetFn; rfl
@[simp] theorem regClr_zeroFront (off mask : Nat) : (regClr s off mask).zeroFront = s.zeroFront := by unfold regClr regSet regSetFn; rfl
@[simp] theorem regClr_hostMem (off mask : Nat) : (regClr s off mask).hostMem = s.hostMem := by unfold regClr regSet regSetFn; rfl
@[simp] theorem regClr_flash (off mask : Nat) : (regClr s off mask).flash = s.flash := by unfold regClr regSet regSetFn; rfl
@[simp] theorem regClr_minSvn (off mask : Nat) : (regClr s off mask).minSvn = s.minSvn := by unfold regClr regSet regSetFn; rfl
@[simp] theorem regClr_revoked (off mask : Nat) : (regClr s off mask).revoked = s.revoked := by unfold regClr regSet regSetFn; rfl
@[simp] theorem regClr_keyEra (off mask : Nat) : (regClr s off mask).keyEra = s.keyEra := by unfold regClr regSet regSetFn; rfl
@[simp] theorem regClr_keyDraw (off mask : Nat) : (regClr s off mask).keyDraw = s.keyDraw := by unfold regClr regSet regSetFn; rfl
@[simp] theorem regClr_advancing (off mask : Nat) : (regClr s off mask).advancing = s.advancing := by unfold regClr regSet regSetFn; rfl
@[simp] theorem regClr_cores (off mask : Nat) : (regClr s off mask).cores = s.cores := by unfold regClr regSet regSetFn; rfl
@[simp] theorem regClr_coresReleased (off mask : Nat) : (regClr s off mask).coresReleased = s.coresReleased := by unfold regClr regSet regSetFn; rfl
@[simp] theorem regClr_acu (off mask : Nat) : (regClr s off mask).acu = s.acu := by unfold regClr regSet regSetFn; rfl
@[simp] theorem regClr_funcs (off mask : Nat) : (regClr s off mask).funcs = s.funcs := by unfold regClr regSet regSetFn; rfl
@[simp] theorem regClr_turnFn (off mask : Nat) : (regClr s off mask).turnFn = s.turnFn := by unfold regClr regSet regSetFn; rfl
@[simp] theorem regClr_turnTaken (off mask : Nat) : (regClr s off mask).turnTaken = s.turnTaken := by unfold regClr regSet regSetFn; rfl
@[simp] theorem regClr_vfEnable (off mask : Nat) : (regClr s off mask).vfEnable = s.vfEnable := by unfold regClr regSet regSetFn; rfl
@[simp] theorem regClr_numVfs (off mask : Nat) : (regClr s off mask).numVfs = s.numVfs := by unfold regClr regSet regSetFn; rfl
@[simp] theorem regClr_ops (off mask : Nat) : (regClr s off mask).ops = s.ops := by unfold regClr regSet regSetFn; rfl
@[simp] theorem regClr_nextOp (off mask : Nat) : (regClr s off mask).nextOp = s.nextOp := by unfold regClr regSet regSetFn; rfl
@[simp] theorem regClr_nextEnd (off mask : Nat) : (regClr s off mask).nextEnd = s.nextEnd := by unfold regClr regSet regSetFn; rfl
@[simp] theorem regClr_queueSeq (off mask : Nat) : (regClr s off mask).queueSeq = s.queueSeq := by unfold regClr regSet regSetFn; rfl
@[simp] theorem regClr_coveOwner (off mask : Nat) : (regClr s off mask).coveOwner = s.coveOwner := by unfold regClr regSet regSetFn; rfl
@[simp] theorem regClr_coveClearing (off mask : Nat) : (regClr s off mask).coveClearing = s.coveClearing := by unfold regClr regSet regSetFn; rfl
@[simp] theorem regClr_vctxOwner (off mask : Nat) : (regClr s off mask).vctxOwner = s.vctxOwner := by unfold regClr regSet regSetFn; rfl
@[simp] theorem regClr_changeSet (off mask : Nat) : (regClr s off mask).changeSet = s.changeSet := by unfold regClr regSet regSetFn; rfl
@[simp] theorem regClr_reqs (off mask : Nat) : (regClr s off mask).reqs = s.reqs := by unfold regClr regSet regSetFn; rfl
@[simp] theorem regClr_nextRid (off mask : Nat) : (regClr s off mask).nextRid = s.nextRid := by unfold regClr regSet regSetFn; rfl
@[simp] theorem regClr_class5 (off mask : Nat) : (regClr s off mask).class5 = s.class5 := by unfold regClr regSet regSetFn; rfl
@[simp] theorem regClr_corrections (off mask : Nat) : (regClr s off mask).corrections = s.corrections := by unfold regClr regSet regSetFn; rfl
@[simp] theorem regClr_wordsRecorded (off mask : Nat) : (regClr s off mask).wordsRecorded = s.wordsRecorded := by unfold regClr regSet regSetFn; rfl
@[simp] theorem regClr_stopsHeld (off mask : Nat) : (regClr s off mask).stopsHeld = s.stopsHeld := by unfold regClr regSet regSetFn; rfl
@[simp] theorem regClr_importBuf (off mask : Nat) : (regClr s off mask).importBuf = s.importBuf := by unfold regClr regSet regSetFn; rfl
@[simp] theorem regClr_resetting (off mask : Nat) : (regClr s off mask).resetting = s.resetting := by unfold regClr regSet regSetFn; rfl
@[simp] theorem regClr_strands (off mask : Nat) : (regClr s off mask).strands = s.strands := by unfold regClr regSet regSetFn; rfl
@[simp] theorem regClr_vctxs (off mask : Nat) : (regClr s off mask).vctxs = s.vctxs := by unfold regClr regSet regSetFn; rfl
@[simp] theorem regClr_pipes (off mask : Nat) : (regClr s off mask).pipes = s.pipes := by unfold regClr regSet regSetFn; rfl
@[simp] theorem regClr_walks (off mask : Nat) : (regClr s off mask).walks = s.walks := by unfold regClr regSet regSetFn; rfl
@[simp] theorem regClr_tables (off mask : Nat) : (regClr s off mask).tables = s.tables := by unfold regClr regSet regSetFn; rfl
@[simp] theorem regClr_bound (off mask : Nat) : (regClr s off mask).bound = s.bound := by unfold regClr regSet regSetFn; rfl
@[simp] theorem regClr_updates (off mask : Nat) : (regClr s off mask).updates = s.updates := by unfold regClr regSet regSetFn; rfl
@[simp] theorem regClr_rowHolds (off mask : Nat) : (regClr s off mask).rowHolds = s.rowHolds := by unfold regClr regSet regSetFn; rfl
@[simp] theorem regClr_dir (off mask : Nat) : (regClr s off mask).dir = s.dir := by unfold regClr regSet regSetFn; rfl
@[simp] theorem regClr_skewNow (off mask : Nat) : (regClr s off mask).skewNow = s.skewNow := by unfold regClr regSet regSetFn; rfl
@[simp] theorem regClr_skewLast (off mask : Nat) : (regClr s off mask).skewLast = s.skewLast := by unfold regClr regSet regSetFn; rfl
@[simp] theorem regClr_skewPairs (off mask : Nat) : (regClr s off mask).skewPairs = s.skewPairs := by unfold regClr regSet regSetFn; rfl
@[simp] theorem regClr_dtas (off mask : Nat) : (regClr s off mask).dtas = s.dtas := by unfold regClr regSet regSetFn; rfl
@[simp] theorem regClr_hbm (off mask : Nat) : (regClr s off mask).hbm = s.hbm := by unfold regClr regSet regSetFn; rfl
@[simp] theorem regClr_ports (off mask : Nat) : (regClr s off mask).ports = s.ports := by unfold regClr regSet regSetFn; rfl
@[simp] theorem regClr_objects (off mask : Nat) : (regClr s off mask).objects = s.objects := by unfold regClr regSet regSetFn; rfl
@[simp] theorem regClr_fabClk (off mask : Nat) : (regClr s off mask).fabClk = s.fabClk := by unfold regClr regSet regSetFn; rfl
@[simp] theorem regClr_fabClkLostAt (off mask : Nat) : (regClr s off mask).fabClkLostAt = s.fabClkLostAt := by unfold regClr regSet regSetFn; rfl
@[simp] theorem regClr_place (off mask : Nat) : (regClr s off mask).place = s.place := by unfold regClr regSet regSetFn; rfl
@[simp] theorem regClr_planText (off mask : Nat) : (regClr s off mask).planText = s.planText := by unfold regClr regSet regSetFn; rfl
@[simp] theorem regClr_plan (off mask : Nat) : (regClr s off mask).plan = s.plan := by unfold regClr regSet regSetFn; rfl
@[simp] theorem regClr_power (off mask : Nat) : (regClr s off mask).power = s.power := by unfold regClr regSet regSetFn; rfl
@[simp] theorem regClr_heldOps (off mask : Nat) : (regClr s off mask).heldOps = s.heldOps := by unfold regClr regSet regSetFn; rfl
@[simp] theorem regClr_system (off mask : Nat) : (regClr s off mask).system = s.system := by unfold regClr regSet regSetFn; rfl
@[simp] theorem regClr_boot (off mask : Nat) : (regClr s off mask).boot = s.boot := by unfold regClr regSet regSetFn; rfl
@[simp] theorem regClr_tmcHeld (off mask : Nat) : (regClr s off mask).tmcHeld = s.tmcHeld := by unfold regClr regSet regSetFn; rfl
@[simp] theorem regClr_regAddr (off mask : Nat) : (regClr s off mask).regAddr = s.regAddr := by unfold regClr regSet regSetFn; rfl
@[simp] theorem regClr_jtag (off mask : Nat) : (regClr s off mask).jtag = s.jtag := by unfold regClr regSet regSetFn; rfl

/- regSatAdd -/

@[simp] theorem regSatAdd_pending (off w n : Nat) : (regSatAdd s off w n).pending = s.pending := by unfold regSatAdd regSet regSetFn; rfl
@[simp] theorem regSatAdd_freeCtr (off w n : Nat) : (regSatAdd s off w n).freeCtr = s.freeCtr := by unfold regSatAdd regSet regSetFn; rfl
@[simp] theorem regSatAdd_out (off w n : Nat) : (regSatAdd s off w n).out = s.out := by unfold regSatAdd regSet regSetFn; rfl
@[simp] theorem regSatAdd_tbc (off w n : Nat) : (regSatAdd s off w n).tbc = s.tbc := by unfold regSatAdd regSet regSetFn; rfl
@[simp] theorem regSatAdd_time (off w n : Nat) : (regSatAdd s off w n).time = s.time := by unfold regSatAdd regSet regSetFn; rfl
@[simp] theorem regSatAdd_mem (off w n : Nat) : (regSatAdd s off w n).mem = s.mem := by unfold regSatAdd regSet regSetFn; rfl
@[simp] theorem regSatAdd_tags (off w n : Nat) : (regSatAdd s off w n).tags = s.tags := by unfold regSatAdd regSet regSetFn; rfl
@[simp] theorem regSatAdd_poison (off w n : Nat) : (regSatAdd s off w n).poison = s.poison := by unfold regSatAdd regSet regSetFn; rfl
@[simp] theorem regSatAdd_zeroed (off w n : Nat) : (regSatAdd s off w n).zeroed = s.zeroed := by unfold regSatAdd regSet regSetFn; rfl
@[simp] theorem regSatAdd_zeroFront (off w n : Nat) : (regSatAdd s off w n).zeroFront = s.zeroFront := by unfold regSatAdd regSet regSetFn; rfl
@[simp] theorem regSatAdd_hostMem (off w n : Nat) : (regSatAdd s off w n).hostMem = s.hostMem := by unfold regSatAdd regSet regSetFn; rfl
@[simp] theorem regSatAdd_flash (off w n : Nat) : (regSatAdd s off w n).flash = s.flash := by unfold regSatAdd regSet regSetFn; rfl
@[simp] theorem regSatAdd_minSvn (off w n : Nat) : (regSatAdd s off w n).minSvn = s.minSvn := by unfold regSatAdd regSet regSetFn; rfl
@[simp] theorem regSatAdd_revoked (off w n : Nat) : (regSatAdd s off w n).revoked = s.revoked := by unfold regSatAdd regSet regSetFn; rfl
@[simp] theorem regSatAdd_keyEra (off w n : Nat) : (regSatAdd s off w n).keyEra = s.keyEra := by unfold regSatAdd regSet regSetFn; rfl
@[simp] theorem regSatAdd_keyDraw (off w n : Nat) : (regSatAdd s off w n).keyDraw = s.keyDraw := by unfold regSatAdd regSet regSetFn; rfl
@[simp] theorem regSatAdd_advancing (off w n : Nat) : (regSatAdd s off w n).advancing = s.advancing := by unfold regSatAdd regSet regSetFn; rfl
@[simp] theorem regSatAdd_cores (off w n : Nat) : (regSatAdd s off w n).cores = s.cores := by unfold regSatAdd regSet regSetFn; rfl
@[simp] theorem regSatAdd_coresReleased (off w n : Nat) : (regSatAdd s off w n).coresReleased = s.coresReleased := by unfold regSatAdd regSet regSetFn; rfl
@[simp] theorem regSatAdd_acu (off w n : Nat) : (regSatAdd s off w n).acu = s.acu := by unfold regSatAdd regSet regSetFn; rfl
@[simp] theorem regSatAdd_funcs (off w n : Nat) : (regSatAdd s off w n).funcs = s.funcs := by unfold regSatAdd regSet regSetFn; rfl
@[simp] theorem regSatAdd_turnFn (off w n : Nat) : (regSatAdd s off w n).turnFn = s.turnFn := by unfold regSatAdd regSet regSetFn; rfl
@[simp] theorem regSatAdd_turnTaken (off w n : Nat) : (regSatAdd s off w n).turnTaken = s.turnTaken := by unfold regSatAdd regSet regSetFn; rfl
@[simp] theorem regSatAdd_vfEnable (off w n : Nat) : (regSatAdd s off w n).vfEnable = s.vfEnable := by unfold regSatAdd regSet regSetFn; rfl
@[simp] theorem regSatAdd_numVfs (off w n : Nat) : (regSatAdd s off w n).numVfs = s.numVfs := by unfold regSatAdd regSet regSetFn; rfl
@[simp] theorem regSatAdd_ops (off w n : Nat) : (regSatAdd s off w n).ops = s.ops := by unfold regSatAdd regSet regSetFn; rfl
@[simp] theorem regSatAdd_nextOp (off w n : Nat) : (regSatAdd s off w n).nextOp = s.nextOp := by unfold regSatAdd regSet regSetFn; rfl
@[simp] theorem regSatAdd_nextEnd (off w n : Nat) : (regSatAdd s off w n).nextEnd = s.nextEnd := by unfold regSatAdd regSet regSetFn; rfl
@[simp] theorem regSatAdd_queueSeq (off w n : Nat) : (regSatAdd s off w n).queueSeq = s.queueSeq := by unfold regSatAdd regSet regSetFn; rfl
@[simp] theorem regSatAdd_coveOwner (off w n : Nat) : (regSatAdd s off w n).coveOwner = s.coveOwner := by unfold regSatAdd regSet regSetFn; rfl
@[simp] theorem regSatAdd_coveClearing (off w n : Nat) : (regSatAdd s off w n).coveClearing = s.coveClearing := by unfold regSatAdd regSet regSetFn; rfl
@[simp] theorem regSatAdd_vctxOwner (off w n : Nat) : (regSatAdd s off w n).vctxOwner = s.vctxOwner := by unfold regSatAdd regSet regSetFn; rfl
@[simp] theorem regSatAdd_changeSet (off w n : Nat) : (regSatAdd s off w n).changeSet = s.changeSet := by unfold regSatAdd regSet regSetFn; rfl
@[simp] theorem regSatAdd_reqs (off w n : Nat) : (regSatAdd s off w n).reqs = s.reqs := by unfold regSatAdd regSet regSetFn; rfl
@[simp] theorem regSatAdd_nextRid (off w n : Nat) : (regSatAdd s off w n).nextRid = s.nextRid := by unfold regSatAdd regSet regSetFn; rfl
@[simp] theorem regSatAdd_class5 (off w n : Nat) : (regSatAdd s off w n).class5 = s.class5 := by unfold regSatAdd regSet regSetFn; rfl
@[simp] theorem regSatAdd_corrections (off w n : Nat) : (regSatAdd s off w n).corrections = s.corrections := by unfold regSatAdd regSet regSetFn; rfl
@[simp] theorem regSatAdd_wordsRecorded (off w n : Nat) : (regSatAdd s off w n).wordsRecorded = s.wordsRecorded := by unfold regSatAdd regSet regSetFn; rfl
@[simp] theorem regSatAdd_stopsHeld (off w n : Nat) : (regSatAdd s off w n).stopsHeld = s.stopsHeld := by unfold regSatAdd regSet regSetFn; rfl
@[simp] theorem regSatAdd_importBuf (off w n : Nat) : (regSatAdd s off w n).importBuf = s.importBuf := by unfold regSatAdd regSet regSetFn; rfl
@[simp] theorem regSatAdd_resetting (off w n : Nat) : (regSatAdd s off w n).resetting = s.resetting := by unfold regSatAdd regSet regSetFn; rfl
@[simp] theorem regSatAdd_strands (off w n : Nat) : (regSatAdd s off w n).strands = s.strands := by unfold regSatAdd regSet regSetFn; rfl
@[simp] theorem regSatAdd_vctxs (off w n : Nat) : (regSatAdd s off w n).vctxs = s.vctxs := by unfold regSatAdd regSet regSetFn; rfl
@[simp] theorem regSatAdd_pipes (off w n : Nat) : (regSatAdd s off w n).pipes = s.pipes := by unfold regSatAdd regSet regSetFn; rfl
@[simp] theorem regSatAdd_walks (off w n : Nat) : (regSatAdd s off w n).walks = s.walks := by unfold regSatAdd regSet regSetFn; rfl
@[simp] theorem regSatAdd_tables (off w n : Nat) : (regSatAdd s off w n).tables = s.tables := by unfold regSatAdd regSet regSetFn; rfl
@[simp] theorem regSatAdd_bound (off w n : Nat) : (regSatAdd s off w n).bound = s.bound := by unfold regSatAdd regSet regSetFn; rfl
@[simp] theorem regSatAdd_updates (off w n : Nat) : (regSatAdd s off w n).updates = s.updates := by unfold regSatAdd regSet regSetFn; rfl
@[simp] theorem regSatAdd_rowHolds (off w n : Nat) : (regSatAdd s off w n).rowHolds = s.rowHolds := by unfold regSatAdd regSet regSetFn; rfl
@[simp] theorem regSatAdd_dir (off w n : Nat) : (regSatAdd s off w n).dir = s.dir := by unfold regSatAdd regSet regSetFn; rfl
@[simp] theorem regSatAdd_skewNow (off w n : Nat) : (regSatAdd s off w n).skewNow = s.skewNow := by unfold regSatAdd regSet regSetFn; rfl
@[simp] theorem regSatAdd_skewLast (off w n : Nat) : (regSatAdd s off w n).skewLast = s.skewLast := by unfold regSatAdd regSet regSetFn; rfl
@[simp] theorem regSatAdd_skewPairs (off w n : Nat) : (regSatAdd s off w n).skewPairs = s.skewPairs := by unfold regSatAdd regSet regSetFn; rfl
@[simp] theorem regSatAdd_dtas (off w n : Nat) : (regSatAdd s off w n).dtas = s.dtas := by unfold regSatAdd regSet regSetFn; rfl
@[simp] theorem regSatAdd_hbm (off w n : Nat) : (regSatAdd s off w n).hbm = s.hbm := by unfold regSatAdd regSet regSetFn; rfl
@[simp] theorem regSatAdd_ports (off w n : Nat) : (regSatAdd s off w n).ports = s.ports := by unfold regSatAdd regSet regSetFn; rfl
@[simp] theorem regSatAdd_objects (off w n : Nat) : (regSatAdd s off w n).objects = s.objects := by unfold regSatAdd regSet regSetFn; rfl
@[simp] theorem regSatAdd_fabClk (off w n : Nat) : (regSatAdd s off w n).fabClk = s.fabClk := by unfold regSatAdd regSet regSetFn; rfl
@[simp] theorem regSatAdd_fabClkLostAt (off w n : Nat) : (regSatAdd s off w n).fabClkLostAt = s.fabClkLostAt := by unfold regSatAdd regSet regSetFn; rfl
@[simp] theorem regSatAdd_place (off w n : Nat) : (regSatAdd s off w n).place = s.place := by unfold regSatAdd regSet regSetFn; rfl
@[simp] theorem regSatAdd_planText (off w n : Nat) : (regSatAdd s off w n).planText = s.planText := by unfold regSatAdd regSet regSetFn; rfl
@[simp] theorem regSatAdd_plan (off w n : Nat) : (regSatAdd s off w n).plan = s.plan := by unfold regSatAdd regSet regSetFn; rfl
@[simp] theorem regSatAdd_power (off w n : Nat) : (regSatAdd s off w n).power = s.power := by unfold regSatAdd regSet regSetFn; rfl
@[simp] theorem regSatAdd_heldOps (off w n : Nat) : (regSatAdd s off w n).heldOps = s.heldOps := by unfold regSatAdd regSet regSetFn; rfl
@[simp] theorem regSatAdd_system (off w n : Nat) : (regSatAdd s off w n).system = s.system := by unfold regSatAdd regSet regSetFn; rfl
@[simp] theorem regSatAdd_boot (off w n : Nat) : (regSatAdd s off w n).boot = s.boot := by unfold regSatAdd regSet regSetFn; rfl
@[simp] theorem regSatAdd_tmcHeld (off w n : Nat) : (regSatAdd s off w n).tmcHeld = s.tmcHeld := by unfold regSatAdd regSet regSetFn; rfl
@[simp] theorem regSatAdd_regAddr (off w n : Nat) : (regSatAdd s off w n).regAddr = s.regAddr := by unfold regSatAdd regSet regSetFn; rfl
@[simp] theorem regSatAdd_jtag (off w n : Nat) : (regSatAdd s off w n).jtag = s.jtag := by unfold regSatAdd regSet regSetFn; rfl

/- regWrapAdd -/

@[simp] theorem regWrapAdd_pending (off n : Nat) : (regWrapAdd s off n).pending = s.pending := by unfold regWrapAdd regSet regSetFn; rfl
@[simp] theorem regWrapAdd_freeCtr (off n : Nat) : (regWrapAdd s off n).freeCtr = s.freeCtr := by unfold regWrapAdd regSet regSetFn; rfl
@[simp] theorem regWrapAdd_out (off n : Nat) : (regWrapAdd s off n).out = s.out := by unfold regWrapAdd regSet regSetFn; rfl
@[simp] theorem regWrapAdd_tbc (off n : Nat) : (regWrapAdd s off n).tbc = s.tbc := by unfold regWrapAdd regSet regSetFn; rfl
@[simp] theorem regWrapAdd_time (off n : Nat) : (regWrapAdd s off n).time = s.time := by unfold regWrapAdd regSet regSetFn; rfl
@[simp] theorem regWrapAdd_mem (off n : Nat) : (regWrapAdd s off n).mem = s.mem := by unfold regWrapAdd regSet regSetFn; rfl
@[simp] theorem regWrapAdd_tags (off n : Nat) : (regWrapAdd s off n).tags = s.tags := by unfold regWrapAdd regSet regSetFn; rfl
@[simp] theorem regWrapAdd_poison (off n : Nat) : (regWrapAdd s off n).poison = s.poison := by unfold regWrapAdd regSet regSetFn; rfl
@[simp] theorem regWrapAdd_zeroed (off n : Nat) : (regWrapAdd s off n).zeroed = s.zeroed := by unfold regWrapAdd regSet regSetFn; rfl
@[simp] theorem regWrapAdd_zeroFront (off n : Nat) : (regWrapAdd s off n).zeroFront = s.zeroFront := by unfold regWrapAdd regSet regSetFn; rfl
@[simp] theorem regWrapAdd_hostMem (off n : Nat) : (regWrapAdd s off n).hostMem = s.hostMem := by unfold regWrapAdd regSet regSetFn; rfl
@[simp] theorem regWrapAdd_flash (off n : Nat) : (regWrapAdd s off n).flash = s.flash := by unfold regWrapAdd regSet regSetFn; rfl
@[simp] theorem regWrapAdd_minSvn (off n : Nat) : (regWrapAdd s off n).minSvn = s.minSvn := by unfold regWrapAdd regSet regSetFn; rfl
@[simp] theorem regWrapAdd_revoked (off n : Nat) : (regWrapAdd s off n).revoked = s.revoked := by unfold regWrapAdd regSet regSetFn; rfl
@[simp] theorem regWrapAdd_keyEra (off n : Nat) : (regWrapAdd s off n).keyEra = s.keyEra := by unfold regWrapAdd regSet regSetFn; rfl
@[simp] theorem regWrapAdd_keyDraw (off n : Nat) : (regWrapAdd s off n).keyDraw = s.keyDraw := by unfold regWrapAdd regSet regSetFn; rfl
@[simp] theorem regWrapAdd_advancing (off n : Nat) : (regWrapAdd s off n).advancing = s.advancing := by unfold regWrapAdd regSet regSetFn; rfl
@[simp] theorem regWrapAdd_cores (off n : Nat) : (regWrapAdd s off n).cores = s.cores := by unfold regWrapAdd regSet regSetFn; rfl
@[simp] theorem regWrapAdd_coresReleased (off n : Nat) : (regWrapAdd s off n).coresReleased = s.coresReleased := by unfold regWrapAdd regSet regSetFn; rfl
@[simp] theorem regWrapAdd_acu (off n : Nat) : (regWrapAdd s off n).acu = s.acu := by unfold regWrapAdd regSet regSetFn; rfl
@[simp] theorem regWrapAdd_funcs (off n : Nat) : (regWrapAdd s off n).funcs = s.funcs := by unfold regWrapAdd regSet regSetFn; rfl
@[simp] theorem regWrapAdd_turnFn (off n : Nat) : (regWrapAdd s off n).turnFn = s.turnFn := by unfold regWrapAdd regSet regSetFn; rfl
@[simp] theorem regWrapAdd_turnTaken (off n : Nat) : (regWrapAdd s off n).turnTaken = s.turnTaken := by unfold regWrapAdd regSet regSetFn; rfl
@[simp] theorem regWrapAdd_vfEnable (off n : Nat) : (regWrapAdd s off n).vfEnable = s.vfEnable := by unfold regWrapAdd regSet regSetFn; rfl
@[simp] theorem regWrapAdd_numVfs (off n : Nat) : (regWrapAdd s off n).numVfs = s.numVfs := by unfold regWrapAdd regSet regSetFn; rfl
@[simp] theorem regWrapAdd_ops (off n : Nat) : (regWrapAdd s off n).ops = s.ops := by unfold regWrapAdd regSet regSetFn; rfl
@[simp] theorem regWrapAdd_nextOp (off n : Nat) : (regWrapAdd s off n).nextOp = s.nextOp := by unfold regWrapAdd regSet regSetFn; rfl
@[simp] theorem regWrapAdd_nextEnd (off n : Nat) : (regWrapAdd s off n).nextEnd = s.nextEnd := by unfold regWrapAdd regSet regSetFn; rfl
@[simp] theorem regWrapAdd_queueSeq (off n : Nat) : (regWrapAdd s off n).queueSeq = s.queueSeq := by unfold regWrapAdd regSet regSetFn; rfl
@[simp] theorem regWrapAdd_coveOwner (off n : Nat) : (regWrapAdd s off n).coveOwner = s.coveOwner := by unfold regWrapAdd regSet regSetFn; rfl
@[simp] theorem regWrapAdd_coveClearing (off n : Nat) : (regWrapAdd s off n).coveClearing = s.coveClearing := by unfold regWrapAdd regSet regSetFn; rfl
@[simp] theorem regWrapAdd_vctxOwner (off n : Nat) : (regWrapAdd s off n).vctxOwner = s.vctxOwner := by unfold regWrapAdd regSet regSetFn; rfl
@[simp] theorem regWrapAdd_changeSet (off n : Nat) : (regWrapAdd s off n).changeSet = s.changeSet := by unfold regWrapAdd regSet regSetFn; rfl
@[simp] theorem regWrapAdd_reqs (off n : Nat) : (regWrapAdd s off n).reqs = s.reqs := by unfold regWrapAdd regSet regSetFn; rfl
@[simp] theorem regWrapAdd_nextRid (off n : Nat) : (regWrapAdd s off n).nextRid = s.nextRid := by unfold regWrapAdd regSet regSetFn; rfl
@[simp] theorem regWrapAdd_class5 (off n : Nat) : (regWrapAdd s off n).class5 = s.class5 := by unfold regWrapAdd regSet regSetFn; rfl
@[simp] theorem regWrapAdd_corrections (off n : Nat) : (regWrapAdd s off n).corrections = s.corrections := by unfold regWrapAdd regSet regSetFn; rfl
@[simp] theorem regWrapAdd_wordsRecorded (off n : Nat) : (regWrapAdd s off n).wordsRecorded = s.wordsRecorded := by unfold regWrapAdd regSet regSetFn; rfl
@[simp] theorem regWrapAdd_stopsHeld (off n : Nat) : (regWrapAdd s off n).stopsHeld = s.stopsHeld := by unfold regWrapAdd regSet regSetFn; rfl
@[simp] theorem regWrapAdd_importBuf (off n : Nat) : (regWrapAdd s off n).importBuf = s.importBuf := by unfold regWrapAdd regSet regSetFn; rfl
@[simp] theorem regWrapAdd_resetting (off n : Nat) : (regWrapAdd s off n).resetting = s.resetting := by unfold regWrapAdd regSet regSetFn; rfl
@[simp] theorem regWrapAdd_strands (off n : Nat) : (regWrapAdd s off n).strands = s.strands := by unfold regWrapAdd regSet regSetFn; rfl
@[simp] theorem regWrapAdd_vctxs (off n : Nat) : (regWrapAdd s off n).vctxs = s.vctxs := by unfold regWrapAdd regSet regSetFn; rfl
@[simp] theorem regWrapAdd_pipes (off n : Nat) : (regWrapAdd s off n).pipes = s.pipes := by unfold regWrapAdd regSet regSetFn; rfl
@[simp] theorem regWrapAdd_walks (off n : Nat) : (regWrapAdd s off n).walks = s.walks := by unfold regWrapAdd regSet regSetFn; rfl
@[simp] theorem regWrapAdd_tables (off n : Nat) : (regWrapAdd s off n).tables = s.tables := by unfold regWrapAdd regSet regSetFn; rfl
@[simp] theorem regWrapAdd_bound (off n : Nat) : (regWrapAdd s off n).bound = s.bound := by unfold regWrapAdd regSet regSetFn; rfl
@[simp] theorem regWrapAdd_updates (off n : Nat) : (regWrapAdd s off n).updates = s.updates := by unfold regWrapAdd regSet regSetFn; rfl
@[simp] theorem regWrapAdd_rowHolds (off n : Nat) : (regWrapAdd s off n).rowHolds = s.rowHolds := by unfold regWrapAdd regSet regSetFn; rfl
@[simp] theorem regWrapAdd_dir (off n : Nat) : (regWrapAdd s off n).dir = s.dir := by unfold regWrapAdd regSet regSetFn; rfl
@[simp] theorem regWrapAdd_skewNow (off n : Nat) : (regWrapAdd s off n).skewNow = s.skewNow := by unfold regWrapAdd regSet regSetFn; rfl
@[simp] theorem regWrapAdd_skewLast (off n : Nat) : (regWrapAdd s off n).skewLast = s.skewLast := by unfold regWrapAdd regSet regSetFn; rfl
@[simp] theorem regWrapAdd_skewPairs (off n : Nat) : (regWrapAdd s off n).skewPairs = s.skewPairs := by unfold regWrapAdd regSet regSetFn; rfl
@[simp] theorem regWrapAdd_dtas (off n : Nat) : (regWrapAdd s off n).dtas = s.dtas := by unfold regWrapAdd regSet regSetFn; rfl
@[simp] theorem regWrapAdd_hbm (off n : Nat) : (regWrapAdd s off n).hbm = s.hbm := by unfold regWrapAdd regSet regSetFn; rfl
@[simp] theorem regWrapAdd_ports (off n : Nat) : (regWrapAdd s off n).ports = s.ports := by unfold regWrapAdd regSet regSetFn; rfl
@[simp] theorem regWrapAdd_objects (off n : Nat) : (regWrapAdd s off n).objects = s.objects := by unfold regWrapAdd regSet regSetFn; rfl
@[simp] theorem regWrapAdd_fabClk (off n : Nat) : (regWrapAdd s off n).fabClk = s.fabClk := by unfold regWrapAdd regSet regSetFn; rfl
@[simp] theorem regWrapAdd_fabClkLostAt (off n : Nat) : (regWrapAdd s off n).fabClkLostAt = s.fabClkLostAt := by unfold regWrapAdd regSet regSetFn; rfl
@[simp] theorem regWrapAdd_place (off n : Nat) : (regWrapAdd s off n).place = s.place := by unfold regWrapAdd regSet regSetFn; rfl
@[simp] theorem regWrapAdd_planText (off n : Nat) : (regWrapAdd s off n).planText = s.planText := by unfold regWrapAdd regSet regSetFn; rfl
@[simp] theorem regWrapAdd_plan (off n : Nat) : (regWrapAdd s off n).plan = s.plan := by unfold regWrapAdd regSet regSetFn; rfl
@[simp] theorem regWrapAdd_power (off n : Nat) : (regWrapAdd s off n).power = s.power := by unfold regWrapAdd regSet regSetFn; rfl
@[simp] theorem regWrapAdd_heldOps (off n : Nat) : (regWrapAdd s off n).heldOps = s.heldOps := by unfold regWrapAdd regSet regSetFn; rfl
@[simp] theorem regWrapAdd_system (off n : Nat) : (regWrapAdd s off n).system = s.system := by unfold regWrapAdd regSet regSetFn; rfl
@[simp] theorem regWrapAdd_boot (off n : Nat) : (regWrapAdd s off n).boot = s.boot := by unfold regWrapAdd regSet regSetFn; rfl
@[simp] theorem regWrapAdd_tmcHeld (off n : Nat) : (regWrapAdd s off n).tmcHeld = s.tmcHeld := by unfold regWrapAdd regSet regSetFn; rfl
@[simp] theorem regWrapAdd_regAddr (off n : Nat) : (regWrapAdd s off n).regAddr = s.regAddr := by unfold regWrapAdd regSet regSetFn; rfl
@[simp] theorem regWrapAdd_jtag (off n : Nat) : (regWrapAdd s off n).jtag = s.jtag := by unfold regWrapAdd regSet regSetFn; rfl

/- emit -/

@[simp] theorem emit_pending (o : Out) : (emit s o).pending = s.pending := by unfold emit; rfl
@[simp] theorem emit_freeCtr (o : Out) : (emit s o).freeCtr = s.freeCtr := by unfold emit; rfl
@[simp] theorem emit_tbc (o : Out) : (emit s o).tbc = s.tbc := by unfold emit; rfl
@[simp] theorem emit_time (o : Out) : (emit s o).time = s.time := by unfold emit; rfl
@[simp] theorem emit_regs (o : Out) : (emit s o).regs = s.regs := by unfold emit; rfl
@[simp] theorem emit_mem (o : Out) : (emit s o).mem = s.mem := by unfold emit; rfl
@[simp] theorem emit_tags (o : Out) : (emit s o).tags = s.tags := by unfold emit; rfl
@[simp] theorem emit_poison (o : Out) : (emit s o).poison = s.poison := by unfold emit; rfl
@[simp] theorem emit_zeroed (o : Out) : (emit s o).zeroed = s.zeroed := by unfold emit; rfl
@[simp] theorem emit_zeroFront (o : Out) : (emit s o).zeroFront = s.zeroFront := by unfold emit; rfl
@[simp] theorem emit_hostMem (o : Out) : (emit s o).hostMem = s.hostMem := by unfold emit; rfl
@[simp] theorem emit_flash (o : Out) : (emit s o).flash = s.flash := by unfold emit; rfl
@[simp] theorem emit_minSvn (o : Out) : (emit s o).minSvn = s.minSvn := by unfold emit; rfl
@[simp] theorem emit_revoked (o : Out) : (emit s o).revoked = s.revoked := by unfold emit; rfl
@[simp] theorem emit_keyEra (o : Out) : (emit s o).keyEra = s.keyEra := by unfold emit; rfl
@[simp] theorem emit_keyDraw (o : Out) : (emit s o).keyDraw = s.keyDraw := by unfold emit; rfl
@[simp] theorem emit_advancing (o : Out) : (emit s o).advancing = s.advancing := by unfold emit; rfl
@[simp] theorem emit_cores (o : Out) : (emit s o).cores = s.cores := by unfold emit; rfl
@[simp] theorem emit_coresReleased (o : Out) : (emit s o).coresReleased = s.coresReleased := by unfold emit; rfl
@[simp] theorem emit_acu (o : Out) : (emit s o).acu = s.acu := by unfold emit; rfl
@[simp] theorem emit_funcs (o : Out) : (emit s o).funcs = s.funcs := by unfold emit; rfl
@[simp] theorem emit_turnFn (o : Out) : (emit s o).turnFn = s.turnFn := by unfold emit; rfl
@[simp] theorem emit_turnTaken (o : Out) : (emit s o).turnTaken = s.turnTaken := by unfold emit; rfl
@[simp] theorem emit_vfEnable (o : Out) : (emit s o).vfEnable = s.vfEnable := by unfold emit; rfl
@[simp] theorem emit_numVfs (o : Out) : (emit s o).numVfs = s.numVfs := by unfold emit; rfl
@[simp] theorem emit_ops (o : Out) : (emit s o).ops = s.ops := by unfold emit; rfl
@[simp] theorem emit_nextOp (o : Out) : (emit s o).nextOp = s.nextOp := by unfold emit; rfl
@[simp] theorem emit_nextEnd (o : Out) : (emit s o).nextEnd = s.nextEnd := by unfold emit; rfl
@[simp] theorem emit_queueSeq (o : Out) : (emit s o).queueSeq = s.queueSeq := by unfold emit; rfl
@[simp] theorem emit_coveOwner (o : Out) : (emit s o).coveOwner = s.coveOwner := by unfold emit; rfl
@[simp] theorem emit_coveClearing (o : Out) : (emit s o).coveClearing = s.coveClearing := by unfold emit; rfl
@[simp] theorem emit_vctxOwner (o : Out) : (emit s o).vctxOwner = s.vctxOwner := by unfold emit; rfl
@[simp] theorem emit_changeSet (o : Out) : (emit s o).changeSet = s.changeSet := by unfold emit; rfl
@[simp] theorem emit_reqs (o : Out) : (emit s o).reqs = s.reqs := by unfold emit; rfl
@[simp] theorem emit_nextRid (o : Out) : (emit s o).nextRid = s.nextRid := by unfold emit; rfl
@[simp] theorem emit_class5 (o : Out) : (emit s o).class5 = s.class5 := by unfold emit; rfl
@[simp] theorem emit_corrections (o : Out) : (emit s o).corrections = s.corrections := by unfold emit; rfl
@[simp] theorem emit_wordsRecorded (o : Out) : (emit s o).wordsRecorded = s.wordsRecorded := by unfold emit; rfl
@[simp] theorem emit_stopsHeld (o : Out) : (emit s o).stopsHeld = s.stopsHeld := by unfold emit; rfl
@[simp] theorem emit_importBuf (o : Out) : (emit s o).importBuf = s.importBuf := by unfold emit; rfl
@[simp] theorem emit_resetting (o : Out) : (emit s o).resetting = s.resetting := by unfold emit; rfl
@[simp] theorem emit_strands (o : Out) : (emit s o).strands = s.strands := by unfold emit; rfl
@[simp] theorem emit_vctxs (o : Out) : (emit s o).vctxs = s.vctxs := by unfold emit; rfl
@[simp] theorem emit_pipes (o : Out) : (emit s o).pipes = s.pipes := by unfold emit; rfl
@[simp] theorem emit_walks (o : Out) : (emit s o).walks = s.walks := by unfold emit; rfl
@[simp] theorem emit_tables (o : Out) : (emit s o).tables = s.tables := by unfold emit; rfl
@[simp] theorem emit_bound (o : Out) : (emit s o).bound = s.bound := by unfold emit; rfl
@[simp] theorem emit_updates (o : Out) : (emit s o).updates = s.updates := by unfold emit; rfl
@[simp] theorem emit_rowHolds (o : Out) : (emit s o).rowHolds = s.rowHolds := by unfold emit; rfl
@[simp] theorem emit_dir (o : Out) : (emit s o).dir = s.dir := by unfold emit; rfl
@[simp] theorem emit_skewNow (o : Out) : (emit s o).skewNow = s.skewNow := by unfold emit; rfl
@[simp] theorem emit_skewLast (o : Out) : (emit s o).skewLast = s.skewLast := by unfold emit; rfl
@[simp] theorem emit_skewPairs (o : Out) : (emit s o).skewPairs = s.skewPairs := by unfold emit; rfl
@[simp] theorem emit_dtas (o : Out) : (emit s o).dtas = s.dtas := by unfold emit; rfl
@[simp] theorem emit_hbm (o : Out) : (emit s o).hbm = s.hbm := by unfold emit; rfl
@[simp] theorem emit_ports (o : Out) : (emit s o).ports = s.ports := by unfold emit; rfl
@[simp] theorem emit_objects (o : Out) : (emit s o).objects = s.objects := by unfold emit; rfl
@[simp] theorem emit_fabClk (o : Out) : (emit s o).fabClk = s.fabClk := by unfold emit; rfl
@[simp] theorem emit_fabClkLostAt (o : Out) : (emit s o).fabClkLostAt = s.fabClkLostAt := by unfold emit; rfl
@[simp] theorem emit_place (o : Out) : (emit s o).place = s.place := by unfold emit; rfl
@[simp] theorem emit_planText (o : Out) : (emit s o).planText = s.planText := by unfold emit; rfl
@[simp] theorem emit_plan (o : Out) : (emit s o).plan = s.plan := by unfold emit; rfl
@[simp] theorem emit_power (o : Out) : (emit s o).power = s.power := by unfold emit; rfl
@[simp] theorem emit_heldOps (o : Out) : (emit s o).heldOps = s.heldOps := by unfold emit; rfl
@[simp] theorem emit_system (o : Out) : (emit s o).system = s.system := by unfold emit; rfl
@[simp] theorem emit_boot (o : Out) : (emit s o).boot = s.boot := by unfold emit; rfl
@[simp] theorem emit_tmcHeld (o : Out) : (emit s o).tmcHeld = s.tmcHeld := by unfold emit; rfl
@[simp] theorem emit_regAddr (o : Out) : (emit s o).regAddr = s.regAddr := by unfold emit; rfl
@[simp] theorem emit_jtag (o : Out) : (emit s o).jtag = s.jtag := by unfold emit; rfl

/- setPend -/

@[simp] theorem setPend_pending (core bit : Nat) : (setPend s core bit).pending = s.pending := by unfold setPend regOr regSet regSetFn; rfl
@[simp] theorem setPend_freeCtr (core bit : Nat) : (setPend s core bit).freeCtr = s.freeCtr := by unfold setPend regOr regSet regSetFn; rfl
@[simp] theorem setPend_out (core bit : Nat) : (setPend s core bit).out = s.out := by unfold setPend regOr regSet regSetFn; rfl
@[simp] theorem setPend_tbc (core bit : Nat) : (setPend s core bit).tbc = s.tbc := by unfold setPend regOr regSet regSetFn; rfl
@[simp] theorem setPend_time (core bit : Nat) : (setPend s core bit).time = s.time := by unfold setPend regOr regSet regSetFn; rfl
@[simp] theorem setPend_mem (core bit : Nat) : (setPend s core bit).mem = s.mem := by unfold setPend regOr regSet regSetFn; rfl
@[simp] theorem setPend_tags (core bit : Nat) : (setPend s core bit).tags = s.tags := by unfold setPend regOr regSet regSetFn; rfl
@[simp] theorem setPend_poison (core bit : Nat) : (setPend s core bit).poison = s.poison := by unfold setPend regOr regSet regSetFn; rfl
@[simp] theorem setPend_zeroed (core bit : Nat) : (setPend s core bit).zeroed = s.zeroed := by unfold setPend regOr regSet regSetFn; rfl
@[simp] theorem setPend_zeroFront (core bit : Nat) : (setPend s core bit).zeroFront = s.zeroFront := by unfold setPend regOr regSet regSetFn; rfl
@[simp] theorem setPend_hostMem (core bit : Nat) : (setPend s core bit).hostMem = s.hostMem := by unfold setPend regOr regSet regSetFn; rfl
@[simp] theorem setPend_flash (core bit : Nat) : (setPend s core bit).flash = s.flash := by unfold setPend regOr regSet regSetFn; rfl
@[simp] theorem setPend_minSvn (core bit : Nat) : (setPend s core bit).minSvn = s.minSvn := by unfold setPend regOr regSet regSetFn; rfl
@[simp] theorem setPend_revoked (core bit : Nat) : (setPend s core bit).revoked = s.revoked := by unfold setPend regOr regSet regSetFn; rfl
@[simp] theorem setPend_keyEra (core bit : Nat) : (setPend s core bit).keyEra = s.keyEra := by unfold setPend regOr regSet regSetFn; rfl
@[simp] theorem setPend_keyDraw (core bit : Nat) : (setPend s core bit).keyDraw = s.keyDraw := by unfold setPend regOr regSet regSetFn; rfl
@[simp] theorem setPend_advancing (core bit : Nat) : (setPend s core bit).advancing = s.advancing := by unfold setPend regOr regSet regSetFn; rfl
@[simp] theorem setPend_cores (core bit : Nat) : (setPend s core bit).cores = s.cores := by unfold setPend regOr regSet regSetFn; rfl
@[simp] theorem setPend_coresReleased (core bit : Nat) : (setPend s core bit).coresReleased = s.coresReleased := by unfold setPend regOr regSet regSetFn; rfl
@[simp] theorem setPend_acu (core bit : Nat) : (setPend s core bit).acu = s.acu := by unfold setPend regOr regSet regSetFn; rfl
@[simp] theorem setPend_funcs (core bit : Nat) : (setPend s core bit).funcs = s.funcs := by unfold setPend regOr regSet regSetFn; rfl
@[simp] theorem setPend_turnFn (core bit : Nat) : (setPend s core bit).turnFn = s.turnFn := by unfold setPend regOr regSet regSetFn; rfl
@[simp] theorem setPend_turnTaken (core bit : Nat) : (setPend s core bit).turnTaken = s.turnTaken := by unfold setPend regOr regSet regSetFn; rfl
@[simp] theorem setPend_vfEnable (core bit : Nat) : (setPend s core bit).vfEnable = s.vfEnable := by unfold setPend regOr regSet regSetFn; rfl
@[simp] theorem setPend_numVfs (core bit : Nat) : (setPend s core bit).numVfs = s.numVfs := by unfold setPend regOr regSet regSetFn; rfl
@[simp] theorem setPend_ops (core bit : Nat) : (setPend s core bit).ops = s.ops := by unfold setPend regOr regSet regSetFn; rfl
@[simp] theorem setPend_nextOp (core bit : Nat) : (setPend s core bit).nextOp = s.nextOp := by unfold setPend regOr regSet regSetFn; rfl
@[simp] theorem setPend_nextEnd (core bit : Nat) : (setPend s core bit).nextEnd = s.nextEnd := by unfold setPend regOr regSet regSetFn; rfl
@[simp] theorem setPend_queueSeq (core bit : Nat) : (setPend s core bit).queueSeq = s.queueSeq := by unfold setPend regOr regSet regSetFn; rfl
@[simp] theorem setPend_coveOwner (core bit : Nat) : (setPend s core bit).coveOwner = s.coveOwner := by unfold setPend regOr regSet regSetFn; rfl
@[simp] theorem setPend_coveClearing (core bit : Nat) : (setPend s core bit).coveClearing = s.coveClearing := by unfold setPend regOr regSet regSetFn; rfl
@[simp] theorem setPend_vctxOwner (core bit : Nat) : (setPend s core bit).vctxOwner = s.vctxOwner := by unfold setPend regOr regSet regSetFn; rfl
@[simp] theorem setPend_changeSet (core bit : Nat) : (setPend s core bit).changeSet = s.changeSet := by unfold setPend regOr regSet regSetFn; rfl
@[simp] theorem setPend_reqs (core bit : Nat) : (setPend s core bit).reqs = s.reqs := by unfold setPend regOr regSet regSetFn; rfl
@[simp] theorem setPend_nextRid (core bit : Nat) : (setPend s core bit).nextRid = s.nextRid := by unfold setPend regOr regSet regSetFn; rfl
@[simp] theorem setPend_class5 (core bit : Nat) : (setPend s core bit).class5 = s.class5 := by unfold setPend regOr regSet regSetFn; rfl
@[simp] theorem setPend_corrections (core bit : Nat) : (setPend s core bit).corrections = s.corrections := by unfold setPend regOr regSet regSetFn; rfl
@[simp] theorem setPend_wordsRecorded (core bit : Nat) : (setPend s core bit).wordsRecorded = s.wordsRecorded := by unfold setPend regOr regSet regSetFn; rfl
@[simp] theorem setPend_stopsHeld (core bit : Nat) : (setPend s core bit).stopsHeld = s.stopsHeld := by unfold setPend regOr regSet regSetFn; rfl
@[simp] theorem setPend_importBuf (core bit : Nat) : (setPend s core bit).importBuf = s.importBuf := by unfold setPend regOr regSet regSetFn; rfl
@[simp] theorem setPend_resetting (core bit : Nat) : (setPend s core bit).resetting = s.resetting := by unfold setPend regOr regSet regSetFn; rfl
@[simp] theorem setPend_strands (core bit : Nat) : (setPend s core bit).strands = s.strands := by unfold setPend regOr regSet regSetFn; rfl
@[simp] theorem setPend_vctxs (core bit : Nat) : (setPend s core bit).vctxs = s.vctxs := by unfold setPend regOr regSet regSetFn; rfl
@[simp] theorem setPend_pipes (core bit : Nat) : (setPend s core bit).pipes = s.pipes := by unfold setPend regOr regSet regSetFn; rfl
@[simp] theorem setPend_walks (core bit : Nat) : (setPend s core bit).walks = s.walks := by unfold setPend regOr regSet regSetFn; rfl
@[simp] theorem setPend_tables (core bit : Nat) : (setPend s core bit).tables = s.tables := by unfold setPend regOr regSet regSetFn; rfl
@[simp] theorem setPend_bound (core bit : Nat) : (setPend s core bit).bound = s.bound := by unfold setPend regOr regSet regSetFn; rfl
@[simp] theorem setPend_updates (core bit : Nat) : (setPend s core bit).updates = s.updates := by unfold setPend regOr regSet regSetFn; rfl
@[simp] theorem setPend_rowHolds (core bit : Nat) : (setPend s core bit).rowHolds = s.rowHolds := by unfold setPend regOr regSet regSetFn; rfl
@[simp] theorem setPend_dir (core bit : Nat) : (setPend s core bit).dir = s.dir := by unfold setPend regOr regSet regSetFn; rfl
@[simp] theorem setPend_skewNow (core bit : Nat) : (setPend s core bit).skewNow = s.skewNow := by unfold setPend regOr regSet regSetFn; rfl
@[simp] theorem setPend_skewLast (core bit : Nat) : (setPend s core bit).skewLast = s.skewLast := by unfold setPend regOr regSet regSetFn; rfl
@[simp] theorem setPend_skewPairs (core bit : Nat) : (setPend s core bit).skewPairs = s.skewPairs := by unfold setPend regOr regSet regSetFn; rfl
@[simp] theorem setPend_dtas (core bit : Nat) : (setPend s core bit).dtas = s.dtas := by unfold setPend regOr regSet regSetFn; rfl
@[simp] theorem setPend_hbm (core bit : Nat) : (setPend s core bit).hbm = s.hbm := by unfold setPend regOr regSet regSetFn; rfl
@[simp] theorem setPend_ports (core bit : Nat) : (setPend s core bit).ports = s.ports := by unfold setPend regOr regSet regSetFn; rfl
@[simp] theorem setPend_objects (core bit : Nat) : (setPend s core bit).objects = s.objects := by unfold setPend regOr regSet regSetFn; rfl
@[simp] theorem setPend_fabClk (core bit : Nat) : (setPend s core bit).fabClk = s.fabClk := by unfold setPend regOr regSet regSetFn; rfl
@[simp] theorem setPend_fabClkLostAt (core bit : Nat) : (setPend s core bit).fabClkLostAt = s.fabClkLostAt := by unfold setPend regOr regSet regSetFn; rfl
@[simp] theorem setPend_place (core bit : Nat) : (setPend s core bit).place = s.place := by unfold setPend regOr regSet regSetFn; rfl
@[simp] theorem setPend_planText (core bit : Nat) : (setPend s core bit).planText = s.planText := by unfold setPend regOr regSet regSetFn; rfl
@[simp] theorem setPend_plan (core bit : Nat) : (setPend s core bit).plan = s.plan := by unfold setPend regOr regSet regSetFn; rfl
@[simp] theorem setPend_power (core bit : Nat) : (setPend s core bit).power = s.power := by unfold setPend regOr regSet regSetFn; rfl
@[simp] theorem setPend_heldOps (core bit : Nat) : (setPend s core bit).heldOps = s.heldOps := by unfold setPend regOr regSet regSetFn; rfl
@[simp] theorem setPend_system (core bit : Nat) : (setPend s core bit).system = s.system := by unfold setPend regOr regSet regSetFn; rfl
@[simp] theorem setPend_boot (core bit : Nat) : (setPend s core bit).boot = s.boot := by unfold setPend regOr regSet regSetFn; rfl
@[simp] theorem setPend_tmcHeld (core bit : Nat) : (setPend s core bit).tmcHeld = s.tmcHeld := by unfold setPend regOr regSet regSetFn; rfl
@[simp] theorem setPend_regAddr (core bit : Nat) : (setPend s core bit).regAddr = s.regAddr := by unfold setPend regOr regSet regSetFn; rfl
@[simp] theorem setPend_jtag (core bit : Nat) : (setPend s core bit).jtag = s.jtag := by unfold setPend regOr regSet regSetFn; rfl

/- putHost -/

@[simp] theorem putHost_pending (a : Nat) (bs : List Byte) : (putHost s a bs).pending = s.pending := by unfold putHost; rfl
@[simp] theorem putHost_freeCtr (a : Nat) (bs : List Byte) : (putHost s a bs).freeCtr = s.freeCtr := by unfold putHost; rfl
@[simp] theorem putHost_out (a : Nat) (bs : List Byte) : (putHost s a bs).out = s.out := by unfold putHost; rfl
@[simp] theorem putHost_tbc (a : Nat) (bs : List Byte) : (putHost s a bs).tbc = s.tbc := by unfold putHost; rfl
@[simp] theorem putHost_time (a : Nat) (bs : List Byte) : (putHost s a bs).time = s.time := by unfold putHost; rfl
@[simp] theorem putHost_regs (a : Nat) (bs : List Byte) : (putHost s a bs).regs = s.regs := by unfold putHost; rfl
@[simp] theorem putHost_mem (a : Nat) (bs : List Byte) : (putHost s a bs).mem = s.mem := by unfold putHost; rfl
@[simp] theorem putHost_tags (a : Nat) (bs : List Byte) : (putHost s a bs).tags = s.tags := by unfold putHost; rfl
@[simp] theorem putHost_poison (a : Nat) (bs : List Byte) : (putHost s a bs).poison = s.poison := by unfold putHost; rfl
@[simp] theorem putHost_zeroed (a : Nat) (bs : List Byte) : (putHost s a bs).zeroed = s.zeroed := by unfold putHost; rfl
@[simp] theorem putHost_zeroFront (a : Nat) (bs : List Byte) : (putHost s a bs).zeroFront = s.zeroFront := by unfold putHost; rfl
@[simp] theorem putHost_flash (a : Nat) (bs : List Byte) : (putHost s a bs).flash = s.flash := by unfold putHost; rfl
@[simp] theorem putHost_minSvn (a : Nat) (bs : List Byte) : (putHost s a bs).minSvn = s.minSvn := by unfold putHost; rfl
@[simp] theorem putHost_revoked (a : Nat) (bs : List Byte) : (putHost s a bs).revoked = s.revoked := by unfold putHost; rfl
@[simp] theorem putHost_keyEra (a : Nat) (bs : List Byte) : (putHost s a bs).keyEra = s.keyEra := by unfold putHost; rfl
@[simp] theorem putHost_keyDraw (a : Nat) (bs : List Byte) : (putHost s a bs).keyDraw = s.keyDraw := by unfold putHost; rfl
@[simp] theorem putHost_advancing (a : Nat) (bs : List Byte) : (putHost s a bs).advancing = s.advancing := by unfold putHost; rfl
@[simp] theorem putHost_cores (a : Nat) (bs : List Byte) : (putHost s a bs).cores = s.cores := by unfold putHost; rfl
@[simp] theorem putHost_coresReleased (a : Nat) (bs : List Byte) : (putHost s a bs).coresReleased = s.coresReleased := by unfold putHost; rfl
@[simp] theorem putHost_acu (a : Nat) (bs : List Byte) : (putHost s a bs).acu = s.acu := by unfold putHost; rfl
@[simp] theorem putHost_funcs (a : Nat) (bs : List Byte) : (putHost s a bs).funcs = s.funcs := by unfold putHost; rfl
@[simp] theorem putHost_turnFn (a : Nat) (bs : List Byte) : (putHost s a bs).turnFn = s.turnFn := by unfold putHost; rfl
@[simp] theorem putHost_turnTaken (a : Nat) (bs : List Byte) : (putHost s a bs).turnTaken = s.turnTaken := by unfold putHost; rfl
@[simp] theorem putHost_vfEnable (a : Nat) (bs : List Byte) : (putHost s a bs).vfEnable = s.vfEnable := by unfold putHost; rfl
@[simp] theorem putHost_numVfs (a : Nat) (bs : List Byte) : (putHost s a bs).numVfs = s.numVfs := by unfold putHost; rfl
@[simp] theorem putHost_ops (a : Nat) (bs : List Byte) : (putHost s a bs).ops = s.ops := by unfold putHost; rfl
@[simp] theorem putHost_nextOp (a : Nat) (bs : List Byte) : (putHost s a bs).nextOp = s.nextOp := by unfold putHost; rfl
@[simp] theorem putHost_nextEnd (a : Nat) (bs : List Byte) : (putHost s a bs).nextEnd = s.nextEnd := by unfold putHost; rfl
@[simp] theorem putHost_queueSeq (a : Nat) (bs : List Byte) : (putHost s a bs).queueSeq = s.queueSeq := by unfold putHost; rfl
@[simp] theorem putHost_coveOwner (a : Nat) (bs : List Byte) : (putHost s a bs).coveOwner = s.coveOwner := by unfold putHost; rfl
@[simp] theorem putHost_coveClearing (a : Nat) (bs : List Byte) : (putHost s a bs).coveClearing = s.coveClearing := by unfold putHost; rfl
@[simp] theorem putHost_vctxOwner (a : Nat) (bs : List Byte) : (putHost s a bs).vctxOwner = s.vctxOwner := by unfold putHost; rfl
@[simp] theorem putHost_changeSet (a : Nat) (bs : List Byte) : (putHost s a bs).changeSet = s.changeSet := by unfold putHost; rfl
@[simp] theorem putHost_reqs (a : Nat) (bs : List Byte) : (putHost s a bs).reqs = s.reqs := by unfold putHost; rfl
@[simp] theorem putHost_nextRid (a : Nat) (bs : List Byte) : (putHost s a bs).nextRid = s.nextRid := by unfold putHost; rfl
@[simp] theorem putHost_class5 (a : Nat) (bs : List Byte) : (putHost s a bs).class5 = s.class5 := by unfold putHost; rfl
@[simp] theorem putHost_corrections (a : Nat) (bs : List Byte) : (putHost s a bs).corrections = s.corrections := by unfold putHost; rfl
@[simp] theorem putHost_wordsRecorded (a : Nat) (bs : List Byte) : (putHost s a bs).wordsRecorded = s.wordsRecorded := by unfold putHost; rfl
@[simp] theorem putHost_stopsHeld (a : Nat) (bs : List Byte) : (putHost s a bs).stopsHeld = s.stopsHeld := by unfold putHost; rfl
@[simp] theorem putHost_importBuf (a : Nat) (bs : List Byte) : (putHost s a bs).importBuf = s.importBuf := by unfold putHost; rfl
@[simp] theorem putHost_resetting (a : Nat) (bs : List Byte) : (putHost s a bs).resetting = s.resetting := by unfold putHost; rfl
@[simp] theorem putHost_strands (a : Nat) (bs : List Byte) : (putHost s a bs).strands = s.strands := by unfold putHost; rfl
@[simp] theorem putHost_vctxs (a : Nat) (bs : List Byte) : (putHost s a bs).vctxs = s.vctxs := by unfold putHost; rfl
@[simp] theorem putHost_pipes (a : Nat) (bs : List Byte) : (putHost s a bs).pipes = s.pipes := by unfold putHost; rfl
@[simp] theorem putHost_walks (a : Nat) (bs : List Byte) : (putHost s a bs).walks = s.walks := by unfold putHost; rfl
@[simp] theorem putHost_tables (a : Nat) (bs : List Byte) : (putHost s a bs).tables = s.tables := by unfold putHost; rfl
@[simp] theorem putHost_bound (a : Nat) (bs : List Byte) : (putHost s a bs).bound = s.bound := by unfold putHost; rfl
@[simp] theorem putHost_updates (a : Nat) (bs : List Byte) : (putHost s a bs).updates = s.updates := by unfold putHost; rfl
@[simp] theorem putHost_rowHolds (a : Nat) (bs : List Byte) : (putHost s a bs).rowHolds = s.rowHolds := by unfold putHost; rfl
@[simp] theorem putHost_dir (a : Nat) (bs : List Byte) : (putHost s a bs).dir = s.dir := by unfold putHost; rfl
@[simp] theorem putHost_skewNow (a : Nat) (bs : List Byte) : (putHost s a bs).skewNow = s.skewNow := by unfold putHost; rfl
@[simp] theorem putHost_skewLast (a : Nat) (bs : List Byte) : (putHost s a bs).skewLast = s.skewLast := by unfold putHost; rfl
@[simp] theorem putHost_skewPairs (a : Nat) (bs : List Byte) : (putHost s a bs).skewPairs = s.skewPairs := by unfold putHost; rfl
@[simp] theorem putHost_dtas (a : Nat) (bs : List Byte) : (putHost s a bs).dtas = s.dtas := by unfold putHost; rfl
@[simp] theorem putHost_hbm (a : Nat) (bs : List Byte) : (putHost s a bs).hbm = s.hbm := by unfold putHost; rfl
@[simp] theorem putHost_ports (a : Nat) (bs : List Byte) : (putHost s a bs).ports = s.ports := by unfold putHost; rfl
@[simp] theorem putHost_objects (a : Nat) (bs : List Byte) : (putHost s a bs).objects = s.objects := by unfold putHost; rfl
@[simp] theorem putHost_fabClk (a : Nat) (bs : List Byte) : (putHost s a bs).fabClk = s.fabClk := by unfold putHost; rfl
@[simp] theorem putHost_fabClkLostAt (a : Nat) (bs : List Byte) : (putHost s a bs).fabClkLostAt = s.fabClkLostAt := by unfold putHost; rfl
@[simp] theorem putHost_place (a : Nat) (bs : List Byte) : (putHost s a bs).place = s.place := by unfold putHost; rfl
@[simp] theorem putHost_planText (a : Nat) (bs : List Byte) : (putHost s a bs).planText = s.planText := by unfold putHost; rfl
@[simp] theorem putHost_plan (a : Nat) (bs : List Byte) : (putHost s a bs).plan = s.plan := by unfold putHost; rfl
@[simp] theorem putHost_power (a : Nat) (bs : List Byte) : (putHost s a bs).power = s.power := by unfold putHost; rfl
@[simp] theorem putHost_heldOps (a : Nat) (bs : List Byte) : (putHost s a bs).heldOps = s.heldOps := by unfold putHost; rfl
@[simp] theorem putHost_system (a : Nat) (bs : List Byte) : (putHost s a bs).system = s.system := by unfold putHost; rfl
@[simp] theorem putHost_boot (a : Nat) (bs : List Byte) : (putHost s a bs).boot = s.boot := by unfold putHost; rfl
@[simp] theorem putHost_tmcHeld (a : Nat) (bs : List Byte) : (putHost s a bs).tmcHeld = s.tmcHeld := by unfold putHost; rfl
@[simp] theorem putHost_regAddr (a : Nat) (bs : List Byte) : (putHost s a bs).regAddr = s.regAddr := by unfold putHost; rfl
@[simp] theorem putHost_jtag (a : Nat) (bs : List Byte) : (putHost s a bs).jtag = s.jtag := by unfold putHost; rfl

/- dropLines -/

/-- Dropping cached lines touches the cores alone. -/
theorem dropLines_frame (keep : Option Nat) (a n : Nat) :
    dropLines s keep a n = { s with cores := (dropLines s keep a n).cores } := by
  unfold dropLines
  dsimp only
  generalize List.range 16 = l
  induction l generalizing s with
  | nil => rfl
  | cons k l ih =>
    rw [List.foldl_cons, ih]
    split <;> rfl

@[simp] theorem dropLines_pending (keep : Option Nat) (a n : Nat) : (dropLines s keep a n).pending = s.pending := by rw [dropLines_frame]
@[simp] theorem dropLines_freeCtr (keep : Option Nat) (a n : Nat) : (dropLines s keep a n).freeCtr = s.freeCtr := by rw [dropLines_frame]
@[simp] theorem dropLines_out (keep : Option Nat) (a n : Nat) : (dropLines s keep a n).out = s.out := by rw [dropLines_frame]
@[simp] theorem dropLines_tbc (keep : Option Nat) (a n : Nat) : (dropLines s keep a n).tbc = s.tbc := by rw [dropLines_frame]
@[simp] theorem dropLines_time (keep : Option Nat) (a n : Nat) : (dropLines s keep a n).time = s.time := by rw [dropLines_frame]
@[simp] theorem dropLines_regs (keep : Option Nat) (a n : Nat) : (dropLines s keep a n).regs = s.regs := by rw [dropLines_frame]
@[simp] theorem dropLines_mem (keep : Option Nat) (a n : Nat) : (dropLines s keep a n).mem = s.mem := by rw [dropLines_frame]
@[simp] theorem dropLines_tags (keep : Option Nat) (a n : Nat) : (dropLines s keep a n).tags = s.tags := by rw [dropLines_frame]
@[simp] theorem dropLines_poison (keep : Option Nat) (a n : Nat) : (dropLines s keep a n).poison = s.poison := by rw [dropLines_frame]
@[simp] theorem dropLines_zeroed (keep : Option Nat) (a n : Nat) : (dropLines s keep a n).zeroed = s.zeroed := by rw [dropLines_frame]
@[simp] theorem dropLines_zeroFront (keep : Option Nat) (a n : Nat) : (dropLines s keep a n).zeroFront = s.zeroFront := by rw [dropLines_frame]
@[simp] theorem dropLines_hostMem (keep : Option Nat) (a n : Nat) : (dropLines s keep a n).hostMem = s.hostMem := by rw [dropLines_frame]
@[simp] theorem dropLines_flash (keep : Option Nat) (a n : Nat) : (dropLines s keep a n).flash = s.flash := by rw [dropLines_frame]
@[simp] theorem dropLines_minSvn (keep : Option Nat) (a n : Nat) : (dropLines s keep a n).minSvn = s.minSvn := by rw [dropLines_frame]
@[simp] theorem dropLines_revoked (keep : Option Nat) (a n : Nat) : (dropLines s keep a n).revoked = s.revoked := by rw [dropLines_frame]
@[simp] theorem dropLines_keyEra (keep : Option Nat) (a n : Nat) : (dropLines s keep a n).keyEra = s.keyEra := by rw [dropLines_frame]
@[simp] theorem dropLines_keyDraw (keep : Option Nat) (a n : Nat) : (dropLines s keep a n).keyDraw = s.keyDraw := by rw [dropLines_frame]
@[simp] theorem dropLines_advancing (keep : Option Nat) (a n : Nat) : (dropLines s keep a n).advancing = s.advancing := by rw [dropLines_frame]
@[simp] theorem dropLines_coresReleased (keep : Option Nat) (a n : Nat) : (dropLines s keep a n).coresReleased = s.coresReleased := by rw [dropLines_frame]
@[simp] theorem dropLines_acu (keep : Option Nat) (a n : Nat) : (dropLines s keep a n).acu = s.acu := by rw [dropLines_frame]
@[simp] theorem dropLines_funcs (keep : Option Nat) (a n : Nat) : (dropLines s keep a n).funcs = s.funcs := by rw [dropLines_frame]
@[simp] theorem dropLines_turnFn (keep : Option Nat) (a n : Nat) : (dropLines s keep a n).turnFn = s.turnFn := by rw [dropLines_frame]
@[simp] theorem dropLines_turnTaken (keep : Option Nat) (a n : Nat) : (dropLines s keep a n).turnTaken = s.turnTaken := by rw [dropLines_frame]
@[simp] theorem dropLines_vfEnable (keep : Option Nat) (a n : Nat) : (dropLines s keep a n).vfEnable = s.vfEnable := by rw [dropLines_frame]
@[simp] theorem dropLines_numVfs (keep : Option Nat) (a n : Nat) : (dropLines s keep a n).numVfs = s.numVfs := by rw [dropLines_frame]
@[simp] theorem dropLines_ops (keep : Option Nat) (a n : Nat) : (dropLines s keep a n).ops = s.ops := by rw [dropLines_frame]
@[simp] theorem dropLines_nextOp (keep : Option Nat) (a n : Nat) : (dropLines s keep a n).nextOp = s.nextOp := by rw [dropLines_frame]
@[simp] theorem dropLines_nextEnd (keep : Option Nat) (a n : Nat) : (dropLines s keep a n).nextEnd = s.nextEnd := by rw [dropLines_frame]
@[simp] theorem dropLines_queueSeq (keep : Option Nat) (a n : Nat) : (dropLines s keep a n).queueSeq = s.queueSeq := by rw [dropLines_frame]
@[simp] theorem dropLines_coveOwner (keep : Option Nat) (a n : Nat) : (dropLines s keep a n).coveOwner = s.coveOwner := by rw [dropLines_frame]
@[simp] theorem dropLines_coveClearing (keep : Option Nat) (a n : Nat) : (dropLines s keep a n).coveClearing = s.coveClearing := by rw [dropLines_frame]
@[simp] theorem dropLines_vctxOwner (keep : Option Nat) (a n : Nat) : (dropLines s keep a n).vctxOwner = s.vctxOwner := by rw [dropLines_frame]
@[simp] theorem dropLines_changeSet (keep : Option Nat) (a n : Nat) : (dropLines s keep a n).changeSet = s.changeSet := by rw [dropLines_frame]
@[simp] theorem dropLines_reqs (keep : Option Nat) (a n : Nat) : (dropLines s keep a n).reqs = s.reqs := by rw [dropLines_frame]
@[simp] theorem dropLines_nextRid (keep : Option Nat) (a n : Nat) : (dropLines s keep a n).nextRid = s.nextRid := by rw [dropLines_frame]
@[simp] theorem dropLines_class5 (keep : Option Nat) (a n : Nat) : (dropLines s keep a n).class5 = s.class5 := by rw [dropLines_frame]
@[simp] theorem dropLines_corrections (keep : Option Nat) (a n : Nat) : (dropLines s keep a n).corrections = s.corrections := by rw [dropLines_frame]
@[simp] theorem dropLines_wordsRecorded (keep : Option Nat) (a n : Nat) : (dropLines s keep a n).wordsRecorded = s.wordsRecorded := by rw [dropLines_frame]
@[simp] theorem dropLines_stopsHeld (keep : Option Nat) (a n : Nat) : (dropLines s keep a n).stopsHeld = s.stopsHeld := by rw [dropLines_frame]
@[simp] theorem dropLines_importBuf (keep : Option Nat) (a n : Nat) : (dropLines s keep a n).importBuf = s.importBuf := by rw [dropLines_frame]
@[simp] theorem dropLines_resetting (keep : Option Nat) (a n : Nat) : (dropLines s keep a n).resetting = s.resetting := by rw [dropLines_frame]
@[simp] theorem dropLines_strands (keep : Option Nat) (a n : Nat) : (dropLines s keep a n).strands = s.strands := by rw [dropLines_frame]
@[simp] theorem dropLines_vctxs (keep : Option Nat) (a n : Nat) : (dropLines s keep a n).vctxs = s.vctxs := by rw [dropLines_frame]
@[simp] theorem dropLines_pipes (keep : Option Nat) (a n : Nat) : (dropLines s keep a n).pipes = s.pipes := by rw [dropLines_frame]
@[simp] theorem dropLines_walks (keep : Option Nat) (a n : Nat) : (dropLines s keep a n).walks = s.walks := by rw [dropLines_frame]
@[simp] theorem dropLines_tables (keep : Option Nat) (a n : Nat) : (dropLines s keep a n).tables = s.tables := by rw [dropLines_frame]
@[simp] theorem dropLines_bound (keep : Option Nat) (a n : Nat) : (dropLines s keep a n).bound = s.bound := by rw [dropLines_frame]
@[simp] theorem dropLines_updates (keep : Option Nat) (a n : Nat) : (dropLines s keep a n).updates = s.updates := by rw [dropLines_frame]
@[simp] theorem dropLines_rowHolds (keep : Option Nat) (a n : Nat) : (dropLines s keep a n).rowHolds = s.rowHolds := by rw [dropLines_frame]
@[simp] theorem dropLines_dir (keep : Option Nat) (a n : Nat) : (dropLines s keep a n).dir = s.dir := by rw [dropLines_frame]
@[simp] theorem dropLines_skewNow (keep : Option Nat) (a n : Nat) : (dropLines s keep a n).skewNow = s.skewNow := by rw [dropLines_frame]
@[simp] theorem dropLines_skewLast (keep : Option Nat) (a n : Nat) : (dropLines s keep a n).skewLast = s.skewLast := by rw [dropLines_frame]
@[simp] theorem dropLines_skewPairs (keep : Option Nat) (a n : Nat) : (dropLines s keep a n).skewPairs = s.skewPairs := by rw [dropLines_frame]
@[simp] theorem dropLines_dtas (keep : Option Nat) (a n : Nat) : (dropLines s keep a n).dtas = s.dtas := by rw [dropLines_frame]
@[simp] theorem dropLines_hbm (keep : Option Nat) (a n : Nat) : (dropLines s keep a n).hbm = s.hbm := by rw [dropLines_frame]
@[simp] theorem dropLines_ports (keep : Option Nat) (a n : Nat) : (dropLines s keep a n).ports = s.ports := by rw [dropLines_frame]
@[simp] theorem dropLines_objects (keep : Option Nat) (a n : Nat) : (dropLines s keep a n).objects = s.objects := by rw [dropLines_frame]
@[simp] theorem dropLines_fabClk (keep : Option Nat) (a n : Nat) : (dropLines s keep a n).fabClk = s.fabClk := by rw [dropLines_frame]
@[simp] theorem dropLines_fabClkLostAt (keep : Option Nat) (a n : Nat) : (dropLines s keep a n).fabClkLostAt = s.fabClkLostAt := by rw [dropLines_frame]
@[simp] theorem dropLines_place (keep : Option Nat) (a n : Nat) : (dropLines s keep a n).place = s.place := by rw [dropLines_frame]
@[simp] theorem dropLines_planText (keep : Option Nat) (a n : Nat) : (dropLines s keep a n).planText = s.planText := by rw [dropLines_frame]
@[simp] theorem dropLines_plan (keep : Option Nat) (a n : Nat) : (dropLines s keep a n).plan = s.plan := by rw [dropLines_frame]
@[simp] theorem dropLines_power (keep : Option Nat) (a n : Nat) : (dropLines s keep a n).power = s.power := by rw [dropLines_frame]
@[simp] theorem dropLines_heldOps (keep : Option Nat) (a n : Nat) : (dropLines s keep a n).heldOps = s.heldOps := by rw [dropLines_frame]
@[simp] theorem dropLines_system (keep : Option Nat) (a n : Nat) : (dropLines s keep a n).system = s.system := by rw [dropLines_frame]
@[simp] theorem dropLines_boot (keep : Option Nat) (a n : Nat) : (dropLines s keep a n).boot = s.boot := by rw [dropLines_frame]
@[simp] theorem dropLines_tmcHeld (keep : Option Nat) (a n : Nat) : (dropLines s keep a n).tmcHeld = s.tmcHeld := by rw [dropLines_frame]
@[simp] theorem dropLines_regAddr (keep : Option Nat) (a n : Nat) : (dropLines s keep a n).regAddr = s.regAddr := by rw [dropLines_frame]
@[simp] theorem dropLines_jtag (keep : Option Nat) (a n : Nat) : (dropLines s keep a n).jtag = s.jtag := by rw [dropLines_frame]

/- storeHost -/

@[simp] theorem storeHost_pending (a : Nat) (bs : List Byte) : (storeHost s a bs).pending = s.pending := by simp [storeHost]
@[simp] theorem storeHost_freeCtr (a : Nat) (bs : List Byte) : (storeHost s a bs).freeCtr = s.freeCtr := by simp [storeHost]
@[simp] theorem storeHost_out (a : Nat) (bs : List Byte) : (storeHost s a bs).out = s.out := by simp [storeHost]
@[simp] theorem storeHost_tbc (a : Nat) (bs : List Byte) : (storeHost s a bs).tbc = s.tbc := by simp [storeHost]
@[simp] theorem storeHost_time (a : Nat) (bs : List Byte) : (storeHost s a bs).time = s.time := by simp [storeHost]
@[simp] theorem storeHost_regs (a : Nat) (bs : List Byte) : (storeHost s a bs).regs = s.regs := by simp [storeHost]
@[simp] theorem storeHost_mem (a : Nat) (bs : List Byte) : (storeHost s a bs).mem = s.mem := by simp [storeHost]
@[simp] theorem storeHost_tags (a : Nat) (bs : List Byte) : (storeHost s a bs).tags = s.tags := by simp [storeHost]
@[simp] theorem storeHost_poison (a : Nat) (bs : List Byte) : (storeHost s a bs).poison = s.poison := by simp [storeHost]
@[simp] theorem storeHost_zeroed (a : Nat) (bs : List Byte) : (storeHost s a bs).zeroed = s.zeroed := by simp [storeHost]
@[simp] theorem storeHost_zeroFront (a : Nat) (bs : List Byte) : (storeHost s a bs).zeroFront = s.zeroFront := by simp [storeHost]
@[simp] theorem storeHost_flash (a : Nat) (bs : List Byte) : (storeHost s a bs).flash = s.flash := by simp [storeHost]
@[simp] theorem storeHost_minSvn (a : Nat) (bs : List Byte) : (storeHost s a bs).minSvn = s.minSvn := by simp [storeHost]
@[simp] theorem storeHost_revoked (a : Nat) (bs : List Byte) : (storeHost s a bs).revoked = s.revoked := by simp [storeHost]
@[simp] theorem storeHost_keyEra (a : Nat) (bs : List Byte) : (storeHost s a bs).keyEra = s.keyEra := by simp [storeHost]
@[simp] theorem storeHost_keyDraw (a : Nat) (bs : List Byte) : (storeHost s a bs).keyDraw = s.keyDraw := by simp [storeHost]
@[simp] theorem storeHost_advancing (a : Nat) (bs : List Byte) : (storeHost s a bs).advancing = s.advancing := by simp [storeHost]
@[simp] theorem storeHost_coresReleased (a : Nat) (bs : List Byte) : (storeHost s a bs).coresReleased = s.coresReleased := by simp [storeHost]
@[simp] theorem storeHost_acu (a : Nat) (bs : List Byte) : (storeHost s a bs).acu = s.acu := by simp [storeHost]
@[simp] theorem storeHost_funcs (a : Nat) (bs : List Byte) : (storeHost s a bs).funcs = s.funcs := by simp [storeHost]
@[simp] theorem storeHost_turnFn (a : Nat) (bs : List Byte) : (storeHost s a bs).turnFn = s.turnFn := by simp [storeHost]
@[simp] theorem storeHost_turnTaken (a : Nat) (bs : List Byte) : (storeHost s a bs).turnTaken = s.turnTaken := by simp [storeHost]
@[simp] theorem storeHost_vfEnable (a : Nat) (bs : List Byte) : (storeHost s a bs).vfEnable = s.vfEnable := by simp [storeHost]
@[simp] theorem storeHost_numVfs (a : Nat) (bs : List Byte) : (storeHost s a bs).numVfs = s.numVfs := by simp [storeHost]
@[simp] theorem storeHost_ops (a : Nat) (bs : List Byte) : (storeHost s a bs).ops = s.ops := by simp [storeHost]
@[simp] theorem storeHost_nextOp (a : Nat) (bs : List Byte) : (storeHost s a bs).nextOp = s.nextOp := by simp [storeHost]
@[simp] theorem storeHost_nextEnd (a : Nat) (bs : List Byte) : (storeHost s a bs).nextEnd = s.nextEnd := by simp [storeHost]
@[simp] theorem storeHost_queueSeq (a : Nat) (bs : List Byte) : (storeHost s a bs).queueSeq = s.queueSeq := by simp [storeHost]
@[simp] theorem storeHost_coveOwner (a : Nat) (bs : List Byte) : (storeHost s a bs).coveOwner = s.coveOwner := by simp [storeHost]
@[simp] theorem storeHost_coveClearing (a : Nat) (bs : List Byte) : (storeHost s a bs).coveClearing = s.coveClearing := by simp [storeHost]
@[simp] theorem storeHost_vctxOwner (a : Nat) (bs : List Byte) : (storeHost s a bs).vctxOwner = s.vctxOwner := by simp [storeHost]
@[simp] theorem storeHost_changeSet (a : Nat) (bs : List Byte) : (storeHost s a bs).changeSet = s.changeSet := by simp [storeHost]
@[simp] theorem storeHost_reqs (a : Nat) (bs : List Byte) : (storeHost s a bs).reqs = s.reqs := by simp [storeHost]
@[simp] theorem storeHost_nextRid (a : Nat) (bs : List Byte) : (storeHost s a bs).nextRid = s.nextRid := by simp [storeHost]
@[simp] theorem storeHost_class5 (a : Nat) (bs : List Byte) : (storeHost s a bs).class5 = s.class5 := by simp [storeHost]
@[simp] theorem storeHost_corrections (a : Nat) (bs : List Byte) : (storeHost s a bs).corrections = s.corrections := by simp [storeHost]
@[simp] theorem storeHost_wordsRecorded (a : Nat) (bs : List Byte) : (storeHost s a bs).wordsRecorded = s.wordsRecorded := by simp [storeHost]
@[simp] theorem storeHost_stopsHeld (a : Nat) (bs : List Byte) : (storeHost s a bs).stopsHeld = s.stopsHeld := by simp [storeHost]
@[simp] theorem storeHost_importBuf (a : Nat) (bs : List Byte) : (storeHost s a bs).importBuf = s.importBuf := by simp [storeHost]
@[simp] theorem storeHost_resetting (a : Nat) (bs : List Byte) : (storeHost s a bs).resetting = s.resetting := by simp [storeHost]
@[simp] theorem storeHost_strands (a : Nat) (bs : List Byte) : (storeHost s a bs).strands = s.strands := by simp [storeHost]
@[simp] theorem storeHost_vctxs (a : Nat) (bs : List Byte) : (storeHost s a bs).vctxs = s.vctxs := by simp [storeHost]
@[simp] theorem storeHost_pipes (a : Nat) (bs : List Byte) : (storeHost s a bs).pipes = s.pipes := by simp [storeHost]
@[simp] theorem storeHost_walks (a : Nat) (bs : List Byte) : (storeHost s a bs).walks = s.walks := by simp [storeHost]
@[simp] theorem storeHost_tables (a : Nat) (bs : List Byte) : (storeHost s a bs).tables = s.tables := by simp [storeHost]
@[simp] theorem storeHost_bound (a : Nat) (bs : List Byte) : (storeHost s a bs).bound = s.bound := by simp [storeHost]
@[simp] theorem storeHost_updates (a : Nat) (bs : List Byte) : (storeHost s a bs).updates = s.updates := by simp [storeHost]
@[simp] theorem storeHost_rowHolds (a : Nat) (bs : List Byte) : (storeHost s a bs).rowHolds = s.rowHolds := by simp [storeHost]
@[simp] theorem storeHost_dir (a : Nat) (bs : List Byte) : (storeHost s a bs).dir = s.dir := by simp [storeHost]
@[simp] theorem storeHost_skewNow (a : Nat) (bs : List Byte) : (storeHost s a bs).skewNow = s.skewNow := by simp [storeHost]
@[simp] theorem storeHost_skewLast (a : Nat) (bs : List Byte) : (storeHost s a bs).skewLast = s.skewLast := by simp [storeHost]
@[simp] theorem storeHost_skewPairs (a : Nat) (bs : List Byte) : (storeHost s a bs).skewPairs = s.skewPairs := by simp [storeHost]
@[simp] theorem storeHost_dtas (a : Nat) (bs : List Byte) : (storeHost s a bs).dtas = s.dtas := by simp [storeHost]
@[simp] theorem storeHost_hbm (a : Nat) (bs : List Byte) : (storeHost s a bs).hbm = s.hbm := by simp [storeHost]
@[simp] theorem storeHost_ports (a : Nat) (bs : List Byte) : (storeHost s a bs).ports = s.ports := by simp [storeHost]
@[simp] theorem storeHost_objects (a : Nat) (bs : List Byte) : (storeHost s a bs).objects = s.objects := by simp [storeHost]
@[simp] theorem storeHost_fabClk (a : Nat) (bs : List Byte) : (storeHost s a bs).fabClk = s.fabClk := by simp [storeHost]
@[simp] theorem storeHost_fabClkLostAt (a : Nat) (bs : List Byte) : (storeHost s a bs).fabClkLostAt = s.fabClkLostAt := by simp [storeHost]
@[simp] theorem storeHost_place (a : Nat) (bs : List Byte) : (storeHost s a bs).place = s.place := by simp [storeHost]
@[simp] theorem storeHost_planText (a : Nat) (bs : List Byte) : (storeHost s a bs).planText = s.planText := by simp [storeHost]
@[simp] theorem storeHost_plan (a : Nat) (bs : List Byte) : (storeHost s a bs).plan = s.plan := by simp [storeHost]
@[simp] theorem storeHost_power (a : Nat) (bs : List Byte) : (storeHost s a bs).power = s.power := by simp [storeHost]
@[simp] theorem storeHost_heldOps (a : Nat) (bs : List Byte) : (storeHost s a bs).heldOps = s.heldOps := by simp [storeHost]
@[simp] theorem storeHost_system (a : Nat) (bs : List Byte) : (storeHost s a bs).system = s.system := by simp [storeHost]
@[simp] theorem storeHost_boot (a : Nat) (bs : List Byte) : (storeHost s a bs).boot = s.boot := by simp [storeHost]
@[simp] theorem storeHost_tmcHeld (a : Nat) (bs : List Byte) : (storeHost s a bs).tmcHeld = s.tmcHeld := by simp [storeHost]
@[simp] theorem storeHost_regAddr (a : Nat) (bs : List Byte) : (storeHost s a bs).regAddr = s.regAddr := by simp [storeHost]
@[simp] theorem storeHost_jtag (a : Nat) (bs : List Byte) : (storeHost s a bs).jtag = s.jtag := by simp [storeHost]

/- setCore -/

@[simp] theorem setCore_pending (n : Nat) (c : HlCore) : (setCore s n c).pending = s.pending := by unfold setCore; rfl
@[simp] theorem setCore_freeCtr (n : Nat) (c : HlCore) : (setCore s n c).freeCtr = s.freeCtr := by unfold setCore; rfl
@[simp] theorem setCore_out (n : Nat) (c : HlCore) : (setCore s n c).out = s.out := by unfold setCore; rfl
@[simp] theorem setCore_tbc (n : Nat) (c : HlCore) : (setCore s n c).tbc = s.tbc := by unfold setCore; rfl
@[simp] theorem setCore_time (n : Nat) (c : HlCore) : (setCore s n c).time = s.time := by unfold setCore; rfl
@[simp] theorem setCore_regs (n : Nat) (c : HlCore) : (setCore s n c).regs = s.regs := by unfold setCore; rfl
@[simp] theorem setCore_mem (n : Nat) (c : HlCore) : (setCore s n c).mem = s.mem := by unfold setCore; rfl
@[simp] theorem setCore_tags (n : Nat) (c : HlCore) : (setCore s n c).tags = s.tags := by unfold setCore; rfl
@[simp] theorem setCore_poison (n : Nat) (c : HlCore) : (setCore s n c).poison = s.poison := by unfold setCore; rfl
@[simp] theorem setCore_zeroed (n : Nat) (c : HlCore) : (setCore s n c).zeroed = s.zeroed := by unfold setCore; rfl
@[simp] theorem setCore_zeroFront (n : Nat) (c : HlCore) : (setCore s n c).zeroFront = s.zeroFront := by unfold setCore; rfl
@[simp] theorem setCore_hostMem (n : Nat) (c : HlCore) : (setCore s n c).hostMem = s.hostMem := by unfold setCore; rfl
@[simp] theorem setCore_flash (n : Nat) (c : HlCore) : (setCore s n c).flash = s.flash := by unfold setCore; rfl
@[simp] theorem setCore_minSvn (n : Nat) (c : HlCore) : (setCore s n c).minSvn = s.minSvn := by unfold setCore; rfl
@[simp] theorem setCore_revoked (n : Nat) (c : HlCore) : (setCore s n c).revoked = s.revoked := by unfold setCore; rfl
@[simp] theorem setCore_keyEra (n : Nat) (c : HlCore) : (setCore s n c).keyEra = s.keyEra := by unfold setCore; rfl
@[simp] theorem setCore_keyDraw (n : Nat) (c : HlCore) : (setCore s n c).keyDraw = s.keyDraw := by unfold setCore; rfl
@[simp] theorem setCore_advancing (n : Nat) (c : HlCore) : (setCore s n c).advancing = s.advancing := by unfold setCore; rfl
@[simp] theorem setCore_coresReleased (n : Nat) (c : HlCore) : (setCore s n c).coresReleased = s.coresReleased := by unfold setCore; rfl
@[simp] theorem setCore_acu (n : Nat) (c : HlCore) : (setCore s n c).acu = s.acu := by unfold setCore; rfl
@[simp] theorem setCore_funcs (n : Nat) (c : HlCore) : (setCore s n c).funcs = s.funcs := by unfold setCore; rfl
@[simp] theorem setCore_turnFn (n : Nat) (c : HlCore) : (setCore s n c).turnFn = s.turnFn := by unfold setCore; rfl
@[simp] theorem setCore_turnTaken (n : Nat) (c : HlCore) : (setCore s n c).turnTaken = s.turnTaken := by unfold setCore; rfl
@[simp] theorem setCore_vfEnable (n : Nat) (c : HlCore) : (setCore s n c).vfEnable = s.vfEnable := by unfold setCore; rfl
@[simp] theorem setCore_numVfs (n : Nat) (c : HlCore) : (setCore s n c).numVfs = s.numVfs := by unfold setCore; rfl
@[simp] theorem setCore_ops (n : Nat) (c : HlCore) : (setCore s n c).ops = s.ops := by unfold setCore; rfl
@[simp] theorem setCore_nextOp (n : Nat) (c : HlCore) : (setCore s n c).nextOp = s.nextOp := by unfold setCore; rfl
@[simp] theorem setCore_nextEnd (n : Nat) (c : HlCore) : (setCore s n c).nextEnd = s.nextEnd := by unfold setCore; rfl
@[simp] theorem setCore_queueSeq (n : Nat) (c : HlCore) : (setCore s n c).queueSeq = s.queueSeq := by unfold setCore; rfl
@[simp] theorem setCore_coveOwner (n : Nat) (c : HlCore) : (setCore s n c).coveOwner = s.coveOwner := by unfold setCore; rfl
@[simp] theorem setCore_coveClearing (n : Nat) (c : HlCore) : (setCore s n c).coveClearing = s.coveClearing := by unfold setCore; rfl
@[simp] theorem setCore_vctxOwner (n : Nat) (c : HlCore) : (setCore s n c).vctxOwner = s.vctxOwner := by unfold setCore; rfl
@[simp] theorem setCore_changeSet (n : Nat) (c : HlCore) : (setCore s n c).changeSet = s.changeSet := by unfold setCore; rfl
@[simp] theorem setCore_reqs (n : Nat) (c : HlCore) : (setCore s n c).reqs = s.reqs := by unfold setCore; rfl
@[simp] theorem setCore_nextRid (n : Nat) (c : HlCore) : (setCore s n c).nextRid = s.nextRid := by unfold setCore; rfl
@[simp] theorem setCore_class5 (n : Nat) (c : HlCore) : (setCore s n c).class5 = s.class5 := by unfold setCore; rfl
@[simp] theorem setCore_corrections (n : Nat) (c : HlCore) : (setCore s n c).corrections = s.corrections := by unfold setCore; rfl
@[simp] theorem setCore_wordsRecorded (n : Nat) (c : HlCore) : (setCore s n c).wordsRecorded = s.wordsRecorded := by unfold setCore; rfl
@[simp] theorem setCore_stopsHeld (n : Nat) (c : HlCore) : (setCore s n c).stopsHeld = s.stopsHeld := by unfold setCore; rfl
@[simp] theorem setCore_importBuf (n : Nat) (c : HlCore) : (setCore s n c).importBuf = s.importBuf := by unfold setCore; rfl
@[simp] theorem setCore_resetting (n : Nat) (c : HlCore) : (setCore s n c).resetting = s.resetting := by unfold setCore; rfl
@[simp] theorem setCore_strands (n : Nat) (c : HlCore) : (setCore s n c).strands = s.strands := by unfold setCore; rfl
@[simp] theorem setCore_vctxs (n : Nat) (c : HlCore) : (setCore s n c).vctxs = s.vctxs := by unfold setCore; rfl
@[simp] theorem setCore_pipes (n : Nat) (c : HlCore) : (setCore s n c).pipes = s.pipes := by unfold setCore; rfl
@[simp] theorem setCore_walks (n : Nat) (c : HlCore) : (setCore s n c).walks = s.walks := by unfold setCore; rfl
@[simp] theorem setCore_tables (n : Nat) (c : HlCore) : (setCore s n c).tables = s.tables := by unfold setCore; rfl
@[simp] theorem setCore_bound (n : Nat) (c : HlCore) : (setCore s n c).bound = s.bound := by unfold setCore; rfl
@[simp] theorem setCore_updates (n : Nat) (c : HlCore) : (setCore s n c).updates = s.updates := by unfold setCore; rfl
@[simp] theorem setCore_rowHolds (n : Nat) (c : HlCore) : (setCore s n c).rowHolds = s.rowHolds := by unfold setCore; rfl
@[simp] theorem setCore_dir (n : Nat) (c : HlCore) : (setCore s n c).dir = s.dir := by unfold setCore; rfl
@[simp] theorem setCore_skewNow (n : Nat) (c : HlCore) : (setCore s n c).skewNow = s.skewNow := by unfold setCore; rfl
@[simp] theorem setCore_skewLast (n : Nat) (c : HlCore) : (setCore s n c).skewLast = s.skewLast := by unfold setCore; rfl
@[simp] theorem setCore_skewPairs (n : Nat) (c : HlCore) : (setCore s n c).skewPairs = s.skewPairs := by unfold setCore; rfl
@[simp] theorem setCore_dtas (n : Nat) (c : HlCore) : (setCore s n c).dtas = s.dtas := by unfold setCore; rfl
@[simp] theorem setCore_hbm (n : Nat) (c : HlCore) : (setCore s n c).hbm = s.hbm := by unfold setCore; rfl
@[simp] theorem setCore_ports (n : Nat) (c : HlCore) : (setCore s n c).ports = s.ports := by unfold setCore; rfl
@[simp] theorem setCore_objects (n : Nat) (c : HlCore) : (setCore s n c).objects = s.objects := by unfold setCore; rfl
@[simp] theorem setCore_fabClk (n : Nat) (c : HlCore) : (setCore s n c).fabClk = s.fabClk := by unfold setCore; rfl
@[simp] theorem setCore_fabClkLostAt (n : Nat) (c : HlCore) : (setCore s n c).fabClkLostAt = s.fabClkLostAt := by unfold setCore; rfl
@[simp] theorem setCore_place (n : Nat) (c : HlCore) : (setCore s n c).place = s.place := by unfold setCore; rfl
@[simp] theorem setCore_planText (n : Nat) (c : HlCore) : (setCore s n c).planText = s.planText := by unfold setCore; rfl
@[simp] theorem setCore_plan (n : Nat) (c : HlCore) : (setCore s n c).plan = s.plan := by unfold setCore; rfl
@[simp] theorem setCore_power (n : Nat) (c : HlCore) : (setCore s n c).power = s.power := by unfold setCore; rfl
@[simp] theorem setCore_heldOps (n : Nat) (c : HlCore) : (setCore s n c).heldOps = s.heldOps := by unfold setCore; rfl
@[simp] theorem setCore_system (n : Nat) (c : HlCore) : (setCore s n c).system = s.system := by unfold setCore; rfl
@[simp] theorem setCore_boot (n : Nat) (c : HlCore) : (setCore s n c).boot = s.boot := by unfold setCore; rfl
@[simp] theorem setCore_tmcHeld (n : Nat) (c : HlCore) : (setCore s n c).tmcHeld = s.tmcHeld := by unfold setCore; rfl
@[simp] theorem setCore_regAddr (n : Nat) (c : HlCore) : (setCore s n c).regAddr = s.regAddr := by unfold setCore; rfl
@[simp] theorem setCore_jtag (n : Nat) (c : HlCore) : (setCore s n c).jtag = s.jtag := by unfold setCore; rfl

/- setPort -/

@[simp] theorem setPort_pending (p : Nat) (x : Port) : (setPort s p x).pending = s.pending := by unfold setPort; rfl
@[simp] theorem setPort_freeCtr (p : Nat) (x : Port) : (setPort s p x).freeCtr = s.freeCtr := by unfold setPort; rfl
@[simp] theorem setPort_out (p : Nat) (x : Port) : (setPort s p x).out = s.out := by unfold setPort; rfl
@[simp] theorem setPort_tbc (p : Nat) (x : Port) : (setPort s p x).tbc = s.tbc := by unfold setPort; rfl
@[simp] theorem setPort_time (p : Nat) (x : Port) : (setPort s p x).time = s.time := by unfold setPort; rfl
@[simp] theorem setPort_regs (p : Nat) (x : Port) : (setPort s p x).regs = s.regs := by unfold setPort; rfl
@[simp] theorem setPort_mem (p : Nat) (x : Port) : (setPort s p x).mem = s.mem := by unfold setPort; rfl
@[simp] theorem setPort_tags (p : Nat) (x : Port) : (setPort s p x).tags = s.tags := by unfold setPort; rfl
@[simp] theorem setPort_poison (p : Nat) (x : Port) : (setPort s p x).poison = s.poison := by unfold setPort; rfl
@[simp] theorem setPort_zeroed (p : Nat) (x : Port) : (setPort s p x).zeroed = s.zeroed := by unfold setPort; rfl
@[simp] theorem setPort_zeroFront (p : Nat) (x : Port) : (setPort s p x).zeroFront = s.zeroFront := by unfold setPort; rfl
@[simp] theorem setPort_hostMem (p : Nat) (x : Port) : (setPort s p x).hostMem = s.hostMem := by unfold setPort; rfl
@[simp] theorem setPort_flash (p : Nat) (x : Port) : (setPort s p x).flash = s.flash := by unfold setPort; rfl
@[simp] theorem setPort_minSvn (p : Nat) (x : Port) : (setPort s p x).minSvn = s.minSvn := by unfold setPort; rfl
@[simp] theorem setPort_revoked (p : Nat) (x : Port) : (setPort s p x).revoked = s.revoked := by unfold setPort; rfl
@[simp] theorem setPort_keyEra (p : Nat) (x : Port) : (setPort s p x).keyEra = s.keyEra := by unfold setPort; rfl
@[simp] theorem setPort_keyDraw (p : Nat) (x : Port) : (setPort s p x).keyDraw = s.keyDraw := by unfold setPort; rfl
@[simp] theorem setPort_advancing (p : Nat) (x : Port) : (setPort s p x).advancing = s.advancing := by unfold setPort; rfl
@[simp] theorem setPort_cores (p : Nat) (x : Port) : (setPort s p x).cores = s.cores := by unfold setPort; rfl
@[simp] theorem setPort_coresReleased (p : Nat) (x : Port) : (setPort s p x).coresReleased = s.coresReleased := by unfold setPort; rfl
@[simp] theorem setPort_acu (p : Nat) (x : Port) : (setPort s p x).acu = s.acu := by unfold setPort; rfl
@[simp] theorem setPort_funcs (p : Nat) (x : Port) : (setPort s p x).funcs = s.funcs := by unfold setPort; rfl
@[simp] theorem setPort_turnFn (p : Nat) (x : Port) : (setPort s p x).turnFn = s.turnFn := by unfold setPort; rfl
@[simp] theorem setPort_turnTaken (p : Nat) (x : Port) : (setPort s p x).turnTaken = s.turnTaken := by unfold setPort; rfl
@[simp] theorem setPort_vfEnable (p : Nat) (x : Port) : (setPort s p x).vfEnable = s.vfEnable := by unfold setPort; rfl
@[simp] theorem setPort_numVfs (p : Nat) (x : Port) : (setPort s p x).numVfs = s.numVfs := by unfold setPort; rfl
@[simp] theorem setPort_ops (p : Nat) (x : Port) : (setPort s p x).ops = s.ops := by unfold setPort; rfl
@[simp] theorem setPort_nextOp (p : Nat) (x : Port) : (setPort s p x).nextOp = s.nextOp := by unfold setPort; rfl
@[simp] theorem setPort_nextEnd (p : Nat) (x : Port) : (setPort s p x).nextEnd = s.nextEnd := by unfold setPort; rfl
@[simp] theorem setPort_queueSeq (p : Nat) (x : Port) : (setPort s p x).queueSeq = s.queueSeq := by unfold setPort; rfl
@[simp] theorem setPort_coveOwner (p : Nat) (x : Port) : (setPort s p x).coveOwner = s.coveOwner := by unfold setPort; rfl
@[simp] theorem setPort_coveClearing (p : Nat) (x : Port) : (setPort s p x).coveClearing = s.coveClearing := by unfold setPort; rfl
@[simp] theorem setPort_vctxOwner (p : Nat) (x : Port) : (setPort s p x).vctxOwner = s.vctxOwner := by unfold setPort; rfl
@[simp] theorem setPort_changeSet (p : Nat) (x : Port) : (setPort s p x).changeSet = s.changeSet := by unfold setPort; rfl
@[simp] theorem setPort_reqs (p : Nat) (x : Port) : (setPort s p x).reqs = s.reqs := by unfold setPort; rfl
@[simp] theorem setPort_nextRid (p : Nat) (x : Port) : (setPort s p x).nextRid = s.nextRid := by unfold setPort; rfl
@[simp] theorem setPort_class5 (p : Nat) (x : Port) : (setPort s p x).class5 = s.class5 := by unfold setPort; rfl
@[simp] theorem setPort_corrections (p : Nat) (x : Port) : (setPort s p x).corrections = s.corrections := by unfold setPort; rfl
@[simp] theorem setPort_wordsRecorded (p : Nat) (x : Port) : (setPort s p x).wordsRecorded = s.wordsRecorded := by unfold setPort; rfl
@[simp] theorem setPort_stopsHeld (p : Nat) (x : Port) : (setPort s p x).stopsHeld = s.stopsHeld := by unfold setPort; rfl
@[simp] theorem setPort_importBuf (p : Nat) (x : Port) : (setPort s p x).importBuf = s.importBuf := by unfold setPort; rfl
@[simp] theorem setPort_resetting (p : Nat) (x : Port) : (setPort s p x).resetting = s.resetting := by unfold setPort; rfl
@[simp] theorem setPort_strands (p : Nat) (x : Port) : (setPort s p x).strands = s.strands := by unfold setPort; rfl
@[simp] theorem setPort_vctxs (p : Nat) (x : Port) : (setPort s p x).vctxs = s.vctxs := by unfold setPort; rfl
@[simp] theorem setPort_pipes (p : Nat) (x : Port) : (setPort s p x).pipes = s.pipes := by unfold setPort; rfl
@[simp] theorem setPort_walks (p : Nat) (x : Port) : (setPort s p x).walks = s.walks := by unfold setPort; rfl
@[simp] theorem setPort_tables (p : Nat) (x : Port) : (setPort s p x).tables = s.tables := by unfold setPort; rfl
@[simp] theorem setPort_bound (p : Nat) (x : Port) : (setPort s p x).bound = s.bound := by unfold setPort; rfl
@[simp] theorem setPort_updates (p : Nat) (x : Port) : (setPort s p x).updates = s.updates := by unfold setPort; rfl
@[simp] theorem setPort_rowHolds (p : Nat) (x : Port) : (setPort s p x).rowHolds = s.rowHolds := by unfold setPort; rfl
@[simp] theorem setPort_dir (p : Nat) (x : Port) : (setPort s p x).dir = s.dir := by unfold setPort; rfl
@[simp] theorem setPort_skewNow (p : Nat) (x : Port) : (setPort s p x).skewNow = s.skewNow := by unfold setPort; rfl
@[simp] theorem setPort_skewLast (p : Nat) (x : Port) : (setPort s p x).skewLast = s.skewLast := by unfold setPort; rfl
@[simp] theorem setPort_skewPairs (p : Nat) (x : Port) : (setPort s p x).skewPairs = s.skewPairs := by unfold setPort; rfl
@[simp] theorem setPort_dtas (p : Nat) (x : Port) : (setPort s p x).dtas = s.dtas := by unfold setPort; rfl
@[simp] theorem setPort_hbm (p : Nat) (x : Port) : (setPort s p x).hbm = s.hbm := by unfold setPort; rfl
@[simp] theorem setPort_objects (p : Nat) (x : Port) : (setPort s p x).objects = s.objects := by unfold setPort; rfl
@[simp] theorem setPort_fabClk (p : Nat) (x : Port) : (setPort s p x).fabClk = s.fabClk := by unfold setPort; rfl
@[simp] theorem setPort_fabClkLostAt (p : Nat) (x : Port) : (setPort s p x).fabClkLostAt = s.fabClkLostAt := by unfold setPort; rfl
@[simp] theorem setPort_place (p : Nat) (x : Port) : (setPort s p x).place = s.place := by unfold setPort; rfl
@[simp] theorem setPort_planText (p : Nat) (x : Port) : (setPort s p x).planText = s.planText := by unfold setPort; rfl
@[simp] theorem setPort_plan (p : Nat) (x : Port) : (setPort s p x).plan = s.plan := by unfold setPort; rfl
@[simp] theorem setPort_power (p : Nat) (x : Port) : (setPort s p x).power = s.power := by unfold setPort; rfl
@[simp] theorem setPort_heldOps (p : Nat) (x : Port) : (setPort s p x).heldOps = s.heldOps := by unfold setPort; rfl
@[simp] theorem setPort_system (p : Nat) (x : Port) : (setPort s p x).system = s.system := by unfold setPort; rfl
@[simp] theorem setPort_boot (p : Nat) (x : Port) : (setPort s p x).boot = s.boot := by unfold setPort; rfl
@[simp] theorem setPort_tmcHeld (p : Nat) (x : Port) : (setPort s p x).tmcHeld = s.tmcHeld := by unfold setPort; rfl
@[simp] theorem setPort_regAddr (p : Nat) (x : Port) : (setPort s p x).regAddr = s.regAddr := by unfold setPort; rfl
@[simp] theorem setPort_jtag (p : Nat) (x : Port) : (setPort s p x).jtag = s.jtag := by unfold setPort; rfl

/- putOp -/

@[simp] theorem putOp_pending (o : Op) : (putOp s o).pending = s.pending := by unfold putOp; rfl
@[simp] theorem putOp_freeCtr (o : Op) : (putOp s o).freeCtr = s.freeCtr := by unfold putOp; rfl
@[simp] theorem putOp_out (o : Op) : (putOp s o).out = s.out := by unfold putOp; rfl
@[simp] theorem putOp_tbc (o : Op) : (putOp s o).tbc = s.tbc := by unfold putOp; rfl
@[simp] theorem putOp_time (o : Op) : (putOp s o).time = s.time := by unfold putOp; rfl
@[simp] theorem putOp_regs (o : Op) : (putOp s o).regs = s.regs := by unfold putOp; rfl
@[simp] theorem putOp_mem (o : Op) : (putOp s o).mem = s.mem := by unfold putOp; rfl
@[simp] theorem putOp_tags (o : Op) : (putOp s o).tags = s.tags := by unfold putOp; rfl
@[simp] theorem putOp_poison (o : Op) : (putOp s o).poison = s.poison := by unfold putOp; rfl
@[simp] theorem putOp_zeroed (o : Op) : (putOp s o).zeroed = s.zeroed := by unfold putOp; rfl
@[simp] theorem putOp_zeroFront (o : Op) : (putOp s o).zeroFront = s.zeroFront := by unfold putOp; rfl
@[simp] theorem putOp_hostMem (o : Op) : (putOp s o).hostMem = s.hostMem := by unfold putOp; rfl
@[simp] theorem putOp_flash (o : Op) : (putOp s o).flash = s.flash := by unfold putOp; rfl
@[simp] theorem putOp_minSvn (o : Op) : (putOp s o).minSvn = s.minSvn := by unfold putOp; rfl
@[simp] theorem putOp_revoked (o : Op) : (putOp s o).revoked = s.revoked := by unfold putOp; rfl
@[simp] theorem putOp_keyEra (o : Op) : (putOp s o).keyEra = s.keyEra := by unfold putOp; rfl
@[simp] theorem putOp_keyDraw (o : Op) : (putOp s o).keyDraw = s.keyDraw := by unfold putOp; rfl
@[simp] theorem putOp_advancing (o : Op) : (putOp s o).advancing = s.advancing := by unfold putOp; rfl
@[simp] theorem putOp_cores (o : Op) : (putOp s o).cores = s.cores := by unfold putOp; rfl
@[simp] theorem putOp_coresReleased (o : Op) : (putOp s o).coresReleased = s.coresReleased := by unfold putOp; rfl
@[simp] theorem putOp_acu (o : Op) : (putOp s o).acu = s.acu := by unfold putOp; rfl
@[simp] theorem putOp_funcs (o : Op) : (putOp s o).funcs = s.funcs := by unfold putOp; rfl
@[simp] theorem putOp_turnFn (o : Op) : (putOp s o).turnFn = s.turnFn := by unfold putOp; rfl
@[simp] theorem putOp_turnTaken (o : Op) : (putOp s o).turnTaken = s.turnTaken := by unfold putOp; rfl
@[simp] theorem putOp_vfEnable (o : Op) : (putOp s o).vfEnable = s.vfEnable := by unfold putOp; rfl
@[simp] theorem putOp_numVfs (o : Op) : (putOp s o).numVfs = s.numVfs := by unfold putOp; rfl
@[simp] theorem putOp_nextOp (o : Op) : (putOp s o).nextOp = s.nextOp := by unfold putOp; rfl
@[simp] theorem putOp_nextEnd (o : Op) : (putOp s o).nextEnd = s.nextEnd := by unfold putOp; rfl
@[simp] theorem putOp_queueSeq (o : Op) : (putOp s o).queueSeq = s.queueSeq := by unfold putOp; rfl
@[simp] theorem putOp_coveOwner (o : Op) : (putOp s o).coveOwner = s.coveOwner := by unfold putOp; rfl
@[simp] theorem putOp_coveClearing (o : Op) : (putOp s o).coveClearing = s.coveClearing := by unfold putOp; rfl
@[simp] theorem putOp_vctxOwner (o : Op) : (putOp s o).vctxOwner = s.vctxOwner := by unfold putOp; rfl
@[simp] theorem putOp_changeSet (o : Op) : (putOp s o).changeSet = s.changeSet := by unfold putOp; rfl
@[simp] theorem putOp_reqs (o : Op) : (putOp s o).reqs = s.reqs := by unfold putOp; rfl
@[simp] theorem putOp_nextRid (o : Op) : (putOp s o).nextRid = s.nextRid := by unfold putOp; rfl
@[simp] theorem putOp_class5 (o : Op) : (putOp s o).class5 = s.class5 := by unfold putOp; rfl
@[simp] theorem putOp_corrections (o : Op) : (putOp s o).corrections = s.corrections := by unfold putOp; rfl
@[simp] theorem putOp_wordsRecorded (o : Op) : (putOp s o).wordsRecorded = s.wordsRecorded := by unfold putOp; rfl
@[simp] theorem putOp_stopsHeld (o : Op) : (putOp s o).stopsHeld = s.stopsHeld := by unfold putOp; rfl
@[simp] theorem putOp_importBuf (o : Op) : (putOp s o).importBuf = s.importBuf := by unfold putOp; rfl
@[simp] theorem putOp_resetting (o : Op) : (putOp s o).resetting = s.resetting := by unfold putOp; rfl
@[simp] theorem putOp_strands (o : Op) : (putOp s o).strands = s.strands := by unfold putOp; rfl
@[simp] theorem putOp_vctxs (o : Op) : (putOp s o).vctxs = s.vctxs := by unfold putOp; rfl
@[simp] theorem putOp_pipes (o : Op) : (putOp s o).pipes = s.pipes := by unfold putOp; rfl
@[simp] theorem putOp_walks (o : Op) : (putOp s o).walks = s.walks := by unfold putOp; rfl
@[simp] theorem putOp_tables (o : Op) : (putOp s o).tables = s.tables := by unfold putOp; rfl
@[simp] theorem putOp_bound (o : Op) : (putOp s o).bound = s.bound := by unfold putOp; rfl
@[simp] theorem putOp_updates (o : Op) : (putOp s o).updates = s.updates := by unfold putOp; rfl
@[simp] theorem putOp_rowHolds (o : Op) : (putOp s o).rowHolds = s.rowHolds := by unfold putOp; rfl
@[simp] theorem putOp_dir (o : Op) : (putOp s o).dir = s.dir := by unfold putOp; rfl
@[simp] theorem putOp_skewNow (o : Op) : (putOp s o).skewNow = s.skewNow := by unfold putOp; rfl
@[simp] theorem putOp_skewLast (o : Op) : (putOp s o).skewLast = s.skewLast := by unfold putOp; rfl
@[simp] theorem putOp_skewPairs (o : Op) : (putOp s o).skewPairs = s.skewPairs := by unfold putOp; rfl
@[simp] theorem putOp_dtas (o : Op) : (putOp s o).dtas = s.dtas := by unfold putOp; rfl
@[simp] theorem putOp_hbm (o : Op) : (putOp s o).hbm = s.hbm := by unfold putOp; rfl
@[simp] theorem putOp_ports (o : Op) : (putOp s o).ports = s.ports := by unfold putOp; rfl
@[simp] theorem putOp_objects (o : Op) : (putOp s o).objects = s.objects := by unfold putOp; rfl
@[simp] theorem putOp_fabClk (o : Op) : (putOp s o).fabClk = s.fabClk := by unfold putOp; rfl
@[simp] theorem putOp_fabClkLostAt (o : Op) : (putOp s o).fabClkLostAt = s.fabClkLostAt := by unfold putOp; rfl
@[simp] theorem putOp_place (o : Op) : (putOp s o).place = s.place := by unfold putOp; rfl
@[simp] theorem putOp_planText (o : Op) : (putOp s o).planText = s.planText := by unfold putOp; rfl
@[simp] theorem putOp_plan (o : Op) : (putOp s o).plan = s.plan := by unfold putOp; rfl
@[simp] theorem putOp_power (o : Op) : (putOp s o).power = s.power := by unfold putOp; rfl
@[simp] theorem putOp_heldOps (o : Op) : (putOp s o).heldOps = s.heldOps := by unfold putOp; rfl
@[simp] theorem putOp_system (o : Op) : (putOp s o).system = s.system := by unfold putOp; rfl
@[simp] theorem putOp_boot (o : Op) : (putOp s o).boot = s.boot := by unfold putOp; rfl
@[simp] theorem putOp_tmcHeld (o : Op) : (putOp s o).tmcHeld = s.tmcHeld := by unfold putOp; rfl
@[simp] theorem putOp_regAddr (o : Op) : (putOp s o).regAddr = s.regAddr := by unfold putOp; rfl
@[simp] theorem putOp_jtag (o : Op) : (putOp s o).jtag = s.jtag := by unfold putOp; rfl

/- setTray -/

@[simp] theorem setTray_pending (t : Nat) (x : Tray) : (setTray s t x).pending = s.pending := by unfold setTray; rfl
@[simp] theorem setTray_freeCtr (t : Nat) (x : Tray) : (setTray s t x).freeCtr = s.freeCtr := by unfold setTray; rfl
@[simp] theorem setTray_out (t : Nat) (x : Tray) : (setTray s t x).out = s.out := by unfold setTray; rfl
@[simp] theorem setTray_tbc (t : Nat) (x : Tray) : (setTray s t x).tbc = s.tbc := by unfold setTray; rfl
@[simp] theorem setTray_time (t : Nat) (x : Tray) : (setTray s t x).time = s.time := by unfold setTray; rfl
@[simp] theorem setTray_regs (t : Nat) (x : Tray) : (setTray s t x).regs = s.regs := by unfold setTray; rfl
@[simp] theorem setTray_mem (t : Nat) (x : Tray) : (setTray s t x).mem = s.mem := by unfold setTray; rfl
@[simp] theorem setTray_tags (t : Nat) (x : Tray) : (setTray s t x).tags = s.tags := by unfold setTray; rfl
@[simp] theorem setTray_poison (t : Nat) (x : Tray) : (setTray s t x).poison = s.poison := by unfold setTray; rfl
@[simp] theorem setTray_zeroed (t : Nat) (x : Tray) : (setTray s t x).zeroed = s.zeroed := by unfold setTray; rfl
@[simp] theorem setTray_zeroFront (t : Nat) (x : Tray) : (setTray s t x).zeroFront = s.zeroFront := by unfold setTray; rfl
@[simp] theorem setTray_hostMem (t : Nat) (x : Tray) : (setTray s t x).hostMem = s.hostMem := by unfold setTray; rfl
@[simp] theorem setTray_flash (t : Nat) (x : Tray) : (setTray s t x).flash = s.flash := by unfold setTray; rfl
@[simp] theorem setTray_minSvn (t : Nat) (x : Tray) : (setTray s t x).minSvn = s.minSvn := by unfold setTray; rfl
@[simp] theorem setTray_revoked (t : Nat) (x : Tray) : (setTray s t x).revoked = s.revoked := by unfold setTray; rfl
@[simp] theorem setTray_keyEra (t : Nat) (x : Tray) : (setTray s t x).keyEra = s.keyEra := by unfold setTray; rfl
@[simp] theorem setTray_keyDraw (t : Nat) (x : Tray) : (setTray s t x).keyDraw = s.keyDraw := by unfold setTray; rfl
@[simp] theorem setTray_advancing (t : Nat) (x : Tray) : (setTray s t x).advancing = s.advancing := by unfold setTray; rfl
@[simp] theorem setTray_cores (t : Nat) (x : Tray) : (setTray s t x).cores = s.cores := by unfold setTray; rfl
@[simp] theorem setTray_coresReleased (t : Nat) (x : Tray) : (setTray s t x).coresReleased = s.coresReleased := by unfold setTray; rfl
@[simp] theorem setTray_acu (t : Nat) (x : Tray) : (setTray s t x).acu = s.acu := by unfold setTray; rfl
@[simp] theorem setTray_funcs (t : Nat) (x : Tray) : (setTray s t x).funcs = s.funcs := by unfold setTray; rfl
@[simp] theorem setTray_turnFn (t : Nat) (x : Tray) : (setTray s t x).turnFn = s.turnFn := by unfold setTray; rfl
@[simp] theorem setTray_turnTaken (t : Nat) (x : Tray) : (setTray s t x).turnTaken = s.turnTaken := by unfold setTray; rfl
@[simp] theorem setTray_vfEnable (t : Nat) (x : Tray) : (setTray s t x).vfEnable = s.vfEnable := by unfold setTray; rfl
@[simp] theorem setTray_numVfs (t : Nat) (x : Tray) : (setTray s t x).numVfs = s.numVfs := by unfold setTray; rfl
@[simp] theorem setTray_ops (t : Nat) (x : Tray) : (setTray s t x).ops = s.ops := by unfold setTray; rfl
@[simp] theorem setTray_nextOp (t : Nat) (x : Tray) : (setTray s t x).nextOp = s.nextOp := by unfold setTray; rfl
@[simp] theorem setTray_nextEnd (t : Nat) (x : Tray) : (setTray s t x).nextEnd = s.nextEnd := by unfold setTray; rfl
@[simp] theorem setTray_queueSeq (t : Nat) (x : Tray) : (setTray s t x).queueSeq = s.queueSeq := by unfold setTray; rfl
@[simp] theorem setTray_coveOwner (t : Nat) (x : Tray) : (setTray s t x).coveOwner = s.coveOwner := by unfold setTray; rfl
@[simp] theorem setTray_coveClearing (t : Nat) (x : Tray) : (setTray s t x).coveClearing = s.coveClearing := by unfold setTray; rfl
@[simp] theorem setTray_vctxOwner (t : Nat) (x : Tray) : (setTray s t x).vctxOwner = s.vctxOwner := by unfold setTray; rfl
@[simp] theorem setTray_changeSet (t : Nat) (x : Tray) : (setTray s t x).changeSet = s.changeSet := by unfold setTray; rfl
@[simp] theorem setTray_reqs (t : Nat) (x : Tray) : (setTray s t x).reqs = s.reqs := by unfold setTray; rfl
@[simp] theorem setTray_nextRid (t : Nat) (x : Tray) : (setTray s t x).nextRid = s.nextRid := by unfold setTray; rfl
@[simp] theorem setTray_class5 (t : Nat) (x : Tray) : (setTray s t x).class5 = s.class5 := by unfold setTray; rfl
@[simp] theorem setTray_corrections (t : Nat) (x : Tray) : (setTray s t x).corrections = s.corrections := by unfold setTray; rfl
@[simp] theorem setTray_wordsRecorded (t : Nat) (x : Tray) : (setTray s t x).wordsRecorded = s.wordsRecorded := by unfold setTray; rfl
@[simp] theorem setTray_stopsHeld (t : Nat) (x : Tray) : (setTray s t x).stopsHeld = s.stopsHeld := by unfold setTray; rfl
@[simp] theorem setTray_importBuf (t : Nat) (x : Tray) : (setTray s t x).importBuf = s.importBuf := by unfold setTray; rfl
@[simp] theorem setTray_resetting (t : Nat) (x : Tray) : (setTray s t x).resetting = s.resetting := by unfold setTray; rfl
@[simp] theorem setTray_strands (t : Nat) (x : Tray) : (setTray s t x).strands = s.strands := by unfold setTray; rfl
@[simp] theorem setTray_vctxs (t : Nat) (x : Tray) : (setTray s t x).vctxs = s.vctxs := by unfold setTray; rfl
@[simp] theorem setTray_pipes (t : Nat) (x : Tray) : (setTray s t x).pipes = s.pipes := by unfold setTray; rfl
@[simp] theorem setTray_walks (t : Nat) (x : Tray) : (setTray s t x).walks = s.walks := by unfold setTray; rfl
@[simp] theorem setTray_tables (t : Nat) (x : Tray) : (setTray s t x).tables = s.tables := by unfold setTray; rfl
@[simp] theorem setTray_bound (t : Nat) (x : Tray) : (setTray s t x).bound = s.bound := by unfold setTray; rfl
@[simp] theorem setTray_updates (t : Nat) (x : Tray) : (setTray s t x).updates = s.updates := by unfold setTray; rfl
@[simp] theorem setTray_rowHolds (t : Nat) (x : Tray) : (setTray s t x).rowHolds = s.rowHolds := by unfold setTray; rfl
@[simp] theorem setTray_dir (t : Nat) (x : Tray) : (setTray s t x).dir = s.dir := by unfold setTray; rfl
@[simp] theorem setTray_skewNow (t : Nat) (x : Tray) : (setTray s t x).skewNow = s.skewNow := by unfold setTray; rfl
@[simp] theorem setTray_skewLast (t : Nat) (x : Tray) : (setTray s t x).skewLast = s.skewLast := by unfold setTray; rfl
@[simp] theorem setTray_skewPairs (t : Nat) (x : Tray) : (setTray s t x).skewPairs = s.skewPairs := by unfold setTray; rfl
@[simp] theorem setTray_dtas (t : Nat) (x : Tray) : (setTray s t x).dtas = s.dtas := by unfold setTray; rfl
@[simp] theorem setTray_hbm (t : Nat) (x : Tray) : (setTray s t x).hbm = s.hbm := by unfold setTray; rfl
@[simp] theorem setTray_ports (t : Nat) (x : Tray) : (setTray s t x).ports = s.ports := by unfold setTray; rfl
@[simp] theorem setTray_objects (t : Nat) (x : Tray) : (setTray s t x).objects = s.objects := by unfold setTray; rfl
@[simp] theorem setTray_fabClk (t : Nat) (x : Tray) : (setTray s t x).fabClk = s.fabClk := by unfold setTray; rfl
@[simp] theorem setTray_fabClkLostAt (t : Nat) (x : Tray) : (setTray s t x).fabClkLostAt = s.fabClkLostAt := by unfold setTray; rfl
@[simp] theorem setTray_place (t : Nat) (x : Tray) : (setTray s t x).place = s.place := by unfold setTray; rfl
@[simp] theorem setTray_planText (t : Nat) (x : Tray) : (setTray s t x).planText = s.planText := by unfold setTray; rfl
@[simp] theorem setTray_plan (t : Nat) (x : Tray) : (setTray s t x).plan = s.plan := by unfold setTray; rfl
@[simp] theorem setTray_power (t : Nat) (x : Tray) : (setTray s t x).power = s.power := by unfold setTray; rfl
@[simp] theorem setTray_heldOps (t : Nat) (x : Tray) : (setTray s t x).heldOps = s.heldOps := by unfold setTray; rfl
@[simp] theorem setTray_boot (t : Nat) (x : Tray) : (setTray s t x).boot = s.boot := by unfold setTray; rfl
@[simp] theorem setTray_tmcHeld (t : Nat) (x : Tray) : (setTray s t x).tmcHeld = s.tmcHeld := by unfold setTray; rfl
@[simp] theorem setTray_regAddr (t : Nat) (x : Tray) : (setTray s t x).regAddr = s.regAddr := by unfold setTray; rfl
@[simp] theorem setTray_jtag (t : Nat) (x : Tray) : (setTray s t x).jtag = s.jtag := by unfold setTray; rfl

/- setRack -/

@[simp] theorem setRack_pending (r : RackMgr) : (setRack s r).pending = s.pending := by unfold setRack; rfl
@[simp] theorem setRack_freeCtr (r : RackMgr) : (setRack s r).freeCtr = s.freeCtr := by unfold setRack; rfl
@[simp] theorem setRack_out (r : RackMgr) : (setRack s r).out = s.out := by unfold setRack; rfl
@[simp] theorem setRack_tbc (r : RackMgr) : (setRack s r).tbc = s.tbc := by unfold setRack; rfl
@[simp] theorem setRack_time (r : RackMgr) : (setRack s r).time = s.time := by unfold setRack; rfl
@[simp] theorem setRack_regs (r : RackMgr) : (setRack s r).regs = s.regs := by unfold setRack; rfl
@[simp] theorem setRack_mem (r : RackMgr) : (setRack s r).mem = s.mem := by unfold setRack; rfl
@[simp] theorem setRack_tags (r : RackMgr) : (setRack s r).tags = s.tags := by unfold setRack; rfl
@[simp] theorem setRack_poison (r : RackMgr) : (setRack s r).poison = s.poison := by unfold setRack; rfl
@[simp] theorem setRack_zeroed (r : RackMgr) : (setRack s r).zeroed = s.zeroed := by unfold setRack; rfl
@[simp] theorem setRack_zeroFront (r : RackMgr) : (setRack s r).zeroFront = s.zeroFront := by unfold setRack; rfl
@[simp] theorem setRack_hostMem (r : RackMgr) : (setRack s r).hostMem = s.hostMem := by unfold setRack; rfl
@[simp] theorem setRack_flash (r : RackMgr) : (setRack s r).flash = s.flash := by unfold setRack; rfl
@[simp] theorem setRack_minSvn (r : RackMgr) : (setRack s r).minSvn = s.minSvn := by unfold setRack; rfl
@[simp] theorem setRack_revoked (r : RackMgr) : (setRack s r).revoked = s.revoked := by unfold setRack; rfl
@[simp] theorem setRack_keyEra (r : RackMgr) : (setRack s r).keyEra = s.keyEra := by unfold setRack; rfl
@[simp] theorem setRack_keyDraw (r : RackMgr) : (setRack s r).keyDraw = s.keyDraw := by unfold setRack; rfl
@[simp] theorem setRack_advancing (r : RackMgr) : (setRack s r).advancing = s.advancing := by unfold setRack; rfl
@[simp] theorem setRack_cores (r : RackMgr) : (setRack s r).cores = s.cores := by unfold setRack; rfl
@[simp] theorem setRack_coresReleased (r : RackMgr) : (setRack s r).coresReleased = s.coresReleased := by unfold setRack; rfl
@[simp] theorem setRack_acu (r : RackMgr) : (setRack s r).acu = s.acu := by unfold setRack; rfl
@[simp] theorem setRack_funcs (r : RackMgr) : (setRack s r).funcs = s.funcs := by unfold setRack; rfl
@[simp] theorem setRack_turnFn (r : RackMgr) : (setRack s r).turnFn = s.turnFn := by unfold setRack; rfl
@[simp] theorem setRack_turnTaken (r : RackMgr) : (setRack s r).turnTaken = s.turnTaken := by unfold setRack; rfl
@[simp] theorem setRack_vfEnable (r : RackMgr) : (setRack s r).vfEnable = s.vfEnable := by unfold setRack; rfl
@[simp] theorem setRack_numVfs (r : RackMgr) : (setRack s r).numVfs = s.numVfs := by unfold setRack; rfl
@[simp] theorem setRack_ops (r : RackMgr) : (setRack s r).ops = s.ops := by unfold setRack; rfl
@[simp] theorem setRack_nextOp (r : RackMgr) : (setRack s r).nextOp = s.nextOp := by unfold setRack; rfl
@[simp] theorem setRack_nextEnd (r : RackMgr) : (setRack s r).nextEnd = s.nextEnd := by unfold setRack; rfl
@[simp] theorem setRack_queueSeq (r : RackMgr) : (setRack s r).queueSeq = s.queueSeq := by unfold setRack; rfl
@[simp] theorem setRack_coveOwner (r : RackMgr) : (setRack s r).coveOwner = s.coveOwner := by unfold setRack; rfl
@[simp] theorem setRack_coveClearing (r : RackMgr) : (setRack s r).coveClearing = s.coveClearing := by unfold setRack; rfl
@[simp] theorem setRack_vctxOwner (r : RackMgr) : (setRack s r).vctxOwner = s.vctxOwner := by unfold setRack; rfl
@[simp] theorem setRack_changeSet (r : RackMgr) : (setRack s r).changeSet = s.changeSet := by unfold setRack; rfl
@[simp] theorem setRack_reqs (r : RackMgr) : (setRack s r).reqs = s.reqs := by unfold setRack; rfl
@[simp] theorem setRack_nextRid (r : RackMgr) : (setRack s r).nextRid = s.nextRid := by unfold setRack; rfl
@[simp] theorem setRack_class5 (r : RackMgr) : (setRack s r).class5 = s.class5 := by unfold setRack; rfl
@[simp] theorem setRack_corrections (r : RackMgr) : (setRack s r).corrections = s.corrections := by unfold setRack; rfl
@[simp] theorem setRack_wordsRecorded (r : RackMgr) : (setRack s r).wordsRecorded = s.wordsRecorded := by unfold setRack; rfl
@[simp] theorem setRack_stopsHeld (r : RackMgr) : (setRack s r).stopsHeld = s.stopsHeld := by unfold setRack; rfl
@[simp] theorem setRack_importBuf (r : RackMgr) : (setRack s r).importBuf = s.importBuf := by unfold setRack; rfl
@[simp] theorem setRack_resetting (r : RackMgr) : (setRack s r).resetting = s.resetting := by unfold setRack; rfl
@[simp] theorem setRack_strands (r : RackMgr) : (setRack s r).strands = s.strands := by unfold setRack; rfl
@[simp] theorem setRack_vctxs (r : RackMgr) : (setRack s r).vctxs = s.vctxs := by unfold setRack; rfl
@[simp] theorem setRack_pipes (r : RackMgr) : (setRack s r).pipes = s.pipes := by unfold setRack; rfl
@[simp] theorem setRack_walks (r : RackMgr) : (setRack s r).walks = s.walks := by unfold setRack; rfl
@[simp] theorem setRack_tables (r : RackMgr) : (setRack s r).tables = s.tables := by unfold setRack; rfl
@[simp] theorem setRack_bound (r : RackMgr) : (setRack s r).bound = s.bound := by unfold setRack; rfl
@[simp] theorem setRack_updates (r : RackMgr) : (setRack s r).updates = s.updates := by unfold setRack; rfl
@[simp] theorem setRack_rowHolds (r : RackMgr) : (setRack s r).rowHolds = s.rowHolds := by unfold setRack; rfl
@[simp] theorem setRack_dir (r : RackMgr) : (setRack s r).dir = s.dir := by unfold setRack; rfl
@[simp] theorem setRack_skewNow (r : RackMgr) : (setRack s r).skewNow = s.skewNow := by unfold setRack; rfl
@[simp] theorem setRack_skewLast (r : RackMgr) : (setRack s r).skewLast = s.skewLast := by unfold setRack; rfl
@[simp] theorem setRack_skewPairs (r : RackMgr) : (setRack s r).skewPairs = s.skewPairs := by unfold setRack; rfl
@[simp] theorem setRack_dtas (r : RackMgr) : (setRack s r).dtas = s.dtas := by unfold setRack; rfl
@[simp] theorem setRack_hbm (r : RackMgr) : (setRack s r).hbm = s.hbm := by unfold setRack; rfl
@[simp] theorem setRack_ports (r : RackMgr) : (setRack s r).ports = s.ports := by unfold setRack; rfl
@[simp] theorem setRack_objects (r : RackMgr) : (setRack s r).objects = s.objects := by unfold setRack; rfl
@[simp] theorem setRack_fabClk (r : RackMgr) : (setRack s r).fabClk = s.fabClk := by unfold setRack; rfl
@[simp] theorem setRack_fabClkLostAt (r : RackMgr) : (setRack s r).fabClkLostAt = s.fabClkLostAt := by unfold setRack; rfl
@[simp] theorem setRack_place (r : RackMgr) : (setRack s r).place = s.place := by unfold setRack; rfl
@[simp] theorem setRack_planText (r : RackMgr) : (setRack s r).planText = s.planText := by unfold setRack; rfl
@[simp] theorem setRack_plan (r : RackMgr) : (setRack s r).plan = s.plan := by unfold setRack; rfl
@[simp] theorem setRack_power (r : RackMgr) : (setRack s r).power = s.power := by unfold setRack; rfl
@[simp] theorem setRack_heldOps (r : RackMgr) : (setRack s r).heldOps = s.heldOps := by unfold setRack; rfl
@[simp] theorem setRack_boot (r : RackMgr) : (setRack s r).boot = s.boot := by unfold setRack; rfl
@[simp] theorem setRack_tmcHeld (r : RackMgr) : (setRack s r).tmcHeld = s.tmcHeld := by unfold setRack; rfl
@[simp] theorem setRack_regAddr (r : RackMgr) : (setRack s r).regAddr = s.regAddr := by unfold setRack; rfl
@[simp] theorem setRack_jtag (r : RackMgr) : (setRack s r).jtag = s.jtag := by unfold setRack; rfl

/- storeFlash -/

@[simp] theorem storeFlash_pending (a : Nat) (bs : List Byte) : (storeFlash s a bs).pending = s.pending := by unfold storeFlash; rfl
@[simp] theorem storeFlash_freeCtr (a : Nat) (bs : List Byte) : (storeFlash s a bs).freeCtr = s.freeCtr := by unfold storeFlash; rfl
@[simp] theorem storeFlash_out (a : Nat) (bs : List Byte) : (storeFlash s a bs).out = s.out := by unfold storeFlash; rfl
@[simp] theorem storeFlash_tbc (a : Nat) (bs : List Byte) : (storeFlash s a bs).tbc = s.tbc := by unfold storeFlash; rfl
@[simp] theorem storeFlash_time (a : Nat) (bs : List Byte) : (storeFlash s a bs).time = s.time := by unfold storeFlash; rfl
@[simp] theorem storeFlash_regs (a : Nat) (bs : List Byte) : (storeFlash s a bs).regs = s.regs := by unfold storeFlash; rfl
@[simp] theorem storeFlash_mem (a : Nat) (bs : List Byte) : (storeFlash s a bs).mem = s.mem := by unfold storeFlash; rfl
@[simp] theorem storeFlash_tags (a : Nat) (bs : List Byte) : (storeFlash s a bs).tags = s.tags := by unfold storeFlash; rfl
@[simp] theorem storeFlash_poison (a : Nat) (bs : List Byte) : (storeFlash s a bs).poison = s.poison := by unfold storeFlash; rfl
@[simp] theorem storeFlash_zeroed (a : Nat) (bs : List Byte) : (storeFlash s a bs).zeroed = s.zeroed := by unfold storeFlash; rfl
@[simp] theorem storeFlash_zeroFront (a : Nat) (bs : List Byte) : (storeFlash s a bs).zeroFront = s.zeroFront := by unfold storeFlash; rfl
@[simp] theorem storeFlash_hostMem (a : Nat) (bs : List Byte) : (storeFlash s a bs).hostMem = s.hostMem := by unfold storeFlash; rfl
@[simp] theorem storeFlash_minSvn (a : Nat) (bs : List Byte) : (storeFlash s a bs).minSvn = s.minSvn := by unfold storeFlash; rfl
@[simp] theorem storeFlash_revoked (a : Nat) (bs : List Byte) : (storeFlash s a bs).revoked = s.revoked := by unfold storeFlash; rfl
@[simp] theorem storeFlash_keyEra (a : Nat) (bs : List Byte) : (storeFlash s a bs).keyEra = s.keyEra := by unfold storeFlash; rfl
@[simp] theorem storeFlash_keyDraw (a : Nat) (bs : List Byte) : (storeFlash s a bs).keyDraw = s.keyDraw := by unfold storeFlash; rfl
@[simp] theorem storeFlash_advancing (a : Nat) (bs : List Byte) : (storeFlash s a bs).advancing = s.advancing := by unfold storeFlash; rfl
@[simp] theorem storeFlash_cores (a : Nat) (bs : List Byte) : (storeFlash s a bs).cores = s.cores := by unfold storeFlash; rfl
@[simp] theorem storeFlash_coresReleased (a : Nat) (bs : List Byte) : (storeFlash s a bs).coresReleased = s.coresReleased := by unfold storeFlash; rfl
@[simp] theorem storeFlash_acu (a : Nat) (bs : List Byte) : (storeFlash s a bs).acu = s.acu := by unfold storeFlash; rfl
@[simp] theorem storeFlash_funcs (a : Nat) (bs : List Byte) : (storeFlash s a bs).funcs = s.funcs := by unfold storeFlash; rfl
@[simp] theorem storeFlash_turnFn (a : Nat) (bs : List Byte) : (storeFlash s a bs).turnFn = s.turnFn := by unfold storeFlash; rfl
@[simp] theorem storeFlash_turnTaken (a : Nat) (bs : List Byte) : (storeFlash s a bs).turnTaken = s.turnTaken := by unfold storeFlash; rfl
@[simp] theorem storeFlash_vfEnable (a : Nat) (bs : List Byte) : (storeFlash s a bs).vfEnable = s.vfEnable := by unfold storeFlash; rfl
@[simp] theorem storeFlash_numVfs (a : Nat) (bs : List Byte) : (storeFlash s a bs).numVfs = s.numVfs := by unfold storeFlash; rfl
@[simp] theorem storeFlash_ops (a : Nat) (bs : List Byte) : (storeFlash s a bs).ops = s.ops := by unfold storeFlash; rfl
@[simp] theorem storeFlash_nextOp (a : Nat) (bs : List Byte) : (storeFlash s a bs).nextOp = s.nextOp := by unfold storeFlash; rfl
@[simp] theorem storeFlash_nextEnd (a : Nat) (bs : List Byte) : (storeFlash s a bs).nextEnd = s.nextEnd := by unfold storeFlash; rfl
@[simp] theorem storeFlash_queueSeq (a : Nat) (bs : List Byte) : (storeFlash s a bs).queueSeq = s.queueSeq := by unfold storeFlash; rfl
@[simp] theorem storeFlash_coveOwner (a : Nat) (bs : List Byte) : (storeFlash s a bs).coveOwner = s.coveOwner := by unfold storeFlash; rfl
@[simp] theorem storeFlash_coveClearing (a : Nat) (bs : List Byte) : (storeFlash s a bs).coveClearing = s.coveClearing := by unfold storeFlash; rfl
@[simp] theorem storeFlash_vctxOwner (a : Nat) (bs : List Byte) : (storeFlash s a bs).vctxOwner = s.vctxOwner := by unfold storeFlash; rfl
@[simp] theorem storeFlash_changeSet (a : Nat) (bs : List Byte) : (storeFlash s a bs).changeSet = s.changeSet := by unfold storeFlash; rfl
@[simp] theorem storeFlash_reqs (a : Nat) (bs : List Byte) : (storeFlash s a bs).reqs = s.reqs := by unfold storeFlash; rfl
@[simp] theorem storeFlash_nextRid (a : Nat) (bs : List Byte) : (storeFlash s a bs).nextRid = s.nextRid := by unfold storeFlash; rfl
@[simp] theorem storeFlash_class5 (a : Nat) (bs : List Byte) : (storeFlash s a bs).class5 = s.class5 := by unfold storeFlash; rfl
@[simp] theorem storeFlash_corrections (a : Nat) (bs : List Byte) : (storeFlash s a bs).corrections = s.corrections := by unfold storeFlash; rfl
@[simp] theorem storeFlash_wordsRecorded (a : Nat) (bs : List Byte) : (storeFlash s a bs).wordsRecorded = s.wordsRecorded := by unfold storeFlash; rfl
@[simp] theorem storeFlash_stopsHeld (a : Nat) (bs : List Byte) : (storeFlash s a bs).stopsHeld = s.stopsHeld := by unfold storeFlash; rfl
@[simp] theorem storeFlash_importBuf (a : Nat) (bs : List Byte) : (storeFlash s a bs).importBuf = s.importBuf := by unfold storeFlash; rfl
@[simp] theorem storeFlash_resetting (a : Nat) (bs : List Byte) : (storeFlash s a bs).resetting = s.resetting := by unfold storeFlash; rfl
@[simp] theorem storeFlash_strands (a : Nat) (bs : List Byte) : (storeFlash s a bs).strands = s.strands := by unfold storeFlash; rfl
@[simp] theorem storeFlash_vctxs (a : Nat) (bs : List Byte) : (storeFlash s a bs).vctxs = s.vctxs := by unfold storeFlash; rfl
@[simp] theorem storeFlash_pipes (a : Nat) (bs : List Byte) : (storeFlash s a bs).pipes = s.pipes := by unfold storeFlash; rfl
@[simp] theorem storeFlash_walks (a : Nat) (bs : List Byte) : (storeFlash s a bs).walks = s.walks := by unfold storeFlash; rfl
@[simp] theorem storeFlash_tables (a : Nat) (bs : List Byte) : (storeFlash s a bs).tables = s.tables := by unfold storeFlash; rfl
@[simp] theorem storeFlash_bound (a : Nat) (bs : List Byte) : (storeFlash s a bs).bound = s.bound := by unfold storeFlash; rfl
@[simp] theorem storeFlash_updates (a : Nat) (bs : List Byte) : (storeFlash s a bs).updates = s.updates := by unfold storeFlash; rfl
@[simp] theorem storeFlash_rowHolds (a : Nat) (bs : List Byte) : (storeFlash s a bs).rowHolds = s.rowHolds := by unfold storeFlash; rfl
@[simp] theorem storeFlash_dir (a : Nat) (bs : List Byte) : (storeFlash s a bs).dir = s.dir := by unfold storeFlash; rfl
@[simp] theorem storeFlash_skewNow (a : Nat) (bs : List Byte) : (storeFlash s a bs).skewNow = s.skewNow := by unfold storeFlash; rfl
@[simp] theorem storeFlash_skewLast (a : Nat) (bs : List Byte) : (storeFlash s a bs).skewLast = s.skewLast := by unfold storeFlash; rfl
@[simp] theorem storeFlash_skewPairs (a : Nat) (bs : List Byte) : (storeFlash s a bs).skewPairs = s.skewPairs := by unfold storeFlash; rfl
@[simp] theorem storeFlash_dtas (a : Nat) (bs : List Byte) : (storeFlash s a bs).dtas = s.dtas := by unfold storeFlash; rfl
@[simp] theorem storeFlash_hbm (a : Nat) (bs : List Byte) : (storeFlash s a bs).hbm = s.hbm := by unfold storeFlash; rfl
@[simp] theorem storeFlash_ports (a : Nat) (bs : List Byte) : (storeFlash s a bs).ports = s.ports := by unfold storeFlash; rfl
@[simp] theorem storeFlash_objects (a : Nat) (bs : List Byte) : (storeFlash s a bs).objects = s.objects := by unfold storeFlash; rfl
@[simp] theorem storeFlash_fabClk (a : Nat) (bs : List Byte) : (storeFlash s a bs).fabClk = s.fabClk := by unfold storeFlash; rfl
@[simp] theorem storeFlash_fabClkLostAt (a : Nat) (bs : List Byte) : (storeFlash s a bs).fabClkLostAt = s.fabClkLostAt := by unfold storeFlash; rfl
@[simp] theorem storeFlash_place (a : Nat) (bs : List Byte) : (storeFlash s a bs).place = s.place := by unfold storeFlash; rfl
@[simp] theorem storeFlash_planText (a : Nat) (bs : List Byte) : (storeFlash s a bs).planText = s.planText := by unfold storeFlash; rfl
@[simp] theorem storeFlash_plan (a : Nat) (bs : List Byte) : (storeFlash s a bs).plan = s.plan := by unfold storeFlash; rfl
@[simp] theorem storeFlash_power (a : Nat) (bs : List Byte) : (storeFlash s a bs).power = s.power := by unfold storeFlash; rfl
@[simp] theorem storeFlash_heldOps (a : Nat) (bs : List Byte) : (storeFlash s a bs).heldOps = s.heldOps := by unfold storeFlash; rfl
@[simp] theorem storeFlash_system (a : Nat) (bs : List Byte) : (storeFlash s a bs).system = s.system := by unfold storeFlash; rfl
@[simp] theorem storeFlash_boot (a : Nat) (bs : List Byte) : (storeFlash s a bs).boot = s.boot := by unfold storeFlash; rfl
@[simp] theorem storeFlash_tmcHeld (a : Nat) (bs : List Byte) : (storeFlash s a bs).tmcHeld = s.tmcHeld := by unfold storeFlash; rfl
@[simp] theorem storeFlash_regAddr (a : Nat) (bs : List Byte) : (storeFlash s a bs).regAddr = s.regAddr := by unfold storeFlash; rfl
@[simp] theorem storeFlash_jtag (a : Nat) (bs : List Byte) : (storeFlash s a bs).jtag = s.jtag := by unfold storeFlash; rfl

/- freeNext -/

@[simp] theorem freeNext_pending : (freeNext s).2.pending = s.pending := by unfold freeNext; rfl
@[simp] theorem freeNext_out : (freeNext s).2.out = s.out := by unfold freeNext; rfl
@[simp] theorem freeNext_tbc : (freeNext s).2.tbc = s.tbc := by unfold freeNext; rfl
@[simp] theorem freeNext_time : (freeNext s).2.time = s.time := by unfold freeNext; rfl
@[simp] theorem freeNext_regs : (freeNext s).2.regs = s.regs := by unfold freeNext; rfl
@[simp] theorem freeNext_mem : (freeNext s).2.mem = s.mem := by unfold freeNext; rfl
@[simp] theorem freeNext_tags : (freeNext s).2.tags = s.tags := by unfold freeNext; rfl
@[simp] theorem freeNext_poison : (freeNext s).2.poison = s.poison := by unfold freeNext; rfl
@[simp] theorem freeNext_zeroed : (freeNext s).2.zeroed = s.zeroed := by unfold freeNext; rfl
@[simp] theorem freeNext_zeroFront : (freeNext s).2.zeroFront = s.zeroFront := by unfold freeNext; rfl
@[simp] theorem freeNext_hostMem : (freeNext s).2.hostMem = s.hostMem := by unfold freeNext; rfl
@[simp] theorem freeNext_flash : (freeNext s).2.flash = s.flash := by unfold freeNext; rfl
@[simp] theorem freeNext_minSvn : (freeNext s).2.minSvn = s.minSvn := by unfold freeNext; rfl
@[simp] theorem freeNext_revoked : (freeNext s).2.revoked = s.revoked := by unfold freeNext; rfl
@[simp] theorem freeNext_keyEra : (freeNext s).2.keyEra = s.keyEra := by unfold freeNext; rfl
@[simp] theorem freeNext_keyDraw : (freeNext s).2.keyDraw = s.keyDraw := by unfold freeNext; rfl
@[simp] theorem freeNext_advancing : (freeNext s).2.advancing = s.advancing := by unfold freeNext; rfl
@[simp] theorem freeNext_cores : (freeNext s).2.cores = s.cores := by unfold freeNext; rfl
@[simp] theorem freeNext_coresReleased : (freeNext s).2.coresReleased = s.coresReleased := by unfold freeNext; rfl
@[simp] theorem freeNext_acu : (freeNext s).2.acu = s.acu := by unfold freeNext; rfl
@[simp] theorem freeNext_funcs : (freeNext s).2.funcs = s.funcs := by unfold freeNext; rfl
@[simp] theorem freeNext_turnFn : (freeNext s).2.turnFn = s.turnFn := by unfold freeNext; rfl
@[simp] theorem freeNext_turnTaken : (freeNext s).2.turnTaken = s.turnTaken := by unfold freeNext; rfl
@[simp] theorem freeNext_vfEnable : (freeNext s).2.vfEnable = s.vfEnable := by unfold freeNext; rfl
@[simp] theorem freeNext_numVfs : (freeNext s).2.numVfs = s.numVfs := by unfold freeNext; rfl
@[simp] theorem freeNext_ops : (freeNext s).2.ops = s.ops := by unfold freeNext; rfl
@[simp] theorem freeNext_nextOp : (freeNext s).2.nextOp = s.nextOp := by unfold freeNext; rfl
@[simp] theorem freeNext_nextEnd : (freeNext s).2.nextEnd = s.nextEnd := by unfold freeNext; rfl
@[simp] theorem freeNext_queueSeq : (freeNext s).2.queueSeq = s.queueSeq := by unfold freeNext; rfl
@[simp] theorem freeNext_coveOwner : (freeNext s).2.coveOwner = s.coveOwner := by unfold freeNext; rfl
@[simp] theorem freeNext_coveClearing : (freeNext s).2.coveClearing = s.coveClearing := by unfold freeNext; rfl
@[simp] theorem freeNext_vctxOwner : (freeNext s).2.vctxOwner = s.vctxOwner := by unfold freeNext; rfl
@[simp] theorem freeNext_changeSet : (freeNext s).2.changeSet = s.changeSet := by unfold freeNext; rfl
@[simp] theorem freeNext_reqs : (freeNext s).2.reqs = s.reqs := by unfold freeNext; rfl
@[simp] theorem freeNext_nextRid : (freeNext s).2.nextRid = s.nextRid := by unfold freeNext; rfl
@[simp] theorem freeNext_class5 : (freeNext s).2.class5 = s.class5 := by unfold freeNext; rfl
@[simp] theorem freeNext_corrections : (freeNext s).2.corrections = s.corrections := by unfold freeNext; rfl
@[simp] theorem freeNext_wordsRecorded : (freeNext s).2.wordsRecorded = s.wordsRecorded := by unfold freeNext; rfl
@[simp] theorem freeNext_stopsHeld : (freeNext s).2.stopsHeld = s.stopsHeld := by unfold freeNext; rfl
@[simp] theorem freeNext_importBuf : (freeNext s).2.importBuf = s.importBuf := by unfold freeNext; rfl
@[simp] theorem freeNext_resetting : (freeNext s).2.resetting = s.resetting := by unfold freeNext; rfl
@[simp] theorem freeNext_strands : (freeNext s).2.strands = s.strands := by unfold freeNext; rfl
@[simp] theorem freeNext_vctxs : (freeNext s).2.vctxs = s.vctxs := by unfold freeNext; rfl
@[simp] theorem freeNext_pipes : (freeNext s).2.pipes = s.pipes := by unfold freeNext; rfl
@[simp] theorem freeNext_walks : (freeNext s).2.walks = s.walks := by unfold freeNext; rfl
@[simp] theorem freeNext_tables : (freeNext s).2.tables = s.tables := by unfold freeNext; rfl
@[simp] theorem freeNext_bound : (freeNext s).2.bound = s.bound := by unfold freeNext; rfl
@[simp] theorem freeNext_updates : (freeNext s).2.updates = s.updates := by unfold freeNext; rfl
@[simp] theorem freeNext_rowHolds : (freeNext s).2.rowHolds = s.rowHolds := by unfold freeNext; rfl
@[simp] theorem freeNext_dir : (freeNext s).2.dir = s.dir := by unfold freeNext; rfl
@[simp] theorem freeNext_skewNow : (freeNext s).2.skewNow = s.skewNow := by unfold freeNext; rfl
@[simp] theorem freeNext_skewLast : (freeNext s).2.skewLast = s.skewLast := by unfold freeNext; rfl
@[simp] theorem freeNext_skewPairs : (freeNext s).2.skewPairs = s.skewPairs := by unfold freeNext; rfl
@[simp] theorem freeNext_dtas : (freeNext s).2.dtas = s.dtas := by unfold freeNext; rfl
@[simp] theorem freeNext_hbm : (freeNext s).2.hbm = s.hbm := by unfold freeNext; rfl
@[simp] theorem freeNext_ports : (freeNext s).2.ports = s.ports := by unfold freeNext; rfl
@[simp] theorem freeNext_objects : (freeNext s).2.objects = s.objects := by unfold freeNext; rfl
@[simp] theorem freeNext_fabClk : (freeNext s).2.fabClk = s.fabClk := by unfold freeNext; rfl
@[simp] theorem freeNext_fabClkLostAt : (freeNext s).2.fabClkLostAt = s.fabClkLostAt := by unfold freeNext; rfl
@[simp] theorem freeNext_place : (freeNext s).2.place = s.place := by unfold freeNext; rfl
@[simp] theorem freeNext_planText : (freeNext s).2.planText = s.planText := by unfold freeNext; rfl
@[simp] theorem freeNext_plan : (freeNext s).2.plan = s.plan := by unfold freeNext; rfl
@[simp] theorem freeNext_power : (freeNext s).2.power = s.power := by unfold freeNext; rfl
@[simp] theorem freeNext_heldOps : (freeNext s).2.heldOps = s.heldOps := by unfold freeNext; rfl
@[simp] theorem freeNext_system : (freeNext s).2.system = s.system := by unfold freeNext; rfl
@[simp] theorem freeNext_boot : (freeNext s).2.boot = s.boot := by unfold freeNext; rfl
@[simp] theorem freeNext_tmcHeld : (freeNext s).2.tmcHeld = s.tmcHeld := by unfold freeNext; rfl
@[simp] theorem freeNext_regAddr : (freeNext s).2.regAddr = s.regAddr := by unfold freeNext; rfl
@[simp] theorem freeNext_jtag : (freeNext s).2.jtag = s.jtag := by unfold freeNext; rfl

theorem freeNext_counts : (freeNext s).2.freeCtr = s.freeCtr + 1 := rfl

end Sys2Proof.Machine
end

