-- ==== Sys2Proof/Laws/Frame.lean ====
section
/-! SUPPORT. What the shared operations over registers leave alone: register writes, error records, rule checks. -/

namespace Sys2Proof.Machine

/- Registers -/

theorem regGetFn_regSetFn (s : State) (fn off fn' off' : Nat) (v : W64) :
    regGetFn (regSetFn s fn off v) fn' off' = if regKey fn' off' = regKey fn off then v else regGetFn s fn' off' := by
  unfold regGetFn regSetFn; exact sget_sset _ _ _ _ _

theorem regKey_zero (off : Nat) : regKey 0 off = off := by unfold regKey; omega

theorem regGet_eq (s : State) (off : Nat) : regGet s off = regGetFn s 0 off := by
  unfold regGet regGetFn; rw [regKey_zero]

theorem regGet_regSet (s : State) (off off' : Nat) (v : W64) :
    regGet (regSet s off v) off' = if off' = off then v else regGet s off' := by
  simp only [regGet_eq, regSet, regGetFn_regSetFn, regKey_zero]

@[simp] theorem regGet_regSet_self (s : State) (off : Nat) (v : W64) : regGet (regSet s off v) off = v := by
  rw [regGet_regSet, if_pos rfl]

theorem regGet_regSet_ne (s : State) {off off' : Nat} (v : W64) (h : off' ≠ off) :
    regGet (regSet s off v) off' = regGet s off' := by
  rw [regGet_regSet, if_neg h]

/- OnlyRegs -/

theorem RegsKept.trans {K : Nat → Bool} {s t u : State} (h : RegsKept K s t) (h' : RegsKept K t u) : RegsKept K s u :=
  fun k hk => (h' k hk).trans (h k hk)

theorem RegsKept.mono {K K' : Nat → Bool} {s t : State} (h : RegsKept K s t) (hK : ∀ k, K k = true → K' k = true) :
    RegsKept K' s t := fun k hk => h k (by cases hc : K k; · rfl
                                           · rw [hK k hc] at hk; exact hk)

theorem RegsKept.regGet {K : Nat → Bool} {s t : State} (h : RegsKept K s t) {off : Nat} (hk : K off = false) :
    regGet t off = regGet s off := h off hk

theorem OnlyRegs.refl (K : Nat → Bool) (s : State) : OnlyRegs K s s := ⟨rfl, fun _ _ => rfl⟩

theorem OnlyRegs.trans {K : Nat → Bool} {s t u : State} (h : OnlyRegs K s t) (h' : OnlyRegs K t u) : OnlyRegs K s u := by
  refine ⟨?_, h.2.trans h'.2⟩
  rw [h'.1, h.1]

theorem OnlyRegs.mono {K K' : Nat → Bool} {s t : State} (h : OnlyRegs K s t) (hK : ∀ k, K k = true → K' k = true) :
    OnlyRegs K' s t := ⟨h.1, h.2.mono hK⟩

theorem OnlyRegs.set (K : Nat → Bool) (s : State) (fn off : Nat) (v : W64) (hk : K (regKey fn off) = true) :
    OnlyRegs K s (regSetFn s fn off v) := by
  unfold regSetFn
  refine ⟨rfl, fun k h => ?_⟩
  dsimp only
  rw [sget_sset_ne]
  rintro rfl; simp_all

theorem OnlyRegs.set0 (K : Nat → Bool) (s : State) (off : Nat) (v : W64) (hk : K off = true) :
    OnlyRegs K s (regSet s off v) := by
  unfold regSet; exact .set K s 0 off v (by rw [regKey_zero]; exact hk)

theorem OnlyRegs.foldl {α : Type} {K : Nat → Bool} (f : State → α → State) (h : ∀ s a, OnlyRegs K s (f s a)) :
    ∀ (l : List α) (s : State), OnlyRegs K s (l.foldl f s)
  | [], s => .refl K s
  | a :: l, s => (h s a).trans (OnlyRegs.foldl f h l (f s a))

/-- A fold over a list whose members meet a condition. -/
theorem OnlyRegs.foldl_mem {α : Type} {K : Nat → Bool} (f : State → α → State) :
    ∀ (l : List α) (s : State), (∀ s, ∀ a ∈ l, OnlyRegs K s (f s a)) → OnlyRegs K s (l.foldl f s)
  | [], s, _ => .refl K s
  | a :: l, s, h => (h s a (by simp)).trans (OnlyRegs.foldl_mem f l (f s a) (fun s b hb => h s b (by simp [hb])))

/- Error records -/

theorem errKey_block {k : Nat} (h : 0xE0000 ≤ k) (h' : k < 0xF0000) : errKey k = true := by
  unfold errKey; simp only [Bool.or_eq_true, Bool.and_eq_true, decide_eq_true_eq]; omega

theorem errKey_view {t off : Nat} (ht : 1 ≤ t) (h : 0x3000 ≤ off) (h' : off < 0x4000) : errKey (regKey t off) = true := by
  unfold errKey regKey; simp only [Bool.or_eq_true, Bool.and_eq_true, decide_eq_true_eq]; omega

theorem errKey_pend {n : Nat} (h : n < 16) : errKey (Reg.intPend n) = true := by
  unfold errKey Reg.intPend; simp only [Bool.or_eq_true, Bool.and_eq_true, decide_eq_true_eq]; omega

theorem onlyRegs_setPend {K : Nat → Bool} (s : State) (core bit : Nat) (h : K (Reg.intPend core) = true) :
    OnlyRegs K s (setPend s core bit) := by unfold setPend regOr; exact .set0 _ _ _ _ h

theorem regFld_lt (s : State) (off lo w : Nat) : regFld s off lo w < 2 ^ w := by unfold regFld; exact BitVec.isLt _

theorem onlyRegs_putRecord {K : Nat → Bool} (s : State) (fn off : Nat) (bs : List Byte)
    (h : ∀ i < 16, K (regKey fn (off + 8 * i)) = true) : OnlyRegs K s (putRecord s fn off bs) := by
  unfold putRecord
  exact .foldl_mem _ _ _ (fun s i hi => .set _ _ _ _ _ (h i (by simpa using hi)))

theorem onlyRegs_logRecord (s : State) (seq : Nat) (bs : List Byte) : OnlyRegs errKey s (putRecord s 0 (logSlot seq) bs) := by
  apply onlyRegs_putRecord
  intro i hi; rw [regKey_zero]; unfold logSlot; exact errKey_block (by omega) (by omega)

theorem OnlyRegs.thenSet {K : Nat → Bool} {s t : State} (h : OnlyRegs K s t) {fn off : Nat} {v : W64}
    (hk : K (regKey fn off) = true) : OnlyRegs K s (regSetFn t fn off v) := h.trans (.set K t fn off v hk)

theorem OnlyRegs.thenSet0 {K : Nat → Bool} {s t : State} (h : OnlyRegs K s t) {off : Nat} {v : W64}
    (hk : K off = true) : OnlyRegs K s (regSet t off v) := h.trans (.set0 K t off v hk)

theorem OnlyRegs.ite {K : Nat → Bool} {s t u : State} (p : Prop) [Decidable p] (h : OnlyRegs K s t) (h' : OnlyRegs K s u) :
    OnlyRegs K s (if p then t else u) := by
  split
  · exact h
  · exact h'

theorem onlyRegs_viewRecord {s t : State} (h : OnlyRegs errKey s t) (fn j : Nat) (bs : List Byte) (ht : 1 ≤ fn) (hj : j < 16) :
    OnlyRegs errKey s (putRecord t fn (0x3100 + 0x80 * j) bs) :=
  h.trans (onlyRegs_putRecord _ _ _ _ (fun _ _ => errKey_view ht (by omega) (by omega)))

theorem onlyRegs_copyToView (s : State) (t : Nat) (bs : List Byte) (ht : 1 ≤ t) : OnlyRegs errKey s (copyToView s t bs) := by
  unfold copyToView
  refine .thenSet (onlyRegs_viewRecord (.ite _ ?_ (.refl _ _)) _ _ _ ht (Nat.mod_lt _ (by decide))) ?_
  · unfold regSatAddFn; exact .set _ _ _ _ _ (errKey_view ht (by decide) (by decide))
  · exact errKey_view ht (by decide) (by decide)

theorem onlyRegs_storeRecord (s : State) (seq cls : Nat) (bs : List Byte) : OnlyRegs errKey s (storeRecord s seq cls bs) := by
  unfold storeRecord
  have h : ∀ u, OnlyRegs errKey s u →
      OnlyRegs errKey s (regSet (putRecord u 0 (logSlot seq) bs) Reg.errSeq (BitVec.ofNat 64 seq)) := fun u hu =>
    (hu.trans (onlyRegs_logRecord u seq bs)).thenSet0 (errKey_block (by decide) (by decide))
  have h1 := h _ (.ite (s := s) (decide ((getRecord s 0 (logSlot seq) |> fun o => numAt o 0 4 != 0 &&
    decide ((regGet s Reg.errAck).toNat < numAt o 0 4))) = true)
    (t := regSatAdd s Reg.errOverrun 32 1) (by unfold regSatAdd; exact .set0 _ _ _ _ (errKey_block (by decide) (by decide))) (.refl _ _))
  refine .ite _ (OnlyRegs.trans ?_ (onlyRegs_setPend _ _ _ (errKey_pend (regFld_lt _ _ _ 4)))) ?_
  all_goals simpa using h1

theorem onlyRegs_writeRecord (s : State) (e : ErrEvent) (n : Nat) (hc : e.cls ≤ 1000) : OnlyRegs errKey s (writeRecord s e n) := by
  unfold writeRecord
  have hv : ∀ (u : State) (bs : List Byte), OnlyRegs errKey s u →
      OnlyRegs errKey s (if goesToView s e then copyToView u e.tenant bs else u) := by
    intro u bs hu
    split
    · rename_i hg
      refine hu.trans (onlyRegs_copyToView _ _ _ ?_)
      unfold goesToView at hg; simp only [Bool.and_eq_true, decide_eq_true_eq] at hg; omega
    · exact hu
  have hk : errKey (Reg.errClass (e.cls - 1)) = true := by unfold Reg.errClass; exact errKey_block (by omega) (by omega)
  dsimp only
  refine .ite _ ?_ ?_
  · unfold regOr regSatAdd
    refine .thenSet0 (.thenSet0 (hv _ _ (onlyRegs_storeRecord _ _ _ _)) hk) (errKey_block (by decide) (by decide))
  · unfold regSatAdd
    exact .thenSet0 (hv _ _ (onlyRegs_storeRecord _ _ _ _)) hk

theorem onlyRegs_mergeRecord (s : State) (e : ErrEvent) (hc : e.cls ≤ 1000) (ht : 1 ≤ e.tenant) :
    OnlyRegs errKey s (mergeRecord s e) := by
  have hk : errKey (Reg.errClass (e.cls - 1)) = true := by unfold Reg.errClass; exact errKey_block (by omega) (by omega)
  have h1 : ∀ seq bs, OnlyRegs errKey s (regSatAdd (putRecord s 0 (logSlot seq) bs) (Reg.errClass (e.cls - 1)) 32 1) := by
    intro seq bs; unfold regSatAdd; exact .thenSet0 (onlyRegs_logRecord _ _ _) hk
  unfold mergeRecord
  refine .ite _ ((h1 _ _).trans (.foldl_mem _ _ _ ?_)) (h1 _ _)
  intro u j hj
  exact onlyRegs_viewRecord (.refl _ _) _ _ _ ht (by simp at hj; exact hj.1)

/-- What recording an event may touch. -/
theorem onlyRegs_recordEvent (s : State) (e : ErrEvent) (hc : e.cls ≤ 1000) (ht : 1 ≤ e.tenant) :
    OnlyRegs errKey s (recordEvent s e) := by
  unfold recordEvent
  exact .ite _ (onlyRegs_mergeRecord s e hc ht) (onlyRegs_writeRecord s e 1 hc)

/- Rule checks -/

theorem RuleChecked.refl (s : State) : RuleChecked s s := ⟨rfl, fun _ _ => rfl⟩

theorem RuleChecked.trans {s t u : State} (h : RuleChecked s t) (h' : RuleChecked t u) : RuleChecked s u := by
  refine ⟨?_, h.2.trans h'.2⟩
  rw [h'.1, h.1]

theorem errKey_acuKey {k : Nat} (h : errKey k = true) : acuKey k = true := by unfold acuKey; rw [h]; rfl

theorem RuleChecked.ofRegs {s t : State} (h : OnlyRegs acuKey s t) : RuleChecked s t := by
  refine ⟨?_, h.2⟩
  rw [h.1]

theorem acuKey_block {k : Nat} (h : 0x10018 ≤ k) (h' : k < 0x1002C) : acuKey k = true := by
  unfold acuKey; simp only [Bool.or_eq_true, Bool.and_eq_true, decide_eq_true_eq]; omega

theorem ruleChecked_acuDeny (s : State) (who : Who) (tenant : Nat) (kinds : BitVec 5) (rule addr : Nat) :
    RuleChecked s (acuDeny s who tenant kinds rule addr) := by
  refine .ofRegs ?_
  unfold acuDeny regSatAdd
  exact .thenSet0 (.thenSet0 (.set0 _ _ _ _ (acuKey_block (by decide) (by decide))) (acuKey_block (by decide) (by decide)))
    (acuKey_block (by decide) (by decide))

theorem ruleChecked_acuFoundBad (s : State) (bank : Bool) (i : Nat) : RuleChecked s (acuFoundBad s bank i) := by
  unfold acuFoundBad
  dsimp only
  have h : ∀ (u : State) (e : ErrEvent), RuleChecked s u → e.cls = 4 → e.tenant = 0xFF →
      RuleChecked s (recordEvent (regOr u Reg.acuErr 2) e) := by
    intro u e hu hc ht
    refine hu.trans (.ofRegs (OnlyRegs.trans ?_ ((onlyRegs_recordEvent _ e (by omega) (by omega)).mono (fun _ => errKey_acuKey))))
    unfold regOr; exact .set0 _ _ _ _ (acuKey_block (by decide) (by decide))
  apply h _ _ _ rfl rfl
  cases bank <;> exact ⟨rfl, fun _ _ => rfl⟩

theorem RuleChecked.foldl {α : Type} (f : State → α → State) (h : ∀ s a, RuleChecked s (f s a)) :
    ∀ (l : List α) (s : State), RuleChecked s (l.foldl f s)
  | [], s => .refl s
  | a :: l, s => (h s a).trans (RuleChecked.foldl f h l (f s a))

/-- A rule check leaves everything but the deny record, the found bad rules and the error log. -/
theorem ruleChecked_acuCheckIn (s : State) (bank : Bool) (who : Who) (tenant : Nat) (kinds : BitVec 5) (sys write : Bool)
    (addr : Nat) : RuleChecked s (acuCheckIn s bank who tenant kinds sys write addr).2 := by
  unfold acuCheckIn
  split
  · exact ruleChecked_acuDeny _ _ _ _ _ _
  · dsimp only
    split
    all_goals split
    all_goals first
      | exact .foldl _ (fun s i => ruleChecked_acuFoundBad s bank i) _ _
      | exact (RuleChecked.foldl _ (fun s i => ruleChecked_acuFoundBad s bank i) _ _).trans (ruleChecked_acuDeny _ _ _ _ _ _)

theorem ruleChecked_acuCheck (s : State) (who : Who) (tenant : Nat) (kinds : BitVec 5) (sys write : Bool) (addr : Nat) :
    RuleChecked s (acuCheck s who tenant kinds sys write addr).2 := ruleChecked_acuCheckIn _ _ _ _ _ _ _ _

end Sys2Proof.Machine
end

