-- ==== Sys2Proof/Laws/Hl.lean ====
section
/-! SUPPORT. What the shared operations of the headland cores do: registers, counters, caches, the fetch, one
instruction that retires. -/

namespace Sys2Proof.Machine

/- Cores and registers -/

theorem coreOf_setCore (s : State) (n m : Nat) (c : HlCore) : coreOf (setCore s n c) m = if m = n then c else coreOf s m := by
  unfold coreOf setCore; exact sget_sset _ _ _ _ _

@[simp] theorem coreOf_setCore_self (s : State) (n : Nat) (c : HlCore) : coreOf (setCore s n c) n = c := by
  rw [coreOf_setCore, if_pos rfl]

theorem coreOf_setCore_ne (s : State) {n m : Nat} (c : HlCore) (h : m ≠ n) : coreOf (setCore s n c) m = coreOf s m := by
  rw [coreOf_setCore, if_neg h]

theorem coreOf_congr {s t : State} (h : t.cores = s.cores) (n : Nat) : coreOf t n = coreOf s n := by
  unfold coreOf; rw [h]

theorem gGet_gSet (c : HlCore) (i r : Nat) (v : Cap) : gGet (gSet c i v) r = if r = i ∧ r ≠ 0 then v else gGet c r := by
  unfold gGet gSet
  by_cases hi : i = 0
  · subst hi
    by_cases hr : r = 0 <;> simp [hr]
  · by_cases hr : r = 0
    · simp [hr]
    · simp only [hi, hr, if_false, sget_sset, ne_eq, not_false_eq_true, and_true]

theorem fGet_fSet (c : HlCore) (i r : Nat) (v : W64) : fGet (fSet c i v) r = if r = i then v else fGet c r := by
  unfold fGet fSet; exact sget_sset _ _ _ _ _

theorem gSet_eq (c : HlCore) (i : Nat) (v : Cap) : gSet c i v = { c with g := (gSet c i v).g } := by
  unfold gSet; split <;> rfl

/- Counters -/

/-- Two cores differ at most in their counters. -/
def PerfOnly (a b : HlCore) : Prop := b = { a with perf := b.perf, perfOvf := b.perfOvf }

theorem PerfOnly.refl (a : HlCore) : PerfOnly a a := rfl
theorem PerfOnly.trans {a b c : HlCore} (h : PerfOnly a b) (h' : PerfOnly b c) : PerfOnly a c := by
  unfold PerfOnly at *; rw [h', h]

theorem perfCount_only (before : HlCore) (k e : Nat) (acc : HlCore × Bool) : PerfOnly acc.1 (perfCount before k e acc).1 := by
  unfold perfCount
  have h : ∀ (l : List Nat) (a : HlCore × Bool), PerfOnly a.1 (l.foldl (fun (a : HlCore × Bool) (i : Nat) =>
      let c := a.1
      let sel := sget zDflt32 c.perfSel i
      if (fld sel 0 5).toNat == e && e != 0 && bitAt sel (8 + (excRing before).toNat) &&
          (bitAt sel 24 || (fld sel 16 8).toNat == ctxTenant before) then
        let v := (sget zDflt64 c.perf i).toNat + k
        let c1 := { c with perf := sset zDflt64 c.perf i (BitVec.ofNat 64 v) }
        if v ≥ 2 ^ 64 then ({ c1 with perfOvf := c1.perfOvf ||| BitVec.ofNat 32 (2 ^ i) }, a.2 || bitAt sel 12) else (c1, a.2)
      else a) a).1 := by
    intro l
    induction l with
    | nil => intro a; exact .refl _
    | cons i l ih =>
      intro a
      refine PerfOnly.trans ?_ (ih _)
      dsimp only
      split
      · split <;> rfl
      · exact .refl _
  exact h _ _

/-- Counting events leaves everything but the core's counters and INT_PENDn. -/
theorem perfEvents_core (s : State) (n m : Nat) (before : HlCore) (events : List Nat) :
    coreOf (perfEvents s n before events) m =
      if m = n then (events.foldl (fun a e => perfCount before 1 e a) (coreOf s n, false)).1 else coreOf s m := by
  unfold perfEvents
  dsimp only
  split
  · rw [coreOf_congr (s := setCore s n _) (by unfold setPend regOr regSet regSetFn; rfl), coreOf_setCore]
  · exact coreOf_setCore _ _ _ _

theorem perfCounts_only (before : HlCore) :
    ∀ (l : List Nat) (a : HlCore × Bool), PerfOnly a.1 (l.foldl (fun a e => perfCount before 1 e a) a).1
  | [], a => .refl _
  | e :: l, a => by
    rw [List.foldl_cons]
    exact (perfCount_only before 1 e a).trans (perfCounts_only before l _)

theorem perfEvents_only (s : State) (n : Nat) (before : HlCore) (events : List Nat) :
    PerfOnly (coreOf s n) (coreOf (perfEvents s n before events) n) := by
  rw [perfEvents_core, if_pos rfl]
  have h := perfCounts_only before events (coreOf s n, false)
  exact h

theorem perfEvents_frame (s : State) (n : Nat) (before : HlCore) (events : List Nat) :
    perfEvents s n before events = { s with regs := (perfEvents s n before events).regs,
                                            cores := (perfEvents s n before events).cores } ∧
    RegsKept (fun k => k == Reg.intPend n) s (perfEvents s n before events) := by
  unfold perfEvents
  dsimp only
  split
  · refine ⟨by unfold setPend regOr regSet regSetFn setCore; rfl, ?_⟩
    have h := (onlyRegs_setPend (K := fun k => k == Reg.intPend n) (setCore s n
      (events.foldl (fun a e => perfCount before 1 e a) (coreOf s n, false)).1) n 2 (by simp)).2
    intro k hk
    rw [h k hk]; unfold setCore; rfl
  · exact ⟨by unfold setCore; rfl, fun k _ => by unfold setCore; rfl⟩

/- The fetch -/

theorem ruleChecked_fetchCheck (s : State) (exc : Cap) (tenant : Nat) : RuleChecked s (fetchCheck s exc tenant).2.2 := by
  unfold fetchCheck
  dsimp only
  split
  · split
    · exact .refl s
    · split <;> exact .refl s
  · split
    · exact .refl s
    · split
      · exact ruleChecked_acuDeny _ _ _ _ _ _
      · split <;> exact ruleChecked_acuCheck _ _ _ _ _ _ _

theorem RuleChecked.cores {s t : State} (h : RuleChecked s t) : t.cores = s.cores := by rw [h.1]

theorem freeNext_frame (s : State) : (freeNext s).2 = { s with freeCtr := (freeNext s).2.freeCtr } := by unfold freeNext; rfl

theorem LinesLeft.refl (c : HlCore) : LinesLeft c c := ⟨rfl, fun _ h => h, fun _ h => h⟩
theorem LinesLeft.trans {a b c : HlCore} (h : LinesLeft a b) (h' : LinesLeft b c) : LinesLeft a c := by
  refine ⟨?_, fun e he => h.2.1 e (h'.2.1 e he), fun e he => h.2.2 e (h'.2.2 e he)⟩
  rw [h'.1, h.1]

/-- Dropping other tenants' copies of a line touches no more than the caches, and only takes lines away. -/
theorem dropOthers_frame (s : State) (line tenant : Nat) :
    dropOthers s line tenant = { s with cores := (dropOthers s line tenant).cores } ∧
    ∀ m, LinesLeft (coreOf s m) (coreOf (dropOthers s line tenant) m) := by
  unfold dropOthers
  dsimp only
  generalize List.range 16 = l
  induction l generalizing s with
  | nil => exact ⟨rfl, fun m => .refl _⟩
  | cons k l ih =>
    rw [List.foldl_cons]
    refine ⟨?_, fun m => LinesLeft.trans ?_ ((ih _).2 m)⟩
    · rw [(ih _).1]; unfold setCore; rfl
    · rw [coreOf_setCore]
      split
      · rename_i hm
        subst hm
        exact ⟨rfl, fun e he => (List.mem_filter.mp he).1, fun e he => (List.mem_filter.mp he).1⟩
      · exact .refl _

/-- What meeting the instruction cache may change in a core: that cache with its replacement state, and lines that leave the
data cache. -/
def InstrCached (c c' : HlCore) : Prop :=
  c' = { c with icache := c'.icache, irecent := c'.irecent, dcache := c'.dcache } ∧ ∀ e ∈ c'.dcache, e ∈ c.dcache

theorem InstrCached.of_left {a b c : HlCore} (h : InstrCached a b) (h' : LinesLeft b c) : InstrCached a c := by
  refine ⟨?_, fun e he => h.2 e (h'.2.2 e he)⟩
  rw [h'.1, h.1]

/-- The instruction cache of one core may change, a free victim may be drawn, and lines may leave the other caches. -/
theorem icacheAccess_frame (s : State) (n line tenant : Nat) (cls : BitVec 2) :
    (icacheAccess s n line tenant cls).2 =
        { s with freeCtr := (icacheAccess s n line tenant cls).2.freeCtr,
                 cores := (icacheAccess s n line tenant cls).2.cores } ∧
    (∀ m, m ≠ n → LinesLeft (coreOf s m) (coreOf (icacheAccess s n line tenant cls).2 m)) ∧
    InstrCached (coreOf s n) (coreOf (icacheAccess s n line tenant cls).2 n) := by
  unfold icacheAccess
  split
  · exact ⟨rfl, fun _ _ => .refl _, rfl, fun _ h => h⟩
  · have hc : ∀ m, coreOf (freeNext s).2 m = coreOf s m := fun m => coreOf_congr (by simp) m
    generalize hr : cacheTouch (coreOf (freeNext s).2 n).icache (coreOf (freeNext s).2 n).irecent 256 4 line tenant
      (cls == 1 || cls == 2) false false (freeNext s).1.toNat = r
    obtain ⟨miss, filled, m, rec⟩ := r
    generalize hu : setCore (freeNext s).2 n { coreOf (freeNext s).2 n with icache := m, irecent := rec } = u
    have hs : u = { s with freeCtr := u.freeCtr, cores := u.cores } := by rw [← hu]; unfold setCore freeNext; rfl
    have hn : InstrCached (coreOf s n) (coreOf u n) := by
      rw [← hu, coreOf_setCore_self, hc n]; exact ⟨rfl, fun _ h => h⟩
    have ho : ∀ m, m ≠ n → LinesLeft (coreOf s m) (coreOf u m) := by
      intro m hm; rw [← hu, coreOf_setCore_ne _ _ hm, hc m]; exact .refl _
    have hd := dropOthers_frame u line tenant
    simp only [hr, hu]
    cases filled
    · exact ⟨hs, ho, hn⟩
    · refine ⟨?_, fun m hm => (ho m hm).trans (hd.2 m), hn.of_left (hd.2 n)⟩
      simp only [if_true]
      rw [hd.1, hs]

/-- The core in which the body of an instruction runs. -/
theorem coreOf_hlFetched (s : State) (n : Nat) :
    coreOf (hlFetched s n).2 n =
      { coreOf s n with icache := (coreOf (hlFetched s n).2 n).icache, irecent := (coreOf (hlFetched s n).2 n).irecent,
                        dcache := (coreOf (hlFetched s n).2 n).dcache, begun := false, fetched := none } ∧
    ∀ e ∈ (coreOf (hlFetched s n).2 n).dcache, e ∈ (coreOf s n).dcache := by
  unfold hlFetched
  have h := (icacheAccess_frame (fetchCheck s (coreOf s n).exc (coreTenant (coreOf s n))).2.2 n
    (alignDown (localPart (capCursor (coreOf s n).exc).toNat) 64) (coreTenant (coreOf s n))
    (fetchCheck s (coreOf s n).exc (coreTenant (coreOf s n))).2.1).2.2
  rw [coreOf_congr (ruleChecked_fetchCheck s _ _).cores n] at h
  simp only [coreOf_setCore_self]
  refine ⟨?_, h.2⟩
  rw [h.1]

/-- The fetch leaves everything but what `HlAfter` names. -/
theorem hlFetched_after (s : State) (n : Nat) :
    (hlFetched s n).2 =
        { s with
          regs := (hlFetched s n).2.regs
          acu := { s.acu with bad0 := (hlFetched s n).2.acu.bad0, bad1 := (hlFetched s n).2.acu.bad1 }
          freeCtr := (hlFetched s n).2.freeCtr
          cores := (hlFetched s n).2.cores } ∧
    RegsKept acuKey s (hlFetched s n).2 ∧ ∀ m, m ≠ n → LinesLeft (coreOf s m) (coreOf (hlFetched s n).2 m) := by
  unfold hlFetched
  have hr := ruleChecked_fetchCheck s (coreOf s n).exc (coreTenant (coreOf s n))
  generalize hf : (fetchCheck s (coreOf s n).exc (coreTenant (coreOf s n))).2.2 = u at *
  have hi := icacheAccess_frame u n (alignDown (localPart (capCursor (coreOf s n).exc).toNat) 64) (coreTenant (coreOf s n))
    (fetchCheck s (coreOf s n).exc (coreTenant (coreOf s n))).2.1
  generalize icacheAccess u n _ _ _ = r at *
  obtain ⟨miss, v⟩ := r
  dsimp only at hi ⊢
  refine ⟨?_, ?_, ?_⟩
  · simp only [setCore]; rw [hi.1, hr.1]
  · intro k hk; simp only [setCore_regs]; rw [hi.1]; exact hr.2 k hk
  · intro m hm
    simp only [coreOf_setCore_ne _ _ hm]
    rw [← coreOf_congr hr.cores m]; exact hi.2.1 m hm

/-- What `hlRun` comes to when the fetch passes. -/
theorem hlRun_fetched {s : State} {n : Nat} (h : HlFetches s n) (word : W32) (body : State → HlCore → HlRes) :
    hlRun s n word body =
      match body (hlFetched s n).2 (coreOf (hlFetched s n).2 n) with
      | .retire s4 ev =>
        .next (atEdge (perfEvents s4 n (coreOf s n) ((if (hlFetched s n).1 then [7] else []) ++ [1] ++ ev)) n)
      | .trap s4 num tval detail auth =>
        let back (st : State) : State :=
          noteBegun (unfetched (fetchCheck s (coreOf s n).exc (coreTenant (coreOf s n))).2.2 st n) n false
            (fetchCheck s (coreOf s n).exc (coreTenant (coreOf s n))).2.1
        .next (takeFault (back (hlFetched s n).2) (back s4) n ⟨num, tval, detail, auth, word, capCursor (coreOf s n).exc⟩)
      | .wait s4 =>
        .next (noteBegun (unfetched (fetchCheck s (coreOf s n).exc (coreTenant (coreOf s n))).2.2 s4 n) n (retiresFirst word)
          (fetchCheck s (coreOf s n).exc (coreTenant (coreOf s n))).2.1) := by
  obtain ⟨h1, hb, h2, h3, h4⟩ := h
  unfold hlRun hlRunWith
  rw [if_neg (by simp [h1, heldBack, hb])]
  simp only [hb, Bool.false_and, Bool.false_eq_true, if_false]
  generalize hf : fetchCheck s (coreOf s n).exc (coreTenant (coreOf s n)) = r at *
  obtain ⟨a, b, u⟩ := r
  dsimp only at h2 h3 h4
  subst h2
  dsimp only
  rw [if_neg (by simp [h3]), if_neg (by simp [h4])]
  unfold hlFetched
  exact hf ▸ rfl

/-- Noting what is owed at the next boundary changes nothing else. -/
theorem HlAfter.atEdge {s t : State} {n : Nat} {c : HlCore} (h : HlAfter s t n c) : HlAfter s (atEdge t n) n c := by
  obtain ⟨h1, h2, h3, h4, h5⟩ := h
  refine ⟨?_, fun k hk => h2 k hk, fun m hm => ?_, ?_⟩
  · unfold Machine.atEdge setCore; rw [h1]
  · unfold Machine.atEdge; rw [coreOf_setCore_ne _ _ hm]; exact h3 m hm
  · unfold Machine.atEdge FetchedCore; rw [coreOf_setCore_self]
    refine ⟨?_, h5⟩
    rw [h4]

/-- An instruction whose body changes only its own core, and that core into `c'`. -/
theorem hlRun_computes {s : State} {n : Nat} (hn : n < 16) (h : HlFetches s n) (word : W32) (body : State → HlCore → HlRes)
    (f : HlCore → HlCore) (ev : HlCore → List Nat)
    (hb : ∀ u c, body u c = .retire (setCore u n (f c)) (ev c))
    (hf : ∀ c ic ir dc, f { c with icache := ic, irecent := ir, dcache := dc, begun := false, fetched := none } =
      { f c with icache := ic, irecent := ir, dcache := dc, begun := false, fetched := none })
    (hd : ∀ c, (f c).dcache = c.dcache) :
    ∃ t, hlRun s n word body = .next t ∧ HlAfter s t n (f (coreOf s n)) := by
  rw [hlRun_fetched h, hb]
  refine ⟨_, rfl, ?_⟩
  have ha := hlFetched_after s n
  have hc := coreOf_hlFetched s n
  generalize hlFetched s n = r at *
  obtain ⟨miss, u⟩ := r
  dsimp only at *
  generalize hw : setCore u n (f (coreOf u n)) = w
  generalize hev : (if miss = true then [7] else []) ++ [1] ++ ev (coreOf u n) = evs
  have hp := perfEvents_frame w n (coreOf s n) evs
  have hwc : w = { u with cores := w.cores } := by rw [← hw]; unfold setCore; rfl
  refine HlAfter.atEdge ⟨?_, ?_, ?_, ?_⟩
  · rw [hp.1, hwc, ha.1]
  · intro k hk
    have hk' : (k == Reg.intPend n) = false := by
      cases hc : k == Reg.intPend n
      · rfl
      · rw [eq_of_beq hc, errKey_acuKey (errKey_pend hn)] at hk; exact absurd hk (by decide)
    rw [hp.2 k hk', hwc]
    exact ha.2.1 k hk
  · intro m hm
    rw [perfEvents_core, if_neg hm, ← hw, coreOf_setCore_ne _ _ hm]; exact ha.2.2 m hm
  · have ho := perfEvents_only w n (coreOf s n) evs
    have hwn : coreOf w n = f (coreOf u n) := by rw [← hw, coreOf_setCore_self]
    rw [hwn, hc.1, hf] at ho
    refine ⟨?_, fun e he => ?_⟩
    · rw [ho]
    · rw [ho] at he; rw [hd]; exact hc.2 e he

end Sys2Proof.Machine
end

