-- ==== Sys2Proof/Tests/Slice0.lean ====
section
/-! SUPPORT. Tests on small states: for each statement with hypotheses a witness that meets them all, and single steps whose
results the spec gives. -/

open Sys2Proof Sys2Proof.Machine Sys2Proof.Terms

namespace Sys2Proof.Tests

set_option Elab.async false

/- Small states -/

/-- After reset, with core 0 released. -/
def live : State := { State.reset with coresReleased := true }
/-- Core 0 with other contents. -/
def withCore (c : HlCore) : State := setCore live 0 c
/-- Core 0 with these G registers. -/
def withG (g : SMap Cap) : State := withCore { core0Reset with g := g }
/-- The memory root with another cursor. -/
def root (a : Nat) : Cap := capMoveCursor memoryRoot (BitVec.ofNat 64 a)
/-- Cove 0's memory, and core 0 with G1 there, G2 the number 5, G3 the sealing root. -/
def cove : Nat := 0x4000000000
def atCove : State := withG [(1, root cove), (2, capOfInt 5), (3, sealingRoot)]
/-- An access of core 0 is made at this device. -/
def isHere (s : State) (m : MemOp) : Bool :=
  match hlReach (hlFetched s 0).2 (coreOf s 0) (gGet (coreOf s 0) m.rs1) (memMask (coreOf s 0) m)
    (memExtra (hlFetched s 0).2 (coreOf s 0) m (memAddr (coreOf s 0) m).toNat) true (memWrites m.kind)
    (memKinds m.kind) (memAddr (coreOf s 0) m).toNat (memSize m.kind) (memSize m.kind) with
  | .here _ _ _ => true
  | _ => false

theorem first2 {a b c : Prop} (h : a ∧ b) (r : c) : a ∧ b ∧ c := ⟨h.1, h.2, r⟩
theorem first3 {a b c d : Prop} (h : a ∧ b ∧ c) (r : d) : a ∧ b ∧ c ∧ d := ⟨h.1, h.2.1, h.2.2, r⟩
theorem first4 {a b c d e : Prop} (h : a ∧ b ∧ c ∧ d) (r : e) : a ∧ b ∧ c ∧ d ∧ e := ⟨h.1, h.2.1, h.2.2.1, h.2.2.2, r⟩
theorem reaches_of_isHere {s : State} {m : MemOp} (h : isHere s m = true) : reaches s 0 m := by
  unfold isHere at h; unfold reaches
  split at h
  · exact ⟨_, _, _, ‹_›⟩
  · cases h

theorem inMemory_cove {a n : Nat} (h : regionOf a = .cove n) : inMemory a := by unfold inMemory; rw [h]; trivial

theorem handler_of {s : State} {n cause : Nat} {h : Cap}
    (e : bankBusy (coreOf s n).bankO = false ∧ (coreOf s n).st.getLsbD 1 = true ∧
      h = capMoveCursor (coreOf s n).bankM.last (BitVec.ofNat 64 (deviceNo s * 2 ^ 54 + 0x6000000000 + 16 * cause)) ∧
      (fetchCheck (hlFetched s n).2 h 0).1 = none ∧ capOtype h = 0 ∧ capRing h = 0) : handlerIs s n cause true h := by
  exact e


/- Headland cores -/

theorem live_fetches : HlFetches live 0 := by unfold HlFetches; decide +kernel
theorem atCove_fetches : HlFetches atCove 0 := by unfold HlFetches; decide +kernel

theorem wit_IntegerInstructionsWriteTheirResult :
    intResult atCove (.add 0 4 2 2) = some (0, 4, some 10) ∧ HlFetches atCove (0 : BitVec 4).toNat :=
  ⟨by decide +kernel, atCove_fetches⟩

/-- 05 R122: DIV by 0 has no stated result; the instruction still completes. -/
theorem wit_divisionCorner : intResult atCove (.div 0 4 2 0) = some (0, 4, none) := by decide +kernel

theorem wit_CapabilityInstructionsWriteTheirResult :
    capResult atCove (.cqcur 0 4 1 0) = some (0, 4, capOfInt 0x4000000000) ∧ HlFetches atCove (0 : BitVec 4).toNat :=
  ⟨by decide +kernel, atCove_fetches⟩

theorem wit_DerivationNeverAmplifies :
    capSource atCove (.candr 0 4 1 2) = some (0, root cove) ∧ HlFetches atCove (0 : BitVec 4).toNat ∧
      Safe (exec (.candr 0 4 1 2) atCove) :=
  ⟨by decide +kernel, atCove_fetches, by unfold Safe; trivial⟩

/-- 03 R70: a key whose cursor is an object type it holds, and a cursor that it may not give. -/
theorem wit_SealAndUnsealKeepTagExactlyWhenAllowed :
    HlFetches atCove (0 : BitVec 4).toNat ∧ (4 : BitVec 5) ≠ 0 ∧
      (capSeal (root cove) (capMoveCursor sealingRoot 5) 0).tag = true ∧ (capSeal (root cove) sealingRoot 0).tag = false :=
  ⟨atCove_fetches, by decide, by decide +kernel⟩

theorem wit_FloatInstructionsWriteTheirResult :
    (floatResult atCove (.fcvtdl 0 1 2 0)).map (fun r => r.2.2.1) = some 0x4014000000000000 ∧
      (floatToG atCove (.feq 0 1 2 3)).map (fun r => r.2.2.1) = some 1 ∧ HlFetches atCove (0 : BitVec 4).toNat :=
  ⟨by decide +kernel, by decide +kernel, atCove_fetches⟩

/-- 13 R353: the quotient of 0 by 0 is the canonical NaN. -/
theorem wit_FloatResultsHoldOnlyTheCanonicalNaN :
    (floatResult atCove (.fdiv 0 1 2 3)).map (fun r => r.2.2.1) = some 0x7FF8000000000000 ∧
      HlFetches atCove (0 : BitVec 4).toNat ∧ Safe (exec (.fdiv 0 1 2 3) atCove) :=
  ⟨by decide +kernel, atCove_fetches, by unfold Safe; trivial⟩

theorem wit_BranchesAndJumpsMoveExc :
    branchOf atCove (.bne 0 2 0 (-3)) = some (0, true, -3, none) ∧ branchOf atCove (.jal 0 4) = some (0, true, 4, some 31) ∧
      HlFetches atCove (0 : BitVec 4).toNat :=
  ⟨by decide +kernel, by decide +kernel, atCove_fetches⟩

/-- A sentry of ring 0, and core 0 with it in G1, as a gate in G2, and in ENT0 with a stack. -/
def code : Cap := capMoveCursor executeRoot 0x6000000040#64
def gate : Cap := ⟨true, setFld code.bits 116 (240 : BitVec 8)⟩
def gated : State := withCore { core0Reset with g := [(1, code), (2, gate)], ent := [(0, code), (1, root cove)] }
theorem gated_fetches : HlFetches gated 0 := by unfold HlFetches; decide +kernel

theorem wit_CapabilityJumpsAndGatesEnter :
    (capOtype (gc gated 0 1) = 0 ∧ (capRing (gc gated 0 1)).toNat = (excRing (coreOf gated 0)).toNat) ∧
      ((gc gated 0 2).tag = true ∧ (capOtype (gc gated 0 2)).toNat = 240 + (capRing (gc gated 0 2)).toNat ∧
        capHas (gc gated 0 2) rEX = true ∧ mayEnter gated 0 (gc gated 0 2)) ∧
      mayEnter gated 0 (entOf (coreOf gated 0) 0) ∧ (entOf (coreOf gated 0) 1).tag = true ∧
      capRing (entOf (coreOf gated 0) 0) = 0 ∧ HlFetches gated (0 : BitVec 4).toNat :=
  ⟨by decide +kernel, first3 (by decide +kernel) (by unfold mayEnter; decide +kernel),
    by unfold mayEnter; decide +kernel, by decide +kernel, by decide +kernel, gated_fetches⟩

/-- Bank O holds a trap taken at `code`, bank M one too. -/
def trapped : State := withCore { core0Reset with
  g := [(1, code)]
  bankO := { bankReset capNull with tepc := code, tcause := 0x100 }
  bankM := { bankReset executeRoot with tepc := code, tcause := 0x100 } }

theorem wit_GateReturnRestores :
    HlFetches trapped (0 : BitVec 4).toNat ∧ mayReturn trapped 0 (gc trapped 0 1) ∧ mayReturn trapped 0 (coreOf trapped 0).bankO.tepc ∧
      mayReturn trapped 0 (coreOf trapped 0).bankM.tepc ∧ bankBusy (coreOf trapped 0).bankO = true ∧
      bankBusy (coreOf trapped 0).bankM = true ∧ excRing (coreOf trapped 0) = 0 :=
  ⟨by unfold HlFetches; decide +kernel, by unfold mayReturn mayEnter; decide +kernel, by unfold mayReturn mayEnter; decide +kernel,
    by unfold mayReturn mayEnter; decide +kernel, by decide +kernel⟩

theorem wit_LoadsDeliverMemory :
    (∃ m f, loadOf (.ldd 0 4 1 8) = some (0, m, 1, 8, 8, 4, f) ∧ reaches atCove (0 : BitVec 4).toNat m) ∧
      reaches atCove 0 ⟨.cld, 4, 1, 0, 16, encodeHl (.cld 0 4 1 16)⟩ ∧
      reaches atCove 0 ⟨.fld, 4, 1, 0, 8, encodeHl (.fld 0 4 1 8)⟩ ∧ inMemory (laOf atCove 0 1 8) ∧
      poisonIn atCove (laOf atCove 0 1 8) 16 = false ∧ HlFetches atCove (0 : BitVec 4).toNat :=
  ⟨⟨_, _, rfl, reaches_of_isHere (by decide +kernel)⟩, reaches_of_isHere (by decide +kernel), reaches_of_isHere (by decide +kernel),
    inMemory_cove (n := 0) (by decide +kernel), by decide +kernel, atCove_fetches⟩

theorem wit_StoresWriteExactlyTheirBytes :
    (∃ m v, storeOf atCove (.std 0 2 1 8) = some (0, m, 1, 8, 8, v, false) ∧ reaches atCove (0 : BitVec 4).toNat m) ∧
      inMemory (laOf atCove 0 1 8) ∧ StoreTaken atCove (laOf atCove 0 1 8) 8 ∧ HlFetches atCove (0 : BitVec 4).toNat :=
  ⟨⟨_, _, rfl, reaches_of_isHere (by decide +kernel)⟩, inMemory_cove (n := 0) (by decide +kernel),
    by unfold StoreTaken; decide +kernel, atCove_fetches⟩

/-- The host link up with Flit mode, and G1 at host bus address 0x100. -/
def atHost : State := regSet (withG [(1, root 0x20000000000100), (2, capOfInt 5)]) Reg.hpLink 0x306

/-- The same, with rule 0 over host bus space too, every kind of access among its kinds. -/
def atHostAll : State := { atHost with acu := { atHost.acu with bank0 := [(0, ⟨0, 0x003FFFFFFFFFFFC0, 0x011F0003⟩)] } }

theorem wit_HeadlandReachesHostMemory :
    HlFetches atHost (0 : BitVec 4).toNat ∧ regionOf (laOf atHost 0 1 0) = .host ∧ poisonIn atHost (laOf atHost 0 1 0) 16 = false ∧
      (∃ m f, loadOf (.ldq 0 4 1 0) = some (0, m, 1, 0, 16, 4, f) ∧ reaches atHost 0 m) ∧
      reaches atHost 0 ⟨.cld, 4, 1, 0, 0, encodeHl (.cld 0 4 1 0)⟩ ∧ reaches atHost 0 ⟨.fld, 4, 1, 0, 0, encodeHl (.fld 0 4 1 0)⟩ ∧
      (∃ m v, storeOf atHost (.std 0 2 1 0) = some (0, m, 1, 0, 8, v, false) ∧ reaches atHost 0 m) ∧
      HlFetches atHostAll (0 : BitVec 4).toNat ∧ regionOf (laOf atHostAll 0 1 0) = .host ∧
      reaches atHostAll 0 ⟨.atomic 0 true, 4, 1, 2, 0, encodeHl (.atomicSwap 0 4 1 2 true)⟩ ∧
      reaches atHostAll 0 ⟨.msadd 4, 4, 1, 2, 0, encodeHl (.msadd 0 4 1 2 4)⟩ ∧
      handlerIs atHostAll 0 9 true (capMoveCursor executeRoot 0x6000000090#64) :=
  ⟨by unfold HlFetches; decide +kernel, by decide +kernel, by decide +kernel, ⟨_, _, rfl, reaches_of_isHere (by decide +kernel)⟩,
    reaches_of_isHere (by decide +kernel), reaches_of_isHere (by decide +kernel), ⟨_, _, rfl, reaches_of_isHere (by decide +kernel)⟩,
    by unfold HlFetches; decide +kernel, by decide +kernel, reaches_of_isHere (by decide +kernel), reaches_of_isHere (by decide +kernel),
    handler_of (by decide +kernel)⟩

theorem wit_AtomicsExchangeWithMemory :
    atomicOf (.cas 0 4 1 2 true) = some (9, 0, 4, 1, 2, true) ∧ HlFetches atCove (0 : BitVec 4).toNat ∧
      reaches atCove 0 ⟨.atomic 9 true, 4, 1, 2, 0, encodeHl (.cas 0 4 1 2 true)⟩ ∧ hasTags (regionOf (laOf atCove 0 1 0)) = true ∧
      poisonIn atCove (laOf atCove 0 1 0) 8 = false :=
  ⟨rfl, atCove_fetches, reaches_of_isHere (by decide +kernel), by decide +kernel⟩

/-- Format 4 (EXA144) takes an even rs2 (05 R127). -/
theorem wit_MsaddAddsInMemory :
    HlFetches atCove (0 : BitVec 4).toNat ∧ reaches atCove 0 ⟨.msadd 0, 4, 1, 2, 0, encodeHl (.msadd 0 4 1 2 0)⟩ ∧
      reaches atCove 0 ⟨.msadd 4, 4, 1, 2, 0, encodeHl (.msadd 0 4 1 2 4)⟩ ∧ hasTags (regionOf (laOf atCove 0 1 0)) = true ∧
      poisonIn atCove (laOf atCove 0 1 0) 32 = false :=
  ⟨atCove_fetches, reaches_of_isHere (by decide +kernel), reaches_of_isHere (by decide +kernel), by decide +kernel⟩

/-- A load through an untagged authority, with ST.BOOT set. -/
theorem wit_FailedAccessTrapsInTheOrderOfItsChecks :
    (∃ m a x n d f, loadOf (.ldd 0 4 2 3) = some (0, m, a, x, n, d, f) ∧ m.rs1 = 2 ∧ (gGet (coreOf atCove 0) m.rs1).tag = false ∧
      memExtra (hlFetched atCove 0).2 (coreOf atCove 0) m (memAddr (coreOf atCove 0) m).toNat = true) ∧
      HlFetches atCove (0 : BitVec 4).toNat ∧ handlerIs atCove 0 3 true (capMoveCursor executeRoot 0x6000000030#64) ∧
      localFabric atCove (platformCode (coreOf atCove 0)) 8 = true ∧ regionOf (localPart 8) ≠ .setup :=
  ⟨⟨_, _, _, _, _, _, rfl, rfl, by decide +kernel⟩, atCove_fetches, handler_of (by decide +kernel),
    by decide +kernel⟩

theorem wit_IllegalInstructionTakesItsTrap :
    HlFetches live (0 : BitVec 4).toNat ∧ decodeHl 0 0 = .illegalInstruction 0 0 ∧
      handlerIs live 0 1 true (capMoveCursor executeRoot 0x6000000010#64) :=
  ⟨live_fetches, by decide +kernel, handler_of (by decide +kernel)⟩

/-- Of the second clause: bank O is busy, bank M free. -/
def nesting : State := withCore { core0Reset with bankO := { bankReset capNull with tcause := 0x100 } }
theorem wit_IllegalInstructionNests :
    HlFetches nesting (0 : BitVec 4).toNat ∧ bankBusy (coreOf nesting 0).bankO = true ∧ bankBusy (coreOf nesting 0).bankM = false ∧
      (fetchCheck (hlFetched nesting 0).2 (capMoveCursor executeRoot 0x6000000220#64) 0).1 = none :=
  ⟨by unfold HlFetches; decide +kernel, by decide +kernel⟩

/-- An access through `auth` passes its checks. -/
def made (s : State) (c : HlCore) (auth : Cap) (mask : BitVec 12) (remote write : Bool) (kinds : BitVec 5) (size align : Nat) : Bool :=
  match hlReach s c auth mask true remote write kinds (capCursor auth).toNat size align with
  | .here _ _ _ => true
  | _ => false

theorem passes_of_made {s : State} {c : HlCore} {auth : Cap} {mask : BitVec 12} {remote write : Bool} {kinds : BitVec 5}
    {size align : Nat} (h : made s c auth mask remote write kinds size align = true) :
    ∃ s1, passes s c auth mask remote write kinds size align s1 := by
  unfold made at h; unfold passes
  split at h
  · exact ⟨_, _, _, ‹_›⟩
  · cases h

/-- It passes them again after that. -/
def madeTwice (s : State) (c : HlCore) (auth : Cap) (mask : BitVec 12) (kinds : BitVec 5) (size align : Nat) : Bool :=
  match hlReach s c auth mask true false false kinds (capCursor auth).toNat size align with
  | .here _ _ s1 => made s1 c auth mask false false kinds size align
  | _ => false

theorem passesTwice {s : State} {c : HlCore} {auth : Cap} {mask : BitVec 12} {kinds : BitVec 5} {size align : Nat}
    (h : madeTwice s c auth mask kinds size align = true) : ∃ s1, passes s c auth mask false false kinds size align s1 ∧
      ∃ s2, passes s1 c auth mask false false kinds size align s2 := by
  unfold madeTwice at h
  split at h
  · exact ⟨_, ⟨_, _, ‹_›⟩, passes_of_made h⟩
  · cases h

theorem wit_HostSealing :
    let c := coreOf atCove 0
    let u := (hlFetched atCove 0).2
    let ca := gc atCove 0 1
    HlFetches atCove (0 : BitVec 4).toNat ∧ (∃ s1, passes u c ca rST false true kWrite 32 32 s1) ∧
      (∃ s1, passes u c ca rLD false false kRead 32 1 s1) ∧ (∃ s1, passes u c ca rST false true kWrite (gu atCove 0 2) 1 s1) ∧
      inMemory (laCur ca) ∧ StoreTaken atCove (laCur ca) 32 ∧ poisonIn atCove (laCur ca) 32 = false ∧ (gc atCove 0 1).tag = true ∧
      capHas (gc atCove 0 1) rGLOB = true ∧ capOtype (gc atCove 0 1) = 0 ∧ (excRing c).toNat ≤ 2 :=
  ⟨atCove_fetches, passes_of_made (by decide +kernel), passes_of_made (by decide +kernel), passes_of_made (by decide +kernel),
    inMemory_cove (n := 0) (by decide +kernel), by unfold StoreTaken; decide +kernel, by decide +kernel⟩

theorem wit_QputQueues :
    let c := coreOf atCove 0
    let u := (hlFetched atCove 0).2
    let ca := gc atCove 0 1
    HlFetches atCove (0 : BitVec 4).toNat ∧ gc atCove 0 4 = capNull ∧
      (∃ s1, passes u c ca (rLD ||| rLDC) false false kRead 128 16 s1 ∧ ∃ s2, passes s1 c ca (rLD ||| rLDC) false false kRead 128 16 s2) ∧
      128 * (hdrExt (memBytes atCove (laCur ca) 128) + 1) = 128 ∧ inMemory (laCur ca) ∧ poisonIn atCove (laCur ca) 128 = false := by
  refine ⟨atCove_fetches, by decide +kernel, ?_, by decide +kernel, inMemory_cove (n := 0) (by decide +kernel), by decide +kernel⟩
  exact passesTwice (by decide +kernel)

theorem wit_FencesAdvanceAndCsrsHold :
    HlFetches atCove (0 : BitVec 4).toNat ∧ plainOf (.rdtb 0 4) = some (0, some 4) ∧ csrCheck (coreOf atCove 0) 0 true = none ∧
      csrCheck (coreOf atCove 0) 1 true = none ∧ csrCheck (coreOf atCove 0) 0x100 true = none ∧
      csrCheck (coreOf atCove 0) 0x02F true = none ∧ csrCheck (coreOf atCove 0) 0x100 false = none :=
  ⟨atCove_fetches, rfl, by decide +kernel⟩

/-- Core 0 in WFI with interrupt 16 enabled and pending. -/
def sleeping : State := regSet (regSet (withCore { core0Reset with wait := .wfi }) (Reg.intEn 0) 1) (Reg.intPend 0) 1

theorem wit_CoresHaltStartAndWait :
    HlFetches atCove (0 : BitVec 4).toNat ∧ (excRing (coreOf atCove 0)).toNat = 0 ∧ gu atCove 0 2 = 5 ∧
      (coreOf atCove 5).running = false ∧ gu atCove 0 4 = 0 ∧ (coreOf atCove 0).running = true ∧
      (coreOf sleeping 0).running = true ∧ (coreOf sleeping 0).wait = .wfi ∧ pendingCauses sleeping 0 ≠ [] ∧ fenced sleeping = false :=
  ⟨atCove_fetches, by decide +kernel⟩

/-- Core 0 waits for counter 5 to reach 0. -/
def counting : State := withCore { core0Reset with wait := .counter 5 0 4 }
/-- Counter 5 is poisoned. -/
def poisoned : State := regSet atCove (Reg.scPoison 0) 0x20

theorem wit_SyncCountersCount :
    HlFetches atCove (0 : BitVec 4).toNat ∧ scNamed atCove (coreOf atCove 0) (gInt (coreOf atCove 0) 2) = some 5 ∧
      scPoisoned atCove 5 = false ∧ gu atCove 0 4 % 2 ^ 32 ≤ scVal atCove 5 ∧ scVal atCove 5 < gu atCove 0 2 % 2 ^ 32 ∧
      HlFetches poisoned (0 : BitVec 4).toNat ∧ scNamed poisoned (coreOf poisoned 0) (gInt (coreOf poisoned 0) 2) = some 5 ∧
      scPoisoned poisoned 5 = true ∧ (coreOf counting 0).wait = .counter 5 0 4 ∧ (coreOf counting 0).running = true ∧
      fenced counting = false ∧ (let s := regSet counting (Reg.scPoison 0) 0x20
        scPoisoned s 5 = true ∧ (coreOf s 0).wait = .counter 5 0 4 ∧ fenced s = false) ∧
      256 ≤ gu atCove 0 1 ∧ platformAgent live .tmc = true ∧ platformAgent live (.vf 1) = false :=
  ⟨atCove_fetches, first4 (by decide +kernel) ⟨by unfold HlFetches; decide +kernel,
    by decide +kernel⟩⟩

/-- Interrupt 16 pending in core 0, whose vector table stands in cove 0 and holds a sealed gate of ring 0 for it. -/
def atVector : State :=
  let t := cove + 16 * 16
  let s := regSet (regSet (withCore { core0Reset with st := 1, vtb := root cove }) (Reg.intEn 0) 1) (Reg.intPend 0) 1
  { s with mem := ((List.range 16).zip (toBytes 16 gate.bits.toNat)).filterMap (fun e => if e.2 = 0 then none else some (t + e.1, e.2)),
           tags := [(t, true)] }
/-- The timer and the watchdog of core 0 are due. -/
def due : State := regSet (regSet { live with tbc := 9 } (Reg.trapTimer 0) 5) (Reg.trapWdog 0) 9

/-- The same, with an instruction begun. -/
def dueBegun : State := setCore due 0 { coreOf due 0 with begun := true }

/-- The vector table gives a handler of ring 0. -/
def handled (s : State) (n : Nat) (k : Cause) : Bool :=
  match vectorEntry s n k with
  | .gives (.inl h) _ => capRing h == 0
  | _ => false

theorem ringZero_of_handled {s : State} {n : Nat} {k : Cause} (h : handled s n k = true) :
    ∃ c s1, vectorEntry s n k = .gives (.inl c) s1 ∧ capRing c = 0 := by
  unfold handled at h
  split at h
  · exact ⟨_, _, ‹_›, by simpa using h⟩
  · cases h

theorem wit_InterruptsAndMachineCausesEnter :
    (platformAgent live .tmc = true ∧ atBoundary (coreOf dueBegun 0) = false ∧ regGet dueBegun (Reg.trapWdog 0) ≠ 0 ∧
      (regGet dueBegun (Reg.trapWdog 0)).toNat ≤ dueBegun.tbc.toNat) ∧ (regGet due (Reg.trapTimer 0) ≠ 0 ∧ (regGet due (Reg.trapTimer 0)).toNat ≤ due.tbc.toNat) ∧
      (regGet due (Reg.trapWdog 0) ≠ 0 ∧ (regGet due (Reg.trapWdog 0)).toNat ≤ due.tbc.toNat ∧ atBoundary (coreOf due 0) = true ∧
        bankBusy (coreOf due 0).bankM = false ∧ deviceNo due = 0 ∧ capRing (coreOf due 0).bankM.last = 0 ∧
        (fetchCheck due (capMoveCursor (coreOf due 0).bankM.last 0x6000000210#64) 0).1 = none ∧
        (fetchCheck due (capMoveCursor (coreOf due 0).bankM.last 0x6000000240#64) 0).1 = none) ∧
      (pendingCauses atVector 0 = [16] ∧ (coreOf atVector 0).st.getLsbD 0 = true ∧ (coreOf atVector 0).st.getLsbD 1 = false ∧
        bankBusy (coreOf atVector 0).bankO = false ∧ atBoundary (coreOf atVector 0) = true ∧
        ∃ h s1, vectorEntry atVector 0 (interruptAs (coreOf atVector 0) 16) = .gives (.inl h) s1 ∧ capRing h = 0) :=
  first3 (by decide +kernel) (first4 (by decide +kernel) ⟨by decide +kernel, ringZero_of_handled (by decide +kernel)⟩)

/-- Of the wait for a counter that an interrupt meets: not reached with target 1, reached with target 0. -/
def waitingAt (target : W32) : State := setCore atVector 0 { coreOf atVector 0 with wait := .counter 5 target 4 }

theorem wit_InterruptsEndWaits :
    ∀ target, target = 0 ∨ target = 1 →
      (waitingAt target).coresReleased = true ∧ (coreOf (waitingAt target) 0).wait = .counter 5 target 4 ∧
      scPoisoned (waitingAt target) 5 = false ∧ scVal (waitingAt target) 5 = 0 ∧ pendingCauses (waitingAt target) 0 = [16] ∧
      (coreOf (waitingAt target) 0).st.getLsbD 0 = true ∧ atBoundary (coreOf (waitingAt target) 0) = true ∧
      ∃ h s1, vectorEntry (waitingAt target) 0 (interruptAs (coreOf (waitingAt target) 0) 16) = .gives (.inl h) s1 ∧ capRing h = 0 := by
  rintro _ (rfl | rfl)
  · exact first4 (by decide +kernel) (first3 (by decide +kernel) (ringZero_of_handled (by decide +kernel)))
  · exact first4 (by decide +kernel) (first3 (by decide +kernel) (ringZero_of_handled (by decide +kernel)))

/- Sealing, the access control unit, the host port -/

theorem wit_EpochAdvancesMergeAndWrap :
    reachesWindow live .tmc 0 = true ∧ reachesWindow live .pf 0 = true ∧
      sget markDflt { live with advancing := [(3, true)] }.advancing (3 : BitVec 8).toNat = true :=
  by decide +kernel

/-- A switch is pending, released and due. -/
def switching : State := { live with acu := { live.acu with pending := true, released := true } }
/-- A switch at 5, and the time base past it. -/
def late : State := regSet { live with tbc := 9 } Reg.acuSwitchAt 5
/-- A switch took place; an operation or copy begun before it has ended. -/
def draining : State := { live with acu := { live.acu with draining := true } }

theorem wit_AcuSwitchesBanksAndFillsTheShadow :
    acuWriter live .tmc = true ∧ acuHeldByChangeSet live = false ∧ (live.acu.pending = false ∧ live.acu.draining = false) ∧
      regGet live Reg.acuSwitchAt = 0 ∧ (regGet late Reg.acuSwitchAt ≠ 0 ∧ (regGet late Reg.acuSwitchAt).toNat < late.tbc.toNat) ∧
      (switching.acu.pending = true ∧ switching.acu.released = true ∧ switching.acu.deadline.toNat ≤ switching.tbc.toNat) ∧
      draining.acu.draining = true ∧ draining.ops = [] ∧ draining.dir = [] ∧ Memory.wf (fun _ => 0) live.acu.bad0 = true :=
  ⟨by decide +kernel, by decide +kernel, ⟨rfl, rfl⟩, by decide +kernel, by decide +kernel, ⟨rfl, rfl, by decide +kernel⟩,
    rfl, rfl, rfl, by decide +kernel⟩

/-- The host link is up, SQ 0 and CQ 0 of the physical function are on with 64 entries, and polling may scan. -/
def rings : State :=
  regSet (regSet (regSet (regSet { regSet live Reg.hpLink 0x306 with tbc := 1000000 } (Reg.sqCtrl 0) 0x10006) (Reg.cqCtrl 0) 0x10006)
    Reg.dbSqAddr 0x1000) Reg.dbCqAddr 0x2000

theorem wit_PollingTakesDoorbells :
    scanPossible (hostAfter rings [(0x1000, [1])]) (0 : BitVec 8).toNat = true ∧
      recordsReadable (hostAfter rings [(0x1000, [1])]) (0 : BitVec 8).toNat ∧ scanDue rings 0 = true ∧
      recordTail (hostAfter rings [(0x1000, [1])]) 0 0 = 1 :=
  ⟨by decide +kernel, by unfold recordsReadable; decide +kernel, by decide +kernel⟩

/-- The same with CQ 1 on, to which no SQ is bound; and with the bases of SQ 1 and CQ 1 misaligned. -/
def idleCq : State := regSet rings (Reg.cqCtrl 1) 0x10006
def skewed : State := regSet (regSet rings (Reg.sqBase 1) 0x800) (Reg.cqBase 1) 0x800

theorem wit_RingControlEnablesAndDisables :
    reachesWindow rings .pf (0 : BitVec 8).toNat = true ∧ (sqOn rings 0 0 = true ∧ sqCq rings 0 0 = 0 ∧ sqSize rings 0 0 = 6 ∧
      sizeAfter 6 0x00006 = 6 ∧ (0x00006#32).getLsbD 16 = false ∧ (0x10006#32).getLsbD 16 = true) ∧
      (sqOn rings 0 1 = false ∧ cqOn rings 0 0 = true ∧ cqOn rings 0 1 = false ∧ (regGetFn rings 0 (Reg.sqBase 1)).toNat = 0 ∧
        baseUsable 0) ∧
      (cqOn idleCq 0 1 = true ∧ cqSize idleCq 0 1 = 6 ∧ (∀ x, x < 16 → sqCq idleCq 0 x ≠ 1) ∧ idleCq.ops = []) ∧
      reachesWindow skewed .pf (0 : BitVec 8).toNat = true ∧ sqOn skewed 0 1 = false ∧ cqOn skewed 0 1 = false ∧
      ¬ baseUsable (regGetFn skewed 0 (Reg.sqBase 1)).toNat ∧ ¬ baseUsable (regGetFn skewed 0 (Reg.cqBase 1)).toNat :=
  by unfold baseUsable; decide +kernel

/- Operations -/

/-- A descriptor of `1 + ext` entries with these values at these bits. -/
def descOf (ext : Nat) (fs : List (Nat × Nat)) : List Byte :=
  toBytes (128 * (ext + 1)) ((fs.map (fun f => f.2 * 2 ^ f.1)).sum + ext * 2 ^ 24 +
    ((List.range ext).map (fun i => 255 * 2 ^ (1024 * (i + 1)))).sum)
/-- A running operation of a core on queue `q`, with these capabilities in its slots. -/
def running (q : Nat) (desc : List Byte) (caps : List Cap) : Op :=
  { newOp live (.core 0 0 capNull) 0 desc ((slotsOf desc []).zip (caps ++ List.replicate 48 capNull) |>.map (fun e => { e.1 with cap := e.2 })) with
    phase := .running, queue := BitVec.ofNat 8 q }
/-- The machine with one operation. -/
def withOp (o : Op) : State := { live with ops := [o], nextOp := o.id + 1 }

theorem opRuns_running {s : State} {id opcode : Nat} {o : Op} {fields : State → Op → Option Nat}
    (h : findOp s id = some o ∧ o.opcode.toNat = opcode ∧ fenced s = false ∧ fields s o = none ∧ o.phase = .running ∧ o.deadline = none) :
    opRuns s id o o opcode fields :=
  ⟨h.1, h.2.1, h.2.2.1, h.2.2.2.1, Or.inr ⟨h.2.2.2.2.1, rfl⟩, fun d e => by rw [h.2.2.2.2.2] at e; cases e⟩

/-- Whether an engine's access of one byte passes. -/
def bytePasses (s : State) (r : Op) (who : Who) (slot : Nat) (kinds : BitVec 5) (write : Bool) (x : Nat) : Bool :=
  (match regionOf x with | .cove _ => true | .hbm => true | _ => false) && poisonAt s x == false && accessReady s x &&
    decide ((acuCheckIn s r.bank who r.tenant.toNat (kEngine ||| kinds) (capHas (opSlot r slot).cap rSYS) write x).2 = s) &&
    (acuCheckIn s r.bank who r.tenant.toNat (kEngine ||| kinds) (capHas (opSlot r slot).cap rSYS) write x).1.ok

theorem bytes_pass {s : State} {r : Op} {who : Who} {slot : Nat} {kinds : BitVec 5} {write : Bool} {a n : Nat}
    (h : (List.range n).all (fun i => bytePasses s r who slot kinds write (a + i)) = true) :
    ∀ x, a ≤ x → x < a + n → inMemory x ∧ poisonAt s x = false ∧ accessReady s x = true ∧
      (acuCheckIn s r.bank who r.tenant.toNat (kEngine ||| kinds) (capHas (opSlot r slot).cap rSYS) write x).2 = s ∧
      (acuCheckIn s r.bank who r.tenant.toNat (kEngine ||| kinds) (capHas (opSlot r slot).cap rSYS) write x).1.ok = true := by
  intro x h1 h2
  have hx := List.all_eq_true.mp h (x - a) (List.mem_range.mpr (by omega))
  rw [Nat.add_sub_cancel' h1] at hx
  simp only [bytePasses, Bool.and_eq_true, beq_iff_eq, decide_eq_true_eq] at hx
  refine ⟨?_, hx.1.1.1.2, hx.1.1.2, hx.1.2, hx.2⟩
  have hr := hx.1.1.1.1
  unfold inMemory
  split at hr <;> simp_all

theorem rangePasses_of {s : State} {r : Op} {who : Who} {slot : Nat} {write : Bool} {a n : Nat}
    (h : (List.range n).all (fun i => bytePasses s r who slot (if write then kWrite else kRead) write (a + i)) = true) :
    rangePasses s r who slot write a n := bytes_pass h

theorem rmwPasses_of {s : State} {r : Op} {slot a n : Nat}
    (h : (List.range n).all (fun i => bytePasses s r .embedding slot kAtomic true (a + i)) = true) : rmwPasses s r slot a n :=
  bytes_pass h

theorem slotFits_of {s : State} {r : Op} {slot : Nat} {write : Bool} {ext : Nat}
    (h : capCheck (opSlot r slot).cap 0 (if write then rST ||| rDMA else rLD ||| rDMA) true (slotAddr r slot 0) ext 1 = none ∧
      localFabric s false (slotAddr r slot 0) = true) : slotFits s r slot write ext := h

/-- A COPY of 4 bytes within cove 0, and a NOP. -/
def copying : Op := running 0xFF (descOf 0 [(0, 1), (16, 5), (160, 4)]) [root cove, root (cove + 64)]
def nothing : Op := running 0xFF (descOf 0 []) []

theorem wit_NopAndCopyComplete :
    opRuns (withOp nothing) nothing.id nothing nothing 0 hostFields ∧ opRuns (withOp copying) copying.id copying copying 1 hostFields ∧
      slotKind copying.desc 0 = 1 ∧ slotFits (withOp copying) copying 0 false 4 ∧ slotFits (withOp copying) copying 1 true 4 ∧
      param copying 160 64 = 4 ∧ rangePasses (withOp copying) copying .hostPort 0 false (slotLa copying 0) 4 ∧
      rangePasses (withOp copying) copying .hostPort 1 true (slotLa copying 1) 4 ∧ apart (slotLa copying 0) 4 (slotLa copying 1) 4 :=
  ⟨opRuns_running (by decide +kernel), opRuns_running (by decide +kernel), by decide +kernel, slotFits_of (by decide +kernel),
    slotFits_of (by decide +kernel), by decide +kernel, rangePasses_of (by decide +kernel), rangePasses_of (by decide +kernel),
    by unfold apart; decide +kernel⟩

/-- A NOP of SQ 0 that has ended, and one of a core whose completion goes to cove 0. -/
def ended (src : OpSrc) : Op := { nothing with src := src, phase := .done }
def endedHost : State := { rings with ops := [ended (.host 0 0 0)], nextOp := 1 }
def endedCore : State := withOp (ended (.core 0 0 (root cove)))

theorem wit_CompletionsAreWritten :
    (let o := ended (.host 0 0 0)
     findOp endedHost o.id = some o ∧ mayComplete endedHost o = true ∧ fenced endedHost = false ∧ opFlag o 11 = false ∧
      opFlag o 10 = false ∧ hostLinkUp endedHost = true ∧ cqOn endedHost 0 o.cq = true ∧ cqFull endedHost 0 o.cq = false ∧
      (hostPortAccess endedHost true ((regGetFn endedHost 0 (Reg.cqBase o.cq)).toNat +
        32 * (cqTail endedHost 0 o.cq % 2 ^ cqSize endedHost 0 o.cq)) 32).1 = true) ∧
    (let o := ended (.core 0 0 (root cove))
     let s := endedCore
     findOp s o.id = some o ∧ mayComplete s o = true ∧ fenced s = false ∧ root cove ≠ capNull ∧ inMemory (laCur (root cove)) ∧
      laCur (root cove) % 32 = 0 ∧ accessReady s (laCur (root cove)) = true ∧ StoreTaken s (laCur (root cove)) 32 ∧
      natBit (laCur (root cove)) 53 = false ∧
      (acuCheckIn s o.bank .hostPort o.tenant.toNat (kEngine ||| kWrite) (capHas (root cove) rSYS) true (laCur (root cove))).1.ok = true ∧
      (acuCheckIn s o.bank .hostPort o.tenant.toNat (kEngine ||| kWrite) (capHas (root cove) rSYS) true (laCur (root cove))).2 = s) :=
  ⟨by decide +kernel,
    first4 (by decide +kernel) ⟨inMemory_cove (n := 0) (by decide +kernel),
      by decide +kernel, by decide +kernel, by unfold StoreTaken; decide +kernel, by decide +kernel⟩⟩

/-- CQ 0 delays its vector by 1 µs, and one completion has waited since 0. -/
def delayed : State :=
  { regSet (regSet rings (Reg.cqCtrl 0) 0x30006) (Reg.cqInt 0) 0x10000 with
    funcs := [(0, { fnOf rings 0 with unsent := [(0, 1)] })] }

/-- Vector 3 waited for the link. -/
def vectorLeft : State := regSet (regSet live Reg.msixPba 8) (Reg.msixCtrl 3) 0

theorem wit_HostPortEvents :
    inReset vectorLeft = false ∧ phyStopped vectorLeft = false ∧ vectorWaits vectorLeft 0 3 = true ∧ (regGetFn delayed 0 (Reg.cqInt 0)).toNat / 2 ^ 16 % 2 ^ 16 ≠ 0 ∧
      (regGetFn delayed 0 (Reg.cqCtrl 0)).getLsbD 17 = true ∧ sget (fun _ => 0) (fnOf delayed 0).unsent 0 ≠ 0 ∧
      (sget zDflt64 (fnOf delayed 0).firstAt 0).toNat + (regGetFn delayed 0 (Reg.cqInt 0)).toNat / 2 ^ 16 % 2 ^ 16 * 1000 ≤
        delayed.tbc.toNat :=
  by decide +kernel

/-- `n` bytes at an address of cove 0. -/
def piece (a n : Nat) : Cap := capSetBounds (root (cove + a)) n false
/-- Kinds of the first `n` slots: capabilities. -/
def caps (n : Nat) : List (Nat × Nat) := (List.range n).map (fun i => (1024 * (i / 3) + 16 + 2 * (i % 3), 1))
/-- Little-endian bytes of cove 0's memory that are not zero. -/
def bytesIn (l : List (Nat × Nat)) : Mem := (l.filter (fun e => e.2 != 0)).map (fun e => (cove + e.1, BitVec.ofNat 8 e.2))

/-- M, K and N are 1, INT8 in and out; slot 4 is the stride block. -/
def multiplying : Op :=
  running 0 (descOf 1 (caps 3 ++ [(0, 0x10), (1024 + 18, 2), (160, 1), (184, 1), (204, 1)])) [piece 0 16, piece 64 16, piece 128 64]
/-- One segment of rows of one element. -/
def summing : Op := running 0 (descOf 0 (caps 3 ++ [(0, 0x11), (160, 1), (184, 1)])) [piece 0 64, piece 64 64, piece 128 64]

theorem wit_TensorArraysMultiplyAndSum :
    opRuns (withOp multiplying) multiplying.id multiplying multiplying 0x10 matmulFields ∧
      (∀ e ∈ matmulSlots (matmulOf multiplying), slotFits (withOp multiplying) multiplying e.1 e.2.2 e.2.1 ∧
        rangePasses (withOp multiplying) multiplying .dta e.1 e.2.2 (slotLa multiplying e.1) e.2.1) ∧
      (matmulOf multiplying).outFmt ≠ 8 ∧ (matmulOf multiplying).cEn = false ∧
      opRuns (withOp summing) summing.id summing summing 0x11 segSumFields ∧ slotFits (withOp summing) summing 0 false 0 ∧
      slotFits (withOp summing) summing 1 false 8 ∧ slotFits (withOp summing) summing 2 true (segOutExtent (segSumOf summing)) ∧
      rangePasses (withOp summing) summing .dta 1 false (slotLa summing 1) 8 ∧
      rangePasses (withOp summing) summing .dta 2 true (slotLa summing 2) (segOutExtent (segSumOf summing)) ∧
      segOff (withOp summing) summing 0 = 0 ∧ segOff (withOp summing) summing 1 = 0 ∧ (segSumOf summing).segs = 1 := by
  refine ⟨opRuns_running (by decide +kernel), fun e he => ?_, by decide +kernel, by decide +kernel, opRuns_running (by decide +kernel),
    slotFits_of (by decide +kernel), slotFits_of (by decide +kernel), slotFits_of (by decide +kernel), rangePasses_of (by decide +kernel),
    rangePasses_of (by decide +kernel), by decide +kernel⟩
  have m : matmulSlots (matmulOf multiplying) = [(0, 1, false), (1, 1, false), (2, 4, true)] := by decide +kernel
  rw [m] at he
  simp only [List.mem_cons, List.not_mem_nil, or_false] at he
  obtain rfl | rfl | rfl := he <;> exact ⟨slotFits_of (by decide +kernel), rangePasses_of (by decide +kernel)⟩

/-- One index, 0, of tables of 4 rows of 16 bytes. -/
def gathering : Op := running 0x20 (descOf 0 (caps 3 ++ [(0, 0x30), (160, 1)])) [piece 0 64, piece 64 64, piece 128 64]
def scattering : Op := running 0x20 (descOf 0 (caps 3 ++ [(0, 0x31), (160, 1)])) [piece 0 64, piece 64 64, piece 128 64]

theorem bytesGive_local {s : State} {r : Op} {who : Who} {slot a n : Nat} (h : blocksOf a n = [a])
    (e : min (a + n) (alignDown a 64 + 64) - a = n ∧ localFabric s false a = true)
    (p : rangePasses s r who slot false (localPart a) n) : bytesGive s r who slot a n (memBytes s (localPart a) n) := by
  refine ⟨[memBytes s (localPart a) n], by simp, by simp [h], fun i b hb => ?_⟩
  rw [h] at hb
  match i with
  | 0 =>
    obtain rfl : a = b := by simpa using hb
    rw [e.1]; unfold blockGives; rw [if_pos e.2]
    exact ⟨p, rfl⟩
  | _ + 1 => simp at hb

theorem wit_GatherAndScatterMoveRows :
    (slotFits (withOp gathering) gathering 0 false 4 ∧ rangePasses (withOp gathering) gathering .ge 0 false (slotLa gathering 0) 4 ∧
      (walkOf (withOp gathering) (geCove gathering)).promoted = [] ∧
      opRuns (withOp gathering) gathering.id gathering gathering 0x30 geFields ∧ geCount gathering = 1 ∧ geRowBytes gathering = 16 ∧
      slotFits (withOp gathering) gathering 2 true 16 ∧ rangePasses (withOp gathering) gathering .ge 2 true (slotLa gathering 2) 16 ∧
      slotRoom gathering 1 = 64 ∧ capCheck (opSlot gathering 1).cap 0 (rLD ||| rDMA) true (slotAddr gathering 1 0) 64 1 = none ∧
      listIndex (withOp gathering) gathering 0 0 = 0 ∧
      ∃ row, bytesGive (withOp gathering) gathering .ge 1 (slotAddr gathering 1 0) 16 row) ∧
    opRuns (withOp scattering) scattering.id scattering scattering 0x31 geFields ∧ slotFits (withOp scattering) scattering 1 false 16 ∧
      rangePasses (withOp scattering) scattering .ge 1 false (slotLa scattering 1) 16 ∧
      slotFits (withOp scattering) scattering 2 true 64 ∧
      rangePasses (withOp scattering) scattering .ge 2 true (slotLa scattering 2) 16 :=
  ⟨⟨slotFits_of (by decide +kernel), rangePasses_of (by decide +kernel), by decide +kernel, opRuns_running (by decide +kernel),
    by decide +kernel, by decide +kernel, slotFits_of (by decide +kernel), rangePasses_of (by decide +kernel), first3 (by decide +kernel) ⟨_, bytesGive_local (by decide +kernel) (by decide +kernel) (rangePasses_of (by decide +kernel))⟩⟩,
    opRuns_running (by decide +kernel), slotFits_of (by decide +kernel), rangePasses_of (by decide +kernel),
    slotFits_of (by decide +kernel), rangePasses_of (by decide +kernel)⟩

/-- One seed, 0, of a graph of one vertex with itself as its only neighbour, K1 = 1. -/
def walking : Op :=
  running 0x20 (descOf 1 (caps 5 ++ [(0, 0x32), (40, 0x20), (160, 1), (192, 1)])) [piece 0 16, piece 64 4, piece 128 4, piece 192 8, piece 256 64]
def begun : Op := { walking with phase := .waiting }
/-- Before it begins, and at its last index check. -/
def walkBegins : State := { withOp begun with mem := bytesIn [(8, 1)] }
def walkEnds : State :=
  { withOp walking with
    walks := [(0, ⟨walking.id, 0, 0, [], true, 0, some (0, 0), [], [], 0, 0, 0, 0, [], []⟩)], mem := bytesIn [(8, 1)] }

/-- How an operation runs once it begins. -/
def begins (s : State) (o : Op) : Op :=
  { accept s o with phase := .running, deadline := if o.opcode = 8 then none else opDeadline s o, bank := s.acu.active,
                    beganAt := nextBegan s }

theorem opRuns_begins {s : State} {id opcode : Nat} {o : Op} {fields : State → Op → Option Nat}
    (h : findOp s id = some o ∧ o.opcode.toNat = opcode ∧ fenced s = false ∧ fields s o = none ∧ o.phase = .waiting ∧
      mayBegin s o = true ∧ beginFault s o fields = none ∧ (begins s o).deadline.all (fun d => !passed s d) = true) :
    opRuns s id o (begins s o) opcode fields :=
  ⟨h.1, h.2.1, h.2.2.1, h.2.2.2.1, Or.inl ⟨h.2.2.2.2.1, h.2.2.2.2.2.1, h.2.2.2.2.2.2.1, rfl⟩,
    fun d e => by have := h.2.2.2.2.2.2.2; rw [e] at this; simpa using this⟩

theorem wit_WalksSampleAndRetire :
    (opRuns walkBegins begun.id begun (begins walkBegins begun) 0x32 geFields ∧ begun.queue.toNat / 0x20 = 1 ∧ walkBegins.walks = [] ∧
      seedsReadable walkBegins (begins walkBegins begun) 0 ∧ listIndex walkBegins (begins walkBegins begun) 2 0 < walkN (begins walkBegins begun) ∧
      slotFits walkBegins (begins walkBegins begun) 3 true 4 ∧
      rangePasses walkBegins (begins walkBegins begun) .ge 3 true (slotLa (begins walkBegins begun) 3) 4 ∧
      localFabric walkBegins false (slotAddr (begins walkBegins begun) 4 0) = true ∧ walkFeatures begun = false ∧ geCount begun = 1 ∧
      seedEntries walkBegins (begins walkBegins begun) 0 = [0]) ∧
    opRuns walkEnds walking.id walking walking 0x32 geFields ∧ geCove walking = (0 : BitVec 5).toNat ∧ walkHeld walkEnds walking.id = true ∧
      (walkOf walkEnds 0).front = some (0, 0) ∧ slotFits walkEnds walking 4 true 8 ∧
      rangePasses walkEnds walking .ge 4 true (slotLa walking 4) 8 ∧ 0 < walkN walking ∧ walkTwo walking = false ∧
      walkFeatures walking = false ∧ slotFits walkEnds walking 3 true 8 ∧
      rangePasses walkEnds walking .ge 3 true (slotLa walking 3 + 4 * geCount walking) 4 := by
  have e : seedEntries walkBegins (begins walkBegins begun) 0 = [0] := by decide +kernel
  refine ⟨⟨opRuns_begins (by decide +kernel), by decide +kernel, by decide +kernel,
    ⟨slotFits_of (by decide +kernel), slotFits_of (by decide +kernel), slotFits_of (by decide +kernel), rangePasses_of (by decide +kernel),
      fun i hi _ => ?_, fun x hx => ?_⟩, by decide +kernel, slotFits_of (by decide +kernel), rangePasses_of (by decide +kernel),
    first3 (by decide +kernel) e⟩, opRuns_running (by decide +kernel), first3 (by decide +kernel) ⟨slotFits_of (by decide +kernel), rangePasses_of (by decide +kernel), first3 (by decide +kernel) ⟨slotFits_of (by decide +kernel), rangePasses_of (by decide +kernel)⟩⟩⟩
  · obtain rfl : i = 0 := by omega
    exact ⟨rangePasses_of (by decide +kernel), by decide +kernel⟩
  · rw [e] at hx
    obtain rfl : x = 0 := by simpa using hx
    exact rangePasses_of (by decide +kernel)

/- Embedding tables -/

/-- A table of 4 rows of 16 bytes (4 fp32 elements), writable, one shard at cove 0's byte 256. -/
def table : TblRec :=
  { gen := 1, rows := 4, rowBytes := 16, elem := 0, writable := true, migrate := false, shards := 1
    slots := [⟨0, capNull, []⟩, ⟨0, capNull, []⟩, ⟨1, piece 256 64, []⟩] }
/-- Tenant 0 owns table slot 0 with that record, and cove 0. -/
def withTable (o : Op) : State :=
  { withOp o with tables := [(0, { tblFree with owned := true, rec0 := some table })], coveOwner := [(0, 0)] }
def defining : Op := running 0x45 (descOf 0 ([(0, 0x60), (20, 1), (176, 4), (232, 1)])) [capNull, capNull, piece 256 64]
def switchingTo : Op := running 0x45 (descOf 0 [(0, 0x61), (232, 1)]) []
def retiring : Op := running 0x45 (descOf 0 [(0, 0x64)]) []
def looking : Op := running 0x45 (descOf 0 (caps 2 ++ [(0, 0x62), (184, 1)])) [piece 0 16, piece 64 64]
def updating : Op := running 0x45 (descOf 1 (caps 2 ++ [(0, 0x63), (184, 1), (1024 + 16, 2), (232, 1), (211, 1)])) [piece 0 16, piece 64 64]

/-- Tenant 0 retires the whole slot of tenant 5, which is stopped. -/
def retiringAll : Op := running 0x45 (descOf 0 [(0, 0x64), (169, 1)]) []
def abandoned : State :=
  regSet { withOp retiringAll with tables := [(0, { tblFree with owned := true, tenant := 5, rec0 := some table })] } (Reg.tenState 5) 1

theorem wit_TablesSwitchAndHotRowsMigrate :
    (opRuns abandoned retiringAll.id retiringAll retiringAll 0x64 embFields ∧ platformRetires abandoned retiringAll = true ∧
      recBound abandoned 0 false = false ∧ recBound abandoned 0 true = false) ∧
    (opRuns (withOp defining) defining.id defining defining 0x60 embFields ∧ (tblOf (withOp defining) 0).owned = false ∧
      (defRecord defining).shards = 1 ∧ capCovers defining 2 (rLD ||| rDMA) 64 ∧ slotKind defining.desc 0 = 0 ∧
      (defRecord defining).migrate = false) ∧
    (opRuns (withTable switchingTo) switchingTo.id switchingTo switchingTo 0x61 embFields ∧ ownsTable (withTable switchingTo) switchingTo ∧
      tblRec (tblOf (withTable switchingTo) 0) false = some table ∧ embGen switchingTo = 1) ∧
    (opRuns (withTable retiring) retiring.id retiring retiring 0x64 embFields ∧ ownsTable (withTable retiring) retiring ∧
      param retiring 169 1 = 0 ∧ tblRec (tblOf (withTable retiring) 0) false ≠ none) ∧
    (regGet { live with tbc := 1000000 } Reg.embSkewAt).toNat < alignDown 1000000 1000000 :=
  ⟨⟨opRuns_running (by decide +kernel), by decide +kernel⟩, ⟨opRuns_running (by decide +kernel), by decide +kernel, by decide +kernel, by unfold capCovers; decide +kernel, by decide +kernel⟩, ⟨opRuns_running (by decide +kernel), by unfold ownsTable; decide +kernel, by decide +kernel⟩,
    ⟨opRuns_running (by decide +kernel), by unfold ownsTable; decide +kernel, by decide +kernel⟩, by decide +kernel⟩

theorem slotReads_local {s : State} {r : Op} {mask : BitVec 12} {slot off n : Nat} {ws : List (Nat × Nat)}
    (h : capCheck (opSlot r slot).cap 0 mask true (slotAddr r slot off) n 1 = none ∧
      blocksOf (slotAddr r slot off) n = [slotAddr r slot off] ∧
      (min (slotAddr r slot off + n) (alignDown (slotAddr r slot off) 64 + 64) - slotAddr r slot off = n ∧
        localFabric s false (slotAddr r slot off) = true) ∧
      ws.all (fun w => decide (localPart (slotAddr r slot off) + n ≤ w.1) || decide (w.1 + w.2 ≤ localPart (slotAddr r slot off))) = true)
    (p : rangePasses s r .embedding slot false (localPart (slotAddr r slot off)) n) :
    slotReads s r mask slot off n ws (memBytes s (localPart (slotAddr r slot off)) n) :=
  ⟨h.1, bytesGive_local h.2.1 h.2.2.1 p, fun _ w hw => by
    have := List.all_eq_true.mp h.2.2.2 w hw
    unfold apart; simpa using this⟩

/-- The bytes of one index, 0, and of a row of zeros. -/
def zeros (n : Nat) : Nat → List Byte := fun _ => List.replicate n 0
/-- The lookup is bound to the record. -/
def lookedAt : Bound := ⟨looking.id, 0, false, table, 0, 0, 0, 0, none⟩
def looked : State := { withTable looking with bound := [lookedAt] }

theorem wit_LookupDeliversRows :
    opRuns looked looking.id looking looking 0x62 embFields ∧ ownsTable looked looking ∧ boundTo looked looking.id looking lookedAt ∧
      lookupCoves looked looking.tenant ≠ [] ∧ Memory.sorted looked.dir = true ∧
      namedRows looking table (zeros 4) (zeros 0) 0 = [(0, 0)] ∧
      indexReads looked looking table [(cove + 64, 16)] (zeros 4) (zeros 0) (positionsLeft lookedAt) ∧
      homeBegun looking table 0 = false ∧ dirFind looked 0 false table 0 = none ∧
      slotReads looked (onRecord looking table) (rLD ||| rDMA) 2 0 16 [(cove + 64, 16)] (zeros 16 0) ∧ slotLa looking 1 = cove + 64 ∧
      slotFits looked looking 1 true 16 ∧ rangePasses looked looking .embedding 1 true (slotLa looking 1) 16 ∧
      slotKind looking.desc 2 = 0 := by
  have z4 : zeros 4 0 = memBytes looked (localPart (slotAddr looking 0 0)) 4 := by decide +kernel
  have z16 : zeros 16 0 = memBytes looked (localPart (slotAddr (onRecord looking table) 2 0)) 16 := by decide +kernel
  refine ⟨opRuns_running (by decide +kernel), by unfold ownsTable; decide +kernel, Or.inr ⟨rfl, by decide +kernel, rfl⟩, first3 (by decide +kernel) ⟨fun i hi _ => ?_, by decide +kernel, by decide +kernel, ?_, by decide +kernel,
    slotFits_of (by decide +kernel), rangePasses_of (by decide +kernel), by decide +kernel⟩⟩
  · obtain rfl : i = 0 := by have : embCount looking = 1 := by decide +kernel
                             omega
    refine ⟨?_, fun _ _ h => absurd h (by decide +kernel)⟩
    rw [z4, show embWidth looking = 4 by decide +kernel]
    exact slotReads_local (by decide +kernel) (rangePasses_of (by decide +kernel))
  · rw [z16]
    exact slotReads_local (by decide +kernel) (rangePasses_of (by decide +kernel))

theorem wit_UpdateAppliesMergedGradients :
    let s := withTable updating
    opRuns s updating.id updating updating 0x63 embFields ∧ ownsTable s updating ∧ updateOf s updating.id = none ∧
      recByGen (tblOf s 0) (embGen updating) = some (false, table) ∧ table.writable = true ∧
      namedRows updating table (zeros 4) (zeros 0) 0 = [(0, 0)] ∧
      indexReads s updating table [(cove + 256, 16)] (zeros 4) (zeros 0) (fun _ => True) ∧
      recDim table * embBytes (param updating 212 2) = 16 ∧
      slotReads s updating (rLD ||| rDMA) 1 0 16 [(cove + 256, 16)] (zeros 16 0) ∧ recDim table * embBytes table.elem = 16 ∧
      localFabric s false (slotAddr (onRecord updating table) 2 0) = true ∧
      capCheck (opSlot (onRecord updating table) 2).cap 0 (rLD ||| rST ||| rATOM ||| rDMA) true
        (slotAddr (onRecord updating table) 2 0) 16 1 = none ∧
      rmwPasses s (onRecord updating table) 2 (cove + 256) 16 ∧
      heldByOther s (.op updating.id) (holdAddr s (slotAddr (onRecord updating table) 2 0)) 16 = false ∧ embRule updating = 0 := by
  have z4 : zeros 4 0 = memBytes (withTable updating) (localPart (slotAddr updating 0 0)) 4 := by decide +kernel
  have z16 : zeros 16 0 = memBytes (withTable updating) (localPart (slotAddr updating 1 0)) 16 := by decide +kernel
  refine ⟨opRuns_running (by decide +kernel), by unfold ownsTable; decide +kernel, by decide +kernel, by decide +kernel, rfl,
    by decide +kernel, fun i hi _ => ?_, by decide +kernel, ?_, first3 (by decide +kernel) ⟨rmwPasses_of (by decide +kernel), by decide +kernel⟩⟩
  · obtain rfl : i = 0 := by have : embCount updating = 1 := by decide +kernel
                             omega
    refine ⟨?_, fun _ _ h => absurd h (by decide +kernel)⟩
    rw [z4, show embWidth updating = 4 by decide +kernel]
    exact slotReads_local (by decide +kernel) (rangePasses_of (by decide +kernel))
  · rw [z16]
    exact slotReads_local (by decide +kernel) (rangePasses_of (by decide +kernel))

theorem wit_EnginesGoOfflineAndReset : platformAgent live .pf = true ∧ platformAgent live .tmc = true :=
  by decide +kernel

/- Strand cores -/

/-- Strand core 0 runs operation `o` with these contents; its program memory holds zeros. -/
def strandWith (o : Op) (c : StrandCore) : State :=
  { withOp o with strands := [(0, { c with running := true, op := some o.id, dc := root cove :: List.replicate 7 capNull })] }
/-- A RUN of core 0 of group 0, and a STOP of it. -/
def runs : Op := running 0x40 (descOf 0 [(0, 0x40), (160, 1)]) []
def stops : Op := { running 0x40 (descOf 0 [(0, 0x41), (160, 1)]) [] with id := 1 }
def onStrand : State := strandWith runs strandReset

theorem onStrand_goes : strandGoes onStrand (0 : BitVec 6).toNat := by unfold strandGoes; decide +kernel

theorem lanesClean_none {s : State} {n : Nat} {c : StrandCore} : lanesClean s n c (lanesOf 0) := by
  intro l h
  simp [lanesOf, fld] at h

theorem forRange {P : Nat → Prop} {a n : Nat} (h : ∀ i < n, P (a + i)) : ∀ x, a ≤ x → x < a + n → P x := fun x h1 h2 => by
  have := h (x - a) (by omega)
  rwa [Nat.add_sub_cancel' h1] at this

theorem wit_StrandAccumulatorsTakeExactResults :
    (accOp onStrand (.mpy 0 false 0 0 0 0 0)).map (fun r => (r.1, r.2.2.1)) = some (0, true) ∧
      accSet (.setp 0 false 1 false 0 0) = some (0, false, 1, true, 0, 16, 0) ∧ movesOk 0 = true ∧ strandGoes onStrand (0 : BitVec 6).toNat ∧
      lanesClean onStrand 0 (strandOf onStrand 0) (lanesOf 0) :=
  ⟨by decide +kernel, rfl, by decide +kernel, onStrand_goes, lanesClean_none⟩

theorem wit_StrandRegistersAndMemory :
    (regOp onStrand (.strandAdd 0 1 2 0)).map (fun r => (r.1, r.2.1)) = some (0, 1) ∧ regsLegal 1 2 ∧ movesOk 0 = true ∧
      strandGoes onStrand (0 : BitVec 6).toNat ∧ lanesClean onStrand 0 (strandOf onStrand 0) (lanesOf 0) ∧
      poisonAt onStrand (pointedAt 0 (strandOf onStrand 0) 0) = false ∧ (strandOf onStrand 0).rep = 0 ∧
      (strandOf onStrand 0).loopActive = false :=
  ⟨by decide +kernel, by unfold regsLegal; decide +kernel, by decide +kernel, onStrand_goes, lanesClean_none, by decide +kernel⟩

theorem wit_StrandControlFlow :
    strandGoes onStrand (0 : BitVec 6).toNat ∧ controlFault (strandOf onStrand 0) true = none ∧
      controlFault (strandOf onStrand 0) false = none ∧ (strandOf onStrand 0).stack = [] :=
  ⟨onStrand_goes, by decide +kernel⟩

/-- A transfer of one row of two words from cove 0 to word 0 of X memory, its parameters at word 64. -/
def moving : State :=
  let c := { strandReset with regs := [(SReg.p0, 64)] }
  { strandWith runs c with mem := [(strandBase 0 + 128 + 6, 2), (strandBase 0 + 128 + 8, 1), (strandBase 0 + 128 + 14, 1)] }
/-- That transfer queued. -/
def queued : StrandXfer := ⟨false, [(cove, 0)], 2, strandWord 0 4 0, 0, 1⟩
def moved : State := strandWith runs { strandReset with dq := [queued] }

theorem wit_StrandTransfersAndHalts :
    (strandGoes moving (0 : BitVec 6).toNat ∧ controlFault (strandOf moving 0) false = none ∧ (strandOf moving 0).dq.length < 4 ∧
      dmaMay moving 0 false 0 0 4) ∧
    ((strandOf moved 0).dq = [queued] ∧ (∃ m, m < 8 ∧ queued.base = strandWord 0 m 0) ∧ (strandOf moved 0).wait = .none ∧
      (∀ b, cove ≤ b → b < cove + 4 → regionOf b = .cove 0 ∧ poisonAt moved b = false ∧
        accessReady moved b = true) ∧ ∀ i, i < 2 → poisonAt moved (xferWord queued 0 i) = false) ∧
    strandGoes onStrand (0 : BitVec 6).toNat ∧ (strandOf onStrand 0).op = some runs.id ∧ findOp onStrand runs.id = some runs ∧
      runCores runs = [0] := by
  refine ⟨⟨by unfold strandGoes; decide +kernel, by decide +kernel, by decide +kernel, ?_⟩, ⟨by decide +kernel, ⟨4, by decide +kernel⟩,
    by decide +kernel, forRange (by decide +kernel), by decide +kernel⟩, onStrand_goes, by decide +kernel⟩
  refine first3 (by decide +kernel) ⟨runs.id, runs, by decide +kernel, by decide +kernel, fun r hr => ?_⟩
  obtain rfl : r = 0 := by have : (strandParams moving 0 (agVal (strandOf moving 0).agOld (strandOf moving 0) (SReg.p0 + 0)).toNat).rows = 1 := by
                             decide +kernel
                           omega
  exact first3 (by decide +kernel) (forRange (by decide +kernel))

/-- The RUN and a STOP of its core; the RUN alone, not begun; core 0 with an enabled interrupt. -/
def stopping : State := { onStrand with ops := [runs, stops], nextOp := 2 }
def notBegun : Op := { running 0x40 (descOf 0 [(0, 0x40), (40, 0x40), (160, 1)]) [] with phase := .waiting }
def alerted : State := strandWith runs { strandReset with regs := [(SReg.st, 0x280), (SReg.ipend, 2)] }

theorem wit_StrandRunsStopAndInterrupt :
    (opRuns (withOp notBegun) notBegun.id notBegun (begins (withOp notBegun) notBegun) 0x40 strandFields ∧
      runBlocked (withOp notBegun) notBegun = false ∧ (∀ m, (strandOf (withOp notBegun) m).op ≠ some notBegun.id) ∧
      param notBegun 189 1 = 0) ∧
    (opRuns stopping stops.id stops stops 0x41 strandFields ∧ OpsDistinct stopping ∧ runs.queue = stops.queue ∧
      0 ∈ runCores stops ∧ (strandOf stopping 0).op = some runs.id) ∧
    ((strandOf alerted 0).running = true ∧ stBit (strandOf alerted 0) 7 = true ∧ stBit (strandOf alerted 0) 9 = true ∧
      (sreg (strandOf alerted 0) SReg.ipend).getLsbD 1 = true ∧ (strandOf alerted 0).delay = 0 ∧ (strandOf alerted 0).rep = 0 ∧
      (strandOf alerted 0).wait = .none) ∧ platformAgent live .tmc = true :=
  ⟨⟨opRuns_begins (by decide +kernel), by decide +kernel, fun _ => by show (none : Option Nat) ≠ _; decide +kernel, by decide +kernel⟩,
    ⟨opRuns_running (by decide +kernel), by unfold OpsDistinct; decide +kernel, by decide +kernel⟩,
    by decide +kernel⟩

/- Video codec units -/

/-- A set-up block of a decode context: 64 by 64 samples of 8 bits, one reference, two buffers. -/
def block : List Byte := [1, 8, 0, 1, 64, 0, 64, 0, 2] ++ List.replicate 119 0
def block_at (s : State) : State := { s with mem := ((List.range 9).zip block).filterMap (fun e => if e.2 = 0 then none else some (cove + e.1, e.2)) }
def configuring : Op := running 0x44 (descOf 0 (caps 2 ++ [(0, 0x50)])) [piece 0 128, piece 0x10000 0x8000]
/-- Stream context 0 set up so. -/
def withVideo (o : Op) : State := { withOp o with vctxs := [(0, { vctxReset with configured := true, setup := block, refArea := piece 0x10000 0x8000 })] }
def flushing : Op := running 0x44 (descOf 0 [(0, 0x53)]) []
def asking : Op := running 0x44 (descOf 0 [(0, 0x54)]) []
def decoding : Op :=
  { running 0x44 (descOf 0 (caps 3 ++ [(0, 0x52), (40, 0x44), (208, 2), (224, 1)])) [piece 0 16, piece 0x1000 0x2000, piece 0x8000 32] with
    phase := .waiting }
/-- An encode context. -/
def encoder : List Byte := [0, 8, 0, 1, 64, 0, 64, 0, 2] ++ List.replicate 119 0
def asked : State := { withOp asking with vctxs := [(0, { vctxReset with configured := true, setup := encoder })] }
/-- The decode listed and ready for pipe 2. -/
def listed : Op := { decoding with listed := true }

theorem vidMay_of {s : State} {r : Op} {slot : Nat} {kinds : BitVec 5} {write : Bool} {a n : Nat}
    (h : (List.range n).all (fun i => bytePasses s r .vcu slot kinds write (a + i)) = true) : vidMay s r slot kinds write a n :=
  fun x h1 h2 => let p := bytes_pass h x h1 h2; ⟨p.1, p.2.2⟩

theorem wit_VideoContextsAndPicturesBegin :
    (let s := block_at (withOp configuring)
     opRuns s configuring.id configuring configuring 0x50 vcuFields ∧ vidBefore s configuring = false ∧ (vctxOf s 0).freed = [] ∧
      vidFits s configuring 0 vRead 128 ∧ vidMay s configuring 0 kRead false (slotLa configuring 0) 128 ∧
      clean s (slotLa configuring 0) 128 ∧ setupFault (memBytes s (slotLa configuring 0) 128) = none ∧
      vPool (memBytes s (slotLa configuring 0) 128) = false ∧ slotKind configuring.desc 2 = 0 ∧
      vidFits s configuring 1 (rLD ||| rST ||| rDMA ||| rVID)
        (vBufs (memBytes s (slotLa configuring 0) 128) * vBufSize (memBytes s (slotLa configuring 0) 128))) ∧
    (opRuns (withVideo flushing) flushing.id flushing flushing 0x53 vcuFields ∧ vidBefore (withVideo flushing) flushing = false ∧
      slotKind flushing.desc 1 = 0) ∧
    (opRuns asked asking.id asking asking 0x54 vcuFields ∧ vDecode encoder = false) ∧
    (findOp (withVideo decoding) decoding.id = some decoding ∧ decoding.listed = false ∧ readyToBegin (withVideo decoding) decoding = true ∧
      vidEarlier (withVideo decoding) decoding = false ∧ (vidWaiting (withVideo decoding) 0).length < 8) ∧
    (let s := withVideo listed
     let r := begins s listed
     opRuns s listed.id listed r 0x52 vcuFields ∧ pipeTakes s 2 = some listed ∧ takesBuffer s r (vctxOf s 0) 0 ∧ s.pipes = [] ∧
      vDecode (vctxOf s 0).setup = true ∧ vidFits s r 0 vRead (vidLength listed) ∧
      vidFits s r 1 vWrite (vidStride listed * vHeight (vctxOf s 0).setup) ∧ vidFits s r 2 vWrite 32 ∧
      vidMay s r 0 kRead false (slotLa r 0) (vidLength listed)) := by
  refine ⟨⟨opRuns_running (by decide +kernel), by decide +kernel, by decide +kernel, by unfold vidFits; decide +kernel,
      vidMay_of (by decide +kernel), forRange (by decide +kernel), first3 (by decide +kernel) (by unfold vidFits; decide +kernel)⟩,
    ⟨opRuns_running (by decide +kernel), by decide +kernel⟩, ⟨opRuns_running (by decide +kernel), by decide +kernel⟩,
    by decide +kernel,
    ⟨opRuns_begins (by decide +kernel), by decide +kernel, ?_, by decide +kernel, by decide +kernel, by unfold vidFits; decide +kernel,
      by unfold vidFits; decide +kernel, by unfold vidFits; decide +kernel, vidMay_of (by decide +kernel)⟩⟩
  unfold takesBuffer
  rw [if_neg (by decide +kernel)]
  decide +kernel

/-- A picture of `decoding` on pipe 2, its watchdog due; one of an encode on pipe 0. -/
def picture (o : Op) : VidPic := ⟨o.id, 0, 0, 0, 0, [0], [], false, 0, false, [], [], 0, none⟩
def decodeRuns : State := { withVideo { decoding with phase := .running } with pipes := [(2, ⟨some (picture decoding), none, []⟩)] }
def encoding : Op := running 0x44 (descOf 0 (caps 2 ++ [(0, 0x51), (208, 2)])) [piece 0 0x2000, piece 0x4000 0x1000]
def encodeRuns : State :=
  { withOp encoding with
    vctxs := [(0, { vctxReset with configured := true, setup := encoder })], pipes := [(0, ⟨some (picture encoding), none, []⟩)] }

/-- A decode on pipe 2 that has waited for its access unit past its deadline; the VCU in its reset. -/
def decodeStarts : State :=
  { withVideo { decoding with phase := .running } with
    tbc := 0x7FFFFFFFFFFF, pipes := [(2, ⟨none, some ⟨decoding.id, 0, 0, false, 0, false⟩, []⟩)] }
def vcuResets : State := { live with resetting := [(0x44, true)] }

theorem wit_VideoPicturesProceedAndEnd :
    ((pipeOf decodeStarts (2 + (0 : BitVec 1).toNat)).pic = none ∧
      (pipeOf decodeStarts 2).starting = some ⟨decoding.id, 0, 0, false, 0, false⟩ ∧ fenced decodeStarts = false ∧
      reached decodeStarts (vidDeadline 0 (vctxOf decodeStarts 0).setup) = true ∧ (pipeOf vcuResets (0 : BitVec 2).toNat).pic = none ∧
      sget markDflt vcuResets.resetting 0x44 = true) ∧
    ((pipeOf encodeRuns (0 : BitVec 1).toNat).pic = some (picture encoding) ∧ findOp encodeRuns (picture encoding).op = some encoding ∧
      fenced encodeRuns = false ∧ (picture encoding).rows.length < vRows encoder) ∧
    ((pipeOf decodeRuns (2 + (0 : BitVec 1).toNat)).pic = some (picture decoding) ∧ (picture decoding).expired = none ∧
      (picture decoding).watchdog.toNat ≤ decodeRuns.tbc.toNat ∧ fenced decodeRuns = false) ∧
    (picture encoding).ctx = vidCtx encoding ∧ pipesLive encodeRuns 0 encoding.id ∧ encoding.phase = .running := by
  refine first4 (by decide +kernel) ⟨fun q x h1 h2 h3 => ?_, by decide +kernel⟩
  match q with
  | 0 => exact absurd rfl h2
  | 1 => exact absurd ((show (pipeOf encodeRuns 1).pic = none by decide +kernel).symm.trans h3) (by simp)
  | 2 => exact absurd ((show (pipeOf encodeRuns 2).pic = none by decide +kernel).symm.trans h3) (by simp)
  | 3 => exact absurd ((show (pipeOf encodeRuns 3).pic = none by decide +kernel).symm.trans h3) (by simp)

/- Stacked memory -/

/-- Trained stacks, all Normal with ALLOW 8, and the scrub on; `zeroedSegs`: segments that have been zeroed. -/
def trained (zeroedSegs : SMap Bool) : State :=
  let s := { live with hbm := { live.hbm with trained := true }, tbc := 1000000, zeroed := zeroedSegs }
  (List.range 8).foldl (fun t n => regSet t (Reg.hbmTemp n) 0x800) (regSet s Reg.hbmScrub 24)
/-- Every limit of the temperature rule is met by some reading: TH and CR as after reset. -/
theorem wit_StacksFollowTheirTemperature :
    let s := trained []
    s.tbc.toNat % 1000000 = 0 ∧ s.hbm.trained = true ∧ regGet s (Reg.hbmTempAt 0) ≠ s.tbc ∧
      regFld s Reg.hbmTherm 0 8 < regFld s Reg.hbmTherm 8 8 ∧ stackIs s 0 0 8 ∧ stackOffline s 0 = false ∧
      stackIs (regSet s (Reg.hbmTemp 0) 0x1800) 0 1 8 ∧ stackIs (regSet s (Reg.hbmTemp 0) 0x2800) 0 2 8 ∧
      sget markDflt { s with hbm := { s.hbm with held := [(0, true)] } }.hbm.held 0 = true ∧ hbmStopped s = false ∧
      platformAgent s .tmc = true ∧ 100 % 2 ^ 8 + 5 < 106 := by
  refine first4 (by decide +kernel) ⟨by unfold stackIs; decide +kernel, by decide +kernel,
    by unfold stackIs; decide +kernel, by unfold stackIs; decide +kernel, first3 (by decide +kernel) (by decide)⟩

/-- An operation that adds in cove 0. -/
def adding : Op := running 0x45 (descOf 0 (caps 2 ++ [(0, 0x63)])) [piece 0 16, piece 64 64]

def addCheck (s : State) : Verdict × State :=
  acuCheckIn s adding.bank .adder 0 (kEngine ||| kAtomic) (capHas (opSlot adding (addSlot s adding 4 cove)).cap rSYS) true cove

theorem wit_StackedMemoryKeepsItsUnits :
    (nextSegment (trained []) = some (0 : BitVec 12).toNat ∧ segmentReady (trained []) 0 = true) ∧
    (let s := trained [(0, true)]
     regionOf 0x40 = .hbm ∧ accessReady s 0x40 = true ∧ stackOffline s (stackOf s 0x40) = false ∧ poisonAt s 0x40 = false ∧
      regFld s Reg.hbmScrub 0 8 ≠ 0 ∧ hbmStopped s = false ∧ rsOneSymbol 0x00000001#30 = true ∧ rsOneSymbol 0x00100401#30 = false) ∧
    (let s := trained []
     { s with time := { s.time with refclk := false } }.hbm.onRef = true ∧ s.hbm.trained = true) ∧
    (let s := withOp adding
     findOp s adding.id = some adding ∧ adding.phase = .running ∧ adding.tenant = 0 ∧ hasTags (regionOf cove) = true ∧ fenced s = false ∧
      addFault s adding (addSlot s adding 4 cove) 4 cove = none ∧ (∃ f, addFault s adding (addSlot s adding 4 0) 4 0 = some f) ∧
      accessReady s cove = true ∧ (addCheck s).1.ok = true ∧ (addCheck s).2 = s ∧ poisonIn s cove 4 = false) :=
  first3 (by decide +kernel) (first4 (by decide +kernel) (first2 (by decide +kernel) ⟨⟨_, rfl⟩,
    by decide +kernel⟩))

/-- A link header by port 0 that acknowledges SEQ 0 and returns two credits of channel 1. -/
def header : Link := ⟨0, 0, 0, 1, 2, 0⟩

/- Collectives -/

/-- BARRIERs of a group of one and of two along x, from device 0. -/
def alone : Op := running 0x46 (descOf 0 [(0, 0x74)]) []
def pair : Op := running 0x46 (descOf 0 [(0, 0x74), (182, 1)]) []
/-- Placed as device 0 of one rack, port 0 and port 1 up. -/
def placedWith (o : Op) : State :=
  regSet (regSet (regSet { withOp o with place := some (0, 0, 0) } Reg.idPlace 0x80000000) (Reg.portStatus 0) 3) (Reg.portStatus 1) 3
/-- The member of the pair: its chain's total is awaited from the neighbour. -/
def member : CollRun := ⟨pair.id, 0, [0, 0, 0], [2, 1, 1], [0], [], 0, 0, true, 0, [], [], [], 0, false, 0, []⟩
def joinedPair : State := { placedWith pair with objects := [(0, ⟨[], some member⟩)] }

theorem wit_CollectivesBeginAndComplete :
    (opRuns (withOp alone) alone.id alone alone 0x74 collFields ∧ collMay (withOp alone) alone alone ∧ noneLost (withOp alone) ∧
      collSize alone = 1) ∧
    (opRuns (placedWith pair) pair.id pair pair 0x74 collFields ∧ collMay (placedWith pair) pair pair ∧ noneLost (placedWith pair) ∧
      collSize pair ≠ 1 ∧ placeValid (placedWith pair) = true) ∧ platformAgent live .tmc = true ∧ objBusy live 0 = false := by
  have may : ∀ (s : State) (o : Op), collSlots s o = [] → collReads s o = false → (objTenant s (collBar o) = o.tenant.toNat ∧
      objBusy s (collBar o) = false ∧ (objOf s (collBar o)).run = none ∧ (objOf s (collBar o)).latched = []) → collMay s o o := by
    intro s o h1 h2 h3
    refine ⟨h3.1, h3.2.1, h3.2.2.1, ?_, ?_, ?_⟩
    · rw [h3.2.2.2]; intro _ h; cases h
    · rw [h1]; intro _ h; cases h
    · rw [h2]; intro h; cases h
  exact ⟨⟨opRuns_running (by decide +kernel), may _ _ (by decide +kernel) (by decide +kernel) (by decide +kernel),
      by unfold noneLost; decide +kernel, by decide +kernel⟩,
    ⟨opRuns_running (by decide +kernel), may _ _ (by decide +kernel) (by decide +kernel) (by decide +kernel),
      by unfold noneLost; decide +kernel, by decide +kernel⟩, by decide +kernel⟩

theorem wit_CollectiveMessagesReachTheirMember :
    inOrder (placedWith pair) header ∧ inOrder joinedPair header ∧ (objOf (placedWith pair) 0).run = none ∧
      memberRuns joinedPair 0 pair.id pair member 0x74 ∧ portDir 0 = 2 * member.dim ∧
      member.sent = true ∧ 1 < member.ext.getD member.dim 1 ∧ (∀ d, member.dim < d → d < 3 → member.ext.getD d 1 = 1) ∧ member.inbox = [] ∧ member.back = 0 ∧
      portDir header.port.toNat ∈ runDirs member ∧ pair.tenant.toNat = objTenant joinedPair 0 ∧ 1 ∉ runDirs member ∧
      portFenced joinedPair 2 = false := by
  refine ⟨by unfold inOrder; decide +kernel, by unfold inOrder; decide +kernel, by decide +kernel, first3 (by decide +kernel) ⟨opRuns_running (by decide +kernel), rfl, by decide +kernel, by unfold noneLost; decide +kernel⟩, by decide +kernel, rfl, by decide +kernel, fun d h1 h2 => ?_, rfl, rfl, by decide +kernel⟩
  have : 0 < d := h1
  obtain rfl | rfl : d = 1 ∨ d = 2 := by omega
  · rfl
  · rfl

/- Ingest and change sets -/

/-- `rings` with one descriptor on SQ 0: a NOP for the host port, or an opcode that is not defined. -/
def entered (opcode : Byte) : State :=
  { rings with
    hostMem := (if opcode = 0 then [] else [(0, opcode)]) ++ [(5, 0xFF)]
    funcs := [(0, { fnOf rings 0 with tails := [(0, 1)] })] }

theorem wit_DescriptorsAreIngestedAndEnded :
    OpsDistinct (entered 0) ∧ mayFetch (entered 0) 0 0 = true ∧ noneWaits (entered 0) 0 0 ∧ 1 ≤ ringAvail (entered 0) 0 0 ∧
      hdrExt (hostBytes (entered 0) (ringAt (entered 0) 0 0 0) 128) + 1 = 1 ∧
      hostPortAccess (entered 0) false (ringAt (entered 0) 0 0 0) 128 = (true, entered 0) ∧ mayTake (entered 0) 0 0 ∧
      headerFault (chainAt (entered 0) 0 0 1) 0 (some (sqSize (entered 0) 0 0)) none = none ∧
      opcodePermitted 0 (hdr (chainAt (entered 0) 0 0 1) 0 8) = true ∧ hdr (chainAt (entered 0) 0 0 1) 10 1 = 0 ∧
      headerFault (chainAt (entered 0xEE) 0 0 1) 0 (some (sqSize (entered 0xEE) 0 0)) none = some 0 ∧
      pfAgent live .tmc = true ∧ pfAgent live (.ring 0) = false ∧ inReset live = false ∧ fetchWaits (entered 0) 0 0 = false ∧
      linkPaused live = false ∧ linkPaused { live with power := { live.power with pcieBy := some 0 } } = true := by
  refine ⟨by unfold OpsDistinct; decide +kernel, by decide +kernel, ?_, first3 (by decide +kernel) ⟨Or.inr (by decide +kernel), by decide +kernel⟩⟩
  intro o h
  rw [show (entered 0).ops = [] from rfl] at h
  cases h

/-- A change set of one entry, rule 2 all zeros; the set in progress, ready to be prepared, and its switch. -/
def changing : Op := running 0xFF (descOf 0 (caps 1 ++ [(0, 8)])) [piece 0 64]
def changes : State := { withOp changing with mem := bytesIn [(0, 1), (32, 1), (34, 2)] }
def set1 (prepared : Bool) : ChangeSet :=
  ⟨changing.id, [⟨1, 2, List.replicate 24 0⟩], 0, 0, some 5, prepared, if prepared then some 0 else none⟩
def inProgress (prepared : Bool) (t : W64) : State := { changes with changeSet := some (set1 prepared), tbc := t }

theorem wit_ChangeSetsSwitchWholeOrNotAtAll :
    (opRuns changes changing.id changing changing 8 hostFields ∧ changes.changeSet = none ∧
      (∀ x ∈ changes.ops, x.opcode = 8 → x.phase ≠ .done → changing.id ≤ x.id) ∧ slotFits changes changing 0 false 64 ∧
      rangePasses changes changing .changeSet 0 false (slotLa changing 0) 64 ∧ numIn changes (slotLa changing 0) 2 = 1 ∧
      numIn changes (slotLa changing 0 + 2) 6 = 0 ∧ numIn changes (slotLa changing 0 + 16) 16 = 0 ∧
      entryOk changes (setEntries changes (slotLa changing 0) 1) (setRaws changes (slotLa changing 0) 1) 0 = true) ∧
    setSound (set1 false) ∧ csFree (inProgress false 0) (set1 false) = true ∧ csMaySwitch (inProgress true 0) (set1 true) = true ∧
      fenced (inProgress true 0) = false ∧ findOp (inProgress true 0) changing.id = some changing ∧ noCoreWaits (inProgress true 0) ∧
      ((set1 true).due = some 5 ∧ passed (inProgress true 9) 5 = true) ∧
      csMaySwitch (inProgress true 9) { set1 true with due := none } = true := by
  refine ⟨⟨opRuns_running (by decide +kernel), rfl, by decide +kernel, slotFits_of (by decide +kernel), rangePasses_of (by decide +kernel),
    by decide +kernel⟩, by unfold setSound; decide +kernel, first4 (by decide +kernel) ⟨?_, by decide +kernel⟩⟩
  intro n
  show (coreDefault n).remote = none
  unfold coreDefault
  split <;> rfl

/- The fabric -/

/-- A READ of device 1 for this device, and what a port with it waiting holds. -/
def ask : Msg := ⟨1, 0, 0, 1, 0, 0x40, false, false, 0, 0, 0, 8, []⟩
def carryingWith (n : Nat) : State :=
  { placedWith alone with ports := [(0, { portReset with queue := [(0, [ask])], replay := [(0, 0, ask), (1, 0, ask)], replays := [n, n] })] }
def carrying : State := carryingWith 0
/-- The same port retraining. -/
def down : State := regSet carrying (Reg.portStatus 0) 0x83
/-- A plan of two devices, with port 4 of this one to port 6 of device 1, which has trained. -/
def planned : State :=
  regSet { placedWith alone with plan := some ⟨1, some 0, [(0, none), (1, none)], [((0, 4), (1, 6))], []⟩ } (Reg.portStatus 4) 2

theorem no_core_waits {s : State} (h : s.cores = []) : noCoreWaits s := by
  intro n
  unfold coreOf
  rw [h]
  show (coreDefault n).remote = none
  unfold coreDefault
  split <;> rfl

/-- What port 0 is once the header has been taken. -/
def released (n : Nat) : Port := { portOf (carryingWith n) 0 with replay := [(1, 0, ask)], replays := [n] }

theorem header_taken (n : Nat) : LinkTaken (portOf (carryingWith n) 0) (released n) header :=
  ⟨Or.inr ⟨[], (0, 0, ask), rfl, rfl, by simp⟩, rfl, fun c => by
    show creditDflt c = if c = 1 ∧ c ≤ 4 then min (creditDflt c) (creditDflt c + 2) else creditDflt c
    split <;> omega⟩

theorem wit_PortsCarryTrainAndFence :
    (portCarries carrying 0 = true ∧ sget (fun _ => []) (portOf carrying 0).queue (0 : BitVec 3).toNat = ask :: [] ∧
      sget creditDflt (portOf carrying 0).credits 0 ≠ 0 ∧ portLinked carrying 0 = true ∧ retraining carrying 0 = false ∧
      header.port = 0 ∧ LinkTaken (portOf carrying 0) (released 0) header ∧ LinkTaken (portOf (carryingWith 7) 0) (released 7) header ∧
      portLinked (carryingWith 7) 0 = true ∧ retraining (carryingWith 7) 0 = false ∧ portUp (carryingWith 7) 0 = true ∧
      (released 0).replay ≠ [] ∧ (∀ n ∈ (released 0).replays, n + 1 < 8) ∧ (∃ n ∈ (released 7).replays, 8 ≤ n + 1) ∧
      portUp carrying 0 = true ∧ (portOf carrying 0).moving = false ∧ (∀ n ∈ (portOf carrying 0).replays, n = 0) ∧
      fenced carrying = false ∧ phyStopped carrying = false ∧ spareLane carrying 0 < 5) ∧
    (portUp down 0 = true ∧ retraining down 0 = true ∧ down.fabClk = true ∧ phyStopped down = false ∧ fenced down = false ∧
      (portOf down 0).subst = none ∧ noCoreWaits down ∧ regBit down (Reg.portCtrl 0) 0 = false ∧ platformAgent down .tmc = true) ∧
    ({ down with fabClk := false }.fabClk = false ∧ portState planned 4 = 2 ∧ planned.fabClk = true ∧ myNumber planned = some 0 ∧ placeNumber 0 0 1 = 1 ∧
      (planned.plan.bind (fun pl => planFar pl 0 4)) = some (1, 6)) :=
  ⟨first4 (by decide +kernel) ⟨by decide +kernel, rfl, header_taken 0, header_taken 7, by decide +kernel⟩,
    first4 (by decide +kernel) (first2 (by decide +kernel) ⟨no_core_waits rfl,
      by decide +kernel⟩),
    by decide +kernel⟩

/-- Core 0 waits for the response to a load from device 1; the route to device 1 is open. -/
def loading : MemOp := ⟨.load 8 false, 4, 1, 0, 0, encodeHl (.ldd 0 4 1 0)⟩
def waiting : State :=
  let s := regSet (placedWith alone) (Reg.route 1) 0xD
  { setCore s 0 { core0Reset with remote := some 7 } with reqs := [(7, ⟨.core 0 loading, ask, 0, 0⟩), (8, ⟨.op alone.id 0, ask, 0, 0⟩)] }

theorem wit_MessagesAreForwardedPerformedAndAnswered :
    (inOrder waiting header ∧ arrivalMay waiting 0 kRead false cove 8 ∧ poisonIn waiting cove 8 = false ∧
      arrivalMay waiting 0 kWrite true cove 16 ∧ StoreTaken waiting cove 16 ∧ arrivalMay waiting 0 kAtomic true cove 8 ∧
      hasTags (regionOf cove) = true ∧ heldByOther waiting (.device 1) (deviceNo waiting * 2 ^ 54 + cove) 8 = false ∧
      holdsAll { waiting with rowHolds := [⟨.device 1, deviceNo waiting * 2 ^ 54 + cove, 16, 0⟩] } (.device 1)
        (deviceNo waiting * 2 ^ 54 + cove) 16 = true) ∧
    (inOrder carrying { header with seq := 0 } ∧ portCarries carrying 0 = true ∧ (portOf carrying 0).nakSent = false ∧
      (5 + 4095 - (portOf carrying 0).rxSeq) % 4096 = 5) ∧
    (waiting.reqs.find? (fun e => e.1 == 7) = some (7, ⟨.core 0 loading, ask, 0, 0⟩) ∧ (coreOf waiting 0).remote = some 7 ∧
      (loadOf (.ldd 0 4 1 0)).map (fun x => x.2.1) = some loading ∧ ask.type = 1 ∧
      waiting.reqs.find? (fun e => e.1 == 8) = some (8, ⟨.op alone.id 0, ask, 0, 0⟩)) ∧
    ((1 : BitVec 10).toNat ≠ deviceNo waiting ∧ ∃ dirs, routeMsg waiting 1 2 0 1 false = .port 1 0 dirs) :=
  ⟨⟨by unfold inOrder; decide +kernel, arrivalMay_of (by decide +kernel), by decide +kernel, arrivalMay_of (by decide +kernel),
      by unfold StoreTaken; decide +kernel, arrivalMay_of (by decide +kernel), by decide +kernel⟩,
    ⟨by unfold inOrder; decide +kernel, by decide +kernel⟩,
    first3 (by decide +kernel) ⟨rfl, by decide +kernel⟩, ⟨by decide +kernel, 1, by decide +kernel⟩⟩
where
  /-- The arrivals' accesses pass byte by byte. -/
  arrivalMay_of {s : State} {tenant : Byte} {kinds : BitVec 5} {write : Bool} {a n : Nat}
      (h : (List.range n).all (fun i => (match regionOf (a + i) with | .cove _ => true | _ => false) && accessReady s (a + i) &&
        decide ((acuCheck s .tideway tenant.toNat kinds false write (a + i)).2 = s) &&
        (acuCheck s .tideway tenant.toNat kinds false write (a + i)).1.ok) = true) : arrivalMay s tenant kinds write a n := by
    intro x h1 h2
    have hx := List.all_eq_true.mp h (x - a) (List.mem_range.mpr (by omega))
    rw [Nat.add_sub_cancel' h1] at hx
    simp only [Bool.and_eq_true, decide_eq_true_eq] at hx
    refine ⟨?_, hx.1.1.2, hx.1.2, hx.2⟩
    have hr := hx.1.1.1
    unfold inMemory
    split at hr <;> simp_all

/-- Aligned, locked and master; the same without a path; the plan's master is device 1. -/
def timed (status : Nat) (f : TimeBase → TimeBase) : State :=
  let s := regSet (placedWith alone) Reg.tbStatus (BitVec.ofNat 64 status)
  { s with tbc := 250000, time := f { s.time with refclk := true } }

theorem wit_TimeBaseAlignsAndHoldsOver :
    (let s := timed 7 (fun x => { x with aligned1 := true, candidate := some 0 })
     s.tbc.toNat % 125000 = 0 ∧ alignEn s = true ∧ fenced s = false ∧ isMaster s = true ∧ placeValid s = true ∧ alignedNow s = true ∧
      (0 : BitVec 10).toNat = deviceNo s) ∧
    (let s := timed 3 (fun x => { x with aligned1 := true, candidate := some 1 })
     offsetIs s 240000 10000 10000 ∧ header.port = 0 ∧ isMaster s = false ∧ choiceFalls s = false ∧ portLinked s 0 = true ∧ retraining s 0 = false ∧ tbLocked s = true ∧ tbHoldover s = false ∧
      ((List.range 12).all (fun q => q == 0 || !hasPath s q)) = true ∧ pfAgent s .tmc = true) ∧
    (let s := { timed 1 id with plan := some ⟨1, some 1, [(0, none), (1, none)], [], []⟩ }
     s.plan.bind (fun pl => pl.master) = some (1 : BitVec 10).toNat ∧ myNumber s = some 0 ∧ isMaster s = false ∧ s.time.aligned1 = false) ∧
    tbHoldover (timed 9 id) = true ∧ placeValid live = false :=
  ⟨by decide +kernel,
    ⟨by unfold offsetIs; decide +kernel, rfl, by decide +kernel⟩,
    by decide +kernel⟩

/- Power, trays, the rack manager -/

/-- At a governor step; in a dip of rail 1; with rail 1 failed. -/
def stepped : State := { live with tbc := 1000000 }
def dipping : State := { stepped with power := { stepped.power with dips := [(1, some ⟨0, 700, false⟩)] } }
def failed : State := { stepped with power := { stepped.power with failed := [1] } }

/-- The same at another code, and held by the TMC. -/
def atCode (c : Nat) (held : Bool) : State :=
  { failed with power := { failed.power with vcore := c }, boot := { failed.boot with tmcHold := held } }

theorem wit_PowerIsGovernedAndProtected :
    (stepped.boot.powered = true ∧ fenced stepped = false ∧ suStep stepped ≠ 15 ∧ stepped.power.vcoreAt = none ∧
      platformAgent stepped .tmc = true ∧ (0x140#32 &&& 0xFFFFFE0E = 0) ∧ inReset stepped = false ∧ stepped.tbc.toNat % 10000 = 0 ∧
      stepped.power.govAt ≠ some stepped.tbc ∧ powerWaiting stepped = false ∧ stepped.power.waitSince = none ∧
      stepped.power.holdOver = false ∧ waitSettled stepped ∧ regFld stepped Reg.pwrStatus 8 2 ≠ 2) ∧
    (stepped.power.tjAt ≠ some stepped.tbc ∧ stepped.boot.thermtripN = false ∧ dipOf stepped 1 = none ∧ belowWarning stepped 1 0 = true ∧
      belowFail 1 0 = true ∧ stepped.class5 = [] ∧ regGet stepped Reg.pwrStatus < 0x400 ∧ stepped.power.canaryAt = none ∧
      stepped.power.sampledAt + 24 * hourTbc ≤ onTimeNow { stepped with power := { stepped.power with onTime := 24 * hourTbc } }) ∧
    (dipOf dipping 1 = some ⟨0, 700, false⟩ ∧ 20000 ≤ elapsed dipping 0 ∧ inReset dipping = false) ∧
    (failed.power.failed ≠ [] ∧ failed.boot.perst = false ∧ failed.boot.tmcHold = false ∧ failed.boot.held = false ∧
      failed.boot.pwrgd = true ∧ failed.boot.powered = true ∧ failed.power.vcore = 20) ∧
    (atCode 30 false).power.vcore ≠ 20 ∧ (atCode 20 true).boot.tmcHold = true ∧
    (let s := { atCode 21 false with power := { (atCode 21 false).power with failed := [] }
                                     boot := { (atCode 21 false).boot with settling := true } }
     fenced s = false ∧ pinsHold s = false ∧ wantsCode s (regFld s Reg.pwrPolicy 4 4) = 20 ∧ s.power.vcoreAt = none) :=
  ⟨first4 (by decide +kernel) (first4 (by decide +kernel) (first4 (by decide +kernel) ⟨by unfold waitSettled; decide +kernel,
      by decide +kernel⟩)),
    by decide +kernel⟩

/-- Tray 1 in this state, the rack manager running. -/
def withTray (x : Tray) : State := { live with system := { live.system with trays := [(1, x)], rack := { rackReset with state := 0 } } }
def running1 : Tray := { trayReset with state := 3, onCell := false, up := true, devOn := 0xF, acked := true }
def standby : Tray := { running1 with state := 2, devOn := 0 }

/-- Tray 1 next to be powered: the first tray, powered at the first measurement, has had its wait. -/
def powering : State :=
  { withTray standby with system := { (withTray standby).system with
      rack := { rackReset with state := 3, ticks := 3, poweredAt := some 0 }, trays := [(0, running1), (1, standby)] } }

theorem wit_TraysWatchFenceAndPower :
    (tmcRuns (withTray running1) 1 = true ∧ notLast (withTray running1) 1 ∧ (trayOf (withTray running1) 1).devOn ≠ 0 ∧
      (trayOf (withTray running1) 1).fencing = false ∧ (trayOf (withTray running1) 1).silent = false) ∧
    (tmcRuns (withTray standby) 1 = true ∧ (trayOf (withTray standby) 1).onCell = false ∧ (trayOf (withTray standby) 1).devOn = 0) ∧
    (let s := withTray { standby with state := 1, onCell := true, slotOn := true }
     tmcRuns s 1 = true ∧ (trayOf s 1).slotOn = true ∧ (trayOf s 1).onCell = true) ∧
    (let s := { withTray { running1 with fencing := true } with system :=
       { (withTray { running1 with fencing := true }).system with rack := { rackReset with fenced := 0xFFFFFFFD } } }
     (trayOf s 1).fencing = true ∧ ¬ notLast s 1 ∧ ∀ u, u < 32 → u ≠ 1 → (trayOf s u).fencing = false) ∧
    (trayOf live 1).state = 0 ∧
    ((rackOf powering).state = 3 ∧ tmcRuns powering 1 = true ∧ (trayOf powering 0).devOn ≠ 0 ∧
      0 + powerWait (rackOf powering) ≤ (rackOf powering).ticks) :=
  ⟨⟨by decide +kernel, by unfold notLast; decide +kernel, by decide +kernel⟩,
    by decide +kernel, by decide +kernel,
    ⟨by decide +kernel, by unfold notLast; decide +kernel, by decide +kernel⟩, by decide +kernel⟩

/-- The rack manager in this state, with an empty plan of one rack. -/
def rackIn (state : Nat) : State :=
  { live with system := { live.system with rack := { rackReset with
      state := state, plan := some ([], ⟨1, none, [], [], []⟩), laneDone := some ([], []), period := 168, ticks := 60000 } } }

theorem wit_TheRackManagerServesAndVerifies :
    (rackBusy (rackIn 0) = false ∧ (rackOf (rackIn 0)).state = 0 ∧ (rackOf (rackIn 1)).state = 1 ∧ (rackIn 1).ops = [] ∧
      (rackOf (rackIn 1)).drainFrom + 100 * ((rackOf (rackIn 1)).drain.toNat % 4096) ≤ (rackOf (rackIn 1)).ticks ∧
      24 * ((rackOf (rackIn 0)).wiring.toNat % 256) ≤ (rackOf (rackIn 0)).period ∧
      (rackOf (rackIn 2)).state = 2 ∧ (rackOf (rackIn 2)).plan ≠ none ∧ (rackOf (rackIn 3)).state = 3 ∧
      (rackOf (rackIn 3)).laneDone = some ([], []) ∧ cellsOff (rackIn 3)) ∧
    ((trayOf (withTray running1) 1).state ≠ 0 ∧ (trayOf (withTray running1) 1).fencing = false ∧
      (trayOf (withTray running1) 1).onCell = false ∧ rackBusy (withTray running1) = false) :=
  ⟨first4 (by decide +kernel) (first4 (by decide +kernel) (first2 (by decide +kernel) (by unfold cellsOff; decide +kernel))),
    by decide +kernel⟩

/- Start-up and management -/

/-- Held by PERST_N; with PWRGD low; a firmware request waiting; a returned record nearly complete. -/
def inPerst : State := { State.reset with boot := { State.reset.boot with perst := true } }
def booting : State := { State.reset with boot := { State.reset.boot with zeroed := true } }
def requested : State := { live with boot := { live.boot with request := some ⟨4, false, 0, false⟩ } }
/-- Copy 0 of the boot record is valid with GEN 0; copy 1 is not. -/
def recordBytes : List Byte := List.replicate 28 0 ++ toBytes 4 (crc32 (List.replicate 28 0)).toNat
def recorded : Mem := (List.range 32).map (fun i => (i, recordBytes.getD i 0)) ++ (List.range 32).map (fun i => (0x1000 + i, 0))
/-- The chosen slot's image is about to be loaded, and about to be verified. -/
def loads (step : BitVec 64) : State :=
  regSet { booting with flash := recorded, boot := { booting.boot with chosen := true }, hbm := { booting.hbm with trained := true } } Reg.suStatus step

theorem wit_TheDeviceStartsAndIsFenced :
    (live.boot.perst = false ∧ inReset live = false ∧ live.boot.pwrgd = true ∧ live.boot.powered = true ∧ live.time.refclk = true) ∧
    (inPerst.boot.perst = true ∧ inPerst.power.failed = [] ∧ inPerst.boot.kind < 4 ∧ inPerst.boot.pwrgd = true) ∧
    (inReset State.reset = false ∧ State.reset.boot.zeroed = false ∧ State.reset.hbm.trained = false ∧ booting.boot.zeroed = true ∧
      booting.boot.chosen = false ∧ suStep booting ≠ 15) ∧
    (ringZero live (.ring 0) = true ∧ fwCommand (.ring 0) (.raiseSvn (.ring 0)) = some (4, false, 0) ∧ live.boot.request = none ∧
      requested.boot.request = some ⟨4, false, 0, false⟩ ∧ fenced requested = false) ∧
    (inReset (loads 0x1042) = false ∧ fenced (loads 0x1042) = false ∧ suStep (loads 0x1042) = 2 ∧ suStep (loads 0x1043) = 3 ∧
      (bootRec (loads 0x1042)).gen + 2 < 2 ^ 32) ∧
    (platformAgent live .tmc = true ∧ mayRecord5 live ∧ live.importBuf.length < 15 ∧ (regGet live Reg.errSeq).toNat < 2 ^ 32 ∧
      sget (fun _ => 0) { live with tbc := 1000000000, corrections := [(9, 300)] }.corrections (corrKey (1000000000 / 1000000000 - 1) 9) = 300) :=
  first4 (by decide +kernel) ⟨by decide +kernel, ⟨by decide +kernel, by unfold mayRecord5; decide +kernel, by decide +kernel⟩⟩

/-- Held by PERST_N at another code of VCORE, and by the TMC too. -/
def slewing (c : Nat) (held : Bool) : State :=
  { inPerst with power := { inPerst.power with vcore := c }, boot := { inPerst.boot with tmcHold := held } }
/-- A kept record, and its return but for the last word. -/
def kept : List Byte := List.replicate 124 0 ++ toBytes 4 0x15D70E0C
def importing (n : Nat) : State :=
  { live with importBuf := (List.range n).map (fun i => BitVec.ofNat 64 (numAt kept (8 * i) 8))
              system := { live.system with records := [kept], toReturn := 1 } }

/-- 31 zero bytes take the CRC register from each of these values to the next. -/
theorem crc_zeros :
    (List.replicate 31 (0 : Byte)).foldl crcByte 0xFFFFFFFF#32 = 0x96F6534F#32 ∧
      (List.replicate 31 (0 : Byte)).foldl crcByte 0x96F6534F#32 = 0xE29B589E#32 ∧
      (List.replicate 31 (0 : Byte)).foldl crcByte 0xE29B589E#32 = 0x1351D28F#32 ∧
      (List.replicate 31 (0 : Byte)).foldl crcByte 0x1351D28F#32 = 0xEA28F1F3#32 :=
  ⟨by decide +kernel, by decide +kernel, by decide +kernel, by decide +kernel⟩

theorem kept_crc : numAt kept 124 4 = (crc32 (kept.take 124)).toNat := by
  rw [show kept.take 124 = List.replicate 31 0 ++ (List.replicate 31 0 ++ (List.replicate 31 0 ++ List.replicate 31 0)) from rfl]
  obtain ⟨h1, h2, h3, h4⟩ := crc_zeros
  unfold crc32
  rw [List.foldl_append, List.foldl_append, List.foldl_append, h1, h2, h3, h4]
  decide +kernel

theorem wit_ResetsAndReturnedRecords :
    ((slewing 20 false).power.vcore = 20 ∧ (slewing 30 false).power.vcore ≠ 20 ∧ (slewing 30 false).coresReleased = false ∧
      (slewing 20 false).boot.powered = true ∧ (slewing 20 true).boot.tmcHold = true ∧ (slewing 20 true).boot.perst = true) ∧
    (let s := { slewing 20 true with boot := { (slewing 20 true).boot with perst := false } }
     s.boot.powered = true ∧ s.boot.tmcHold = true ∧ s.boot.held = false ∧ s.power.failed = [] ∧ s.boot.kind < 4 ∧ inReset s = true) ∧
    ((importing 15).system.records[(importing 15).system.returned]? = some kept ∧ (importing 15).system.toReturn ≠ 0 ∧
      (importing 15).importBuf.length = 15 ∧ importBytes (importing 15) (BitVec.ofNat 64 (numAt kept 120 8)) = kept ∧
      importBytes (importing 15) 1 ≠ kept ∧ inReset (importing 15) = false ∧ regBit (importing 15) Reg.suStatus 4 = false ∧ (importing 3).importBuf.length < 15 ∧
      live.system.toReturn = 0) :=
  by decide +kernel

/-- Gather engine 1 fetches a fragment for the walk of cove 0; core 0 holds lines of cove 0, the second one written. -/
def serving : State :=
  { withOp walking with walks := [(0, { walkNone with op := walking.id, entries := [(0, 1)] })] }
def caching (dirty : Bool) : State := withCore { core0Reset with dcache := [(cove, ⟨0, dirty⟩)] }

theorem wit_StrikesAreFound :
    runningOn (withOp gathering) (0x20 + (0 : BitVec 5).toNat) = some gathering ∧
      findOp (withOp gathering) gathering.id = some gathering ∧ walkServed serving (1 : BitVec 5).toNat = some walking ∧
      runningOn (withOp multiplying) (0 : BitVec 5).toNat = some multiplying ∧ acuBad live.acu false (0 : Byte).toNat = 0 ∧
      accessReady live cove = true ∧ poisonAt live cove = false ∧
      (∀ d, (coreOf (caching d) 0).dcache.find? (fun x => x.1 == alignDown (cove + 8) 64) = some (cove, ⟨0, d⟩)) ∧
      scPoisoned live (5 : Byte).toNat = false ∧ portUp carrying 0 = true ∧ noCoreWaits carrying :=
  first4 (by decide +kernel) (first4 (by decide +kernel) (first2 (by decide +kernel) (no_core_waits rfl)))

/-- A plan of one rack without rows, as the bus delivers it to the device at place 0.0.0. -/
def delivered : Plan := ⟨1, none, [], [], []⟩
def delivering : State :=
  { rackIn 0 with planText := ascii "vesol-plan 1\nracks 1\n", tbc := 2000000, place := some (0, 0, 0) }

theorem wit_PlansAreTaken :
    Fits delivering delivered ∧ busAcks delivering = true ∧ planLoaded delivering = false ∧
      planParse false delivering.planText = .inl delivered ∧ myNumber delivering = some 0 ∧ ¬ Fits live delivered ∧
      (regRowExact 0 Reg.fabCfg 4).isSome = true ∧ regRowExact 0 Reg.fabCfg 8 = none ∧ regTouched 0 Reg.fabCfg 8 = true ∧
      regRowExact 0 0xFFFF0 4 = none ∧ regTouched 0 0xFFFF0 4 = false ∧ inPerst.boot.powered = true ∧
      (2 : Byte) ∈ ([0, 1, 2, 4, 5] : List Byte) ∧ (3 : Byte) ∉ ([0, 1, 2, 4, 5] : List Byte) := by
  refine ⟨⟨[], delivered, rfl, ?_⟩, first4 (by decide +kernel) ⟨?_, by decide +kernel⟩⟩
  · rw [if_neg (by decide)]; exact ⟨0, by decide, by decide +kernel⟩
  · rintro ⟨_, _, h, _⟩; cases h

theorem wit_ManagementAndTestPortAnswer :
    busAcks { live with tbc := 2000000 } = true ∧ planLoaded live = false ∧ live.plan = none ∧ live.tmcHeld = [] ∧ live.boot.powered = true ∧
      (∃ n, planParse false live.planText = .inr n) ∧ { live with regAddr := (Reg.fabCfg, 4) }.regAddr = (Reg.fabCfg, 4) ∧
      (live.system.homeKnown = false ∧ live.system.rack.config.toNat % 8 = 0 ∧ live.system.rack.plan = none) ∧
      (∀ p : Plan, p.devices = [] → p.links = [] → p.unused = [] → planDelivers p p 0 = true) ∧ onBusOf true (.status true) := by
  refine first4 (by decide +kernel) ⟨by decide +kernel, ⟨?_, rfl, ⟨rfl, rfl, rfl⟩,
    fun p h1 h2 h3 => by cases p; simp_all [planDelivers], rfl⟩⟩
  cases h : planParse false live.planText with
  | inr n => exact ⟨n, rfl⟩
  | inl p =>
    have e : (planParse false live.planText).isLeft = false := by decide +kernel
    rw [h] at e
    cases e

/- The machine -/

theorem wit_EveryStepAnswersAndKeepsTheMachineSound : Sound State.reset :=
  ⟨by decide +kernel, by unfold OpsDistinct; decide +kernel, fun _ h => by cases h⟩

theorem wit_HeadlandWordsDecodeToTheirInstruction :
    (Instr.add 3 4 1 2).wellFormed = true ∧ encodeHl (.add 3 4 1 2) ≠ 0 ∧ decodeHl 3 (encodeHl (.add 3 4 1 2)) = .add 3 4 1 2 :=
  by decide +kernel

/- Single steps, with results that the spec gives -/

/-- What a step answers, looked at. -/
def after {α : Type} (o : Host.Outcome State Fault Refusal) (f : State → α) : Option α :=
  match o with
  | .next t => some (f t)
  | _ => none

theorem test_wf_port : Instr.wellFormed (.withdraw { header with port := 12 }) = false := by decide
theorem test_wf_msadd_format : Instr.wellFormed (.msadd 0 4 1 2 5) = false := by decide

/-- 05 R118: a write of G0 is discarded, and 05 R122: ADD wraps. -/
theorem test_add_g0 : after (exec (.add 0 0 2 2) atCove) (fun t => gInt (coreOf t 0) 0) = some 0 := by decide +kernel
theorem test_add_wraps :
    after (exec (.add 0 2 1 2) (withG [(1, capOfInt (-1)), (2, capOfInt 3)])) (fun t => gInt (coreOf t 0) 2) = some 2 := by decide +kernel
/-- 05 R122: SLT is signed, SLTU unsigned. -/
theorem test_slt : after (exec (.slt 0 3 1 2) (withG [(1, capOfInt (-1)), (2, capOfInt 3)])) (fun t => gInt (coreOf t 0) 3) = some 1 := by
  decide +kernel
theorem test_sltu : after (exec (.sltu 0 3 1 2) (withG [(1, capOfInt (-1)), (2, capOfInt 3)])) (fun t => gInt (coreOf t 0) 3) = some 0 := by
  decide +kernel
/-- 03 R70: an unsealed key whose cursor is 5 gives OTYPE 5. -/
theorem test_cseal :
    after (exec (.cseal 0 4 1 3) (withG [(1, root cove), (3, capMoveCursor sealingRoot 5)]))
      (fun t => ((gGet (coreOf t 0) 4).tag, capOtype (gGet (coreOf t 0) 4))) = some (true, 5) := by decide +kernel
/-- 05 R126: a store is little-endian, and the byte above the stored word stands. -/
theorem test_store_bytes :
    after (exec (.stw 0 2 1 0) (withG [(1, root cove), (2, capOfInt 0x1234)]))
      (fun t => (memByte t cove, memByte t (cove + 1), memByte t (cove + 4))) = some (0x34, 0x12, 0) := by decide +kernel
/-- 16 R434: SCINC saturates at 0xFFFF_FFFF. -/
theorem test_scinc_saturates :
    after (exec (.scinc 0 4 2 6) (regSet (withG [(2, capOfInt 5), (6, capOfInt 3)]) (Reg.scValue 5) 0xFFFFFFFE))
      (fun t => gInt (coreOf t 0) 4) = some 0xFFFFFFFF := by decide +kernel
/-- 08 R221: a product in fractional mode doubles. -/
theorem test_mpy_fraction :
    after (exec (.mpy 0 false 0 0 0 0 0) (strandWith runs { strandReset with regs := [(SReg.st, 0x40), (0x20, 3), (0x22, 5)] }))
      (fun t => (strandOf t 0).a0) = some 30 := by decide +kernel
/-- 02 R43: a stamp's ALIGNED falls 20 ms after the last time flit. -/
theorem test_holdover :
    after (exec .holdoverExpiry { timed 0xB id with tbc := 20000000 }) alignedNow = some false := by decide +kernel
/-- 21 R553: IDCODE. -/
theorem test_idcode : after (exec (.idcode 0) live) (fun t => t.out) = some [.scan 32 0xB441009F] := by decide +kernel
/-- The model's queue is first in, first out. -/
theorem test_step_takes_the_front :
    after (step { live with pending := [.tapReset, .extest 0 0] }) (fun t => t.pending) = some [.extest 0 0] := by decide +kernel
/-- 05 R121, R122: major 0x01, rd 4, rs1 1, rs2 2, func 0; and the all-zero word is illegal. -/
theorem test_decode_add : decodeHl 3 (0b000001_00100_00001_00010_00000000000#32) = .add 3 4 1 2 := by decide +kernel
theorem test_decode_zero : decodeHl 3 0 = .illegalInstruction 3 0 := by decide +kernel

end Sys2Proof.Tests
end

/-! PROOFS. Sealing and unsealing (03 R70, R71): how a bit field reads after a field is written, what a derivation
instruction leaves behind, what CSEAL and CUNSEAL make of their two operands. -/

namespace Sys2Proof.Machine

open Sys2Proof.Terms

/- Bit fields -/

/-- A field that was written reads as the value written, when the word holds all of it. -/
theorem fld_setFld_same {n w : Nat} (x : BitVec n) (lo : Nat) (v : BitVec w) (h : lo + w ≤ n) :
    fld (setFld x lo v) lo w = v := by
  unfold fld setFld
  ext i hi
  have hin : lo + i < n := by omega
  have habove : ¬ lo + i < lo := by omega
  simp only [BitVec.getElem_extractLsb', hin, BitVec.getLsbD_eq_getElem, BitVec.getElem_or, BitVec.getElem_and,
    BitVec.getElem_not, BitVec.getElem_shiftLeft, habove, decide_false, Bool.not_false, Nat.add_sub_cancel_left,
    BitVec.getElem_setWidth, hi, BitVec.getElem_allOnes, Bool.and_self, Bool.not_true, Bool.and_false, Bool.true_and,
    Bool.false_or]

/-- Writing a field leaves every field of the word that does not meet it. -/
theorem fld_setFld_disjoint {n w : Nat} (x : BitVec n) (lo : Nat) (v : BitVec w) {lo' w' : Nat} (hn : lo' + w' ≤ n)
    (h : lo' + w' ≤ lo ∨ lo + w ≤ lo') : fld (setFld x lo v) lo' w' = fld x lo' w' := by
  unfold fld setFld
  ext i hi
  have hin : lo' + i < n := by omega
  rcases h with h | h
  · have hbelow : lo' + i < lo := by omega
    simp only [BitVec.getElem_extractLsb', hin, BitVec.getLsbD_eq_getElem, BitVec.getElem_or, BitVec.getElem_and,
      BitVec.getElem_not, BitVec.getElem_shiftLeft, hbelow, decide_true, Bool.not_true, Bool.false_and, Bool.not_false,
      Bool.and_true, Bool.or_false]
  · have habove : ¬ lo' + i < lo := by omega
    have hmask : ¬ lo' + i - lo < w := by omega
    have hval : v.getLsbD (lo' + i - lo) = false := BitVec.getLsbD_of_ge _ _ (by omega)
    simp only [BitVec.getElem_extractLsb', hin, BitVec.getLsbD_eq_getElem, BitVec.getElem_or, BitVec.getElem_and,
      BitVec.getElem_not, BitVec.getElem_shiftLeft, habove, decide_false, Bool.not_false, BitVec.getElem_setWidth,
      BitVec.getLsbD_allOnes, hmask, Bool.and_false, Bool.and_true, hval, Bool.or_false]

/- Derivations -/

/-- What a command answers meets whatever follows from what it is known to meet. -/
theorem Answers.imp {i : Instr} {s : State} {P Q : State → Prop} (h : Answers i s P) (hPQ : ∀ t, P t → Q t) :
    Answers i s Q :=
  let ⟨t, hexec, hP⟩ := h
  ⟨t, hexec, hPQ t hP⟩

/-- A core whose G register `rd` was written and whose EXC moved on, as `HlWrites` says it. -/
theorem HlWrites.of_after {s t : State} {n rd : Nat} {v : Cap} (h : HlAfter s t n (advance (gSet (coreOf s n) rd v))) :
    HlWrites s t n rd v := by
  have ⟨_, _, _, hcore, _⟩ := h
  have hg : (coreOf t n).g = (gSet (coreOf s n) rd v).g := by rw [hcore]; rfl
  refine ⟨?_, fun r => ?_⟩
  · have hadv : advance (gSet (coreOf s n) rd v) = { advance (coreOf s n) with g := (coreOf t n).g } := by
      rw [hg, gSet_eq]; rfl
    rwa [← hadv]
  · calc gGet (coreOf t n) r = gGet (gSet (coreOf s n) rd v) r := by unfold gGet; rw [hg]
      _ = _ := gGet_gSet _ _ _ _

/-- A derivation whose result does not depend on the core's caches and fetch writes it to rd, moves EXC on and leaves the
rest (05 R123). -/
theorem hlDerive_writes {s : State} {k : BitVec 4} (h : HlFetches s k.toNat) (rd : BitVec 5) (word : W32) (counts : Bool)
    (f : HlCore → Cap)
    (hf : ∀ c ic ir dc, f { c with icache := ic, irecent := ir, dcache := dc, begun := false, fetched := none } = f c) :
    ∃ t, hlDerive k rd word counts f s = .next t ∧ HlWrites s t k.toNat rd.toNat (f (coreOf s k.toNat)) := by
  obtain ⟨t, ht, hafter⟩ := hlRun_computes k.isLt h word
    (fun u c => retireCore u k.toNat (gSet c rd.toNat (f c)) (if counts && !(f c).tag then [8] else []))
    (fun c => advance (gSet c rd.toNat (f c))) (fun c => if counts && !(f c).tag then [8] else [])
    (fun _ _ => rfl)
    (fun c ic ir dc => by rw [hf]; unfold gSet; split <;> rfl)
    (fun c => by rw [gSet_eq]; rfl)
  exact ⟨t, ht, .of_after hafter⟩

/-- The register that an instruction wrote, unless it is G0 (05 R118). -/
theorem HlWrites.gc_written {s t : State} {k : BitVec 4} {d : BitVec 5} {v : Cap} (h : HlWrites s t k.toNat d.toNat v)
    (hd : d ≠ 0) : gc t k d = v := by
  have hne : d.toNat ≠ 0 := fun h0 => hd (BitVec.eq_of_toNat_eq h0)
  exact (h.2 d.toNat).trans (if_pos ⟨rfl, hne⟩)

/-- CSEAL writes what R70 makes of its operands. -/
theorem cseal_answers {s : State} {k : BitVec 4} (h : HlFetches s k.toNat) (d a b : BitVec 5) :
    Answers (.cseal k d a b) s (fun t =>
      HlWrites s t k.toNat d.toNat (capSeal (gc s k a) (gc s k b) (excRing (coreOf s k.toNat)))) :=
  hlDerive_writes h d _ true (fun c => capSeal (gGet c a.toNat) (gGet c b.toNat) (excRing c)) (fun _ _ _ _ => rfl)

/-- CUNSEAL writes what R71 makes of its operands. -/
theorem cunseal_answers {s : State} {k : BitVec 4} (h : HlFetches s k.toNat) (d a b : BitVec 5) :
    Answers (.cunseal k d a b) s (fun t =>
      HlWrites s t k.toNat d.toNat (capUnseal (gc s k a) (gc s k b) (excRing (coreOf s k.toNat)))) :=
  hlDerive_writes h d _ true (fun c => capUnseal (gGet c a.toNat) (gGet c b.toNat) (excRing c)) (fun _ _ _ _ => rfl)

/- Sealing -/

/-- R57: unsealed is OTYPE 0. -/
theorem capSealed_eq_false (c : Cap) : capSealed c = false ↔ capOtype c = 0 := by
  rw [capSealed, bne_eq_false_iff_eq]

/-- R70: OTYPE is all that sealing changes in the bits. -/
theorem capSeal_bits (cs ck : Cap) (ring : BitVec 2) :
    (capSeal cs ck ring).bits = setFld cs.bits 116 (BitVec.ofNat 8 (capCursor ck).toNat) := rfl

/-- R70: when sealing keeps the tag. -/
theorem capSeal_tag_iff (cs ck : Cap) (ring : BitVec 2) :
    (capSeal cs ck ring).tag = true ↔
      cs.tag = true ∧ capOtype cs = 0 ∧ ck.tag = true ∧ capOtype ck = 0 ∧ capHas ck rSEAL = true ∧
        ring.toNat ≤ (capRing ck).toNat ∧ (capBounds ck).1 ≤ (capCursor ck).toNat ∧
        ((capCursor ck).toNat : Int) < (capBounds ck).2 ∧
        ((1 ≤ (capCursor ck).toNat ∧ (capCursor ck).toNat ≤ 223) ∨
          (240 ≤ (capCursor ck).toNat ∧ (capCursor ck).toNat ≤ 243 ∧ ring.toNat ≤ 1)) := by
  simp only [capSeal, capWithOtype, Bool.and_eq_true, Bool.or_eq_true, Bool.not_eq_true', decide_eq_true_eq,
    capSealed_eq_false, and_assoc]

/- Unsealing -/

/-- The bits of an unsealed capability: OTYPE 0, and GLOB dropped unless both operands have it. -/
theorem capUnseal_bits (cs ck : Cap) (ring : BitVec 2) :
    (capUnseal cs ck ring).bits =
      if capHas cs rGLOB && capHas ck rGLOB then setFld cs.bits 116 (0 : Byte)
      else setFld (setFld cs.bits 116 (0 : Byte)) 104 (capRights cs &&& ~~~rGLOB) := by
  have hrights : fld (setFld cs.bits 116 (0 : Byte)) 104 12 = fld cs.bits 104 12 :=
    fld_setFld_disjoint _ _ _ (by decide) (.inl (by decide))
  simp only [capUnseal, capWithOtype, capRights, hrights]
  split <;> rfl

/-- R71: the result is unsealed. -/
theorem capUnseal_otype (cs ck : Cap) (ring : BitVec 2) : capOtype (capUnseal cs ck ring) = 0 := by
  rw [capOtype, capUnseal_bits]
  split
  · exact fld_setFld_same _ _ _ (by decide)
  · rw [fld_setFld_disjoint _ _ _ (by decide) (.inr (by decide))]
    exact fld_setFld_same _ _ _ (by decide)

/-- R71: the result has GLOB only if both operands have it. -/
theorem capUnseal_glob (cs ck : Cap) (ring : BitVec 2) :
    capHas (capUnseal cs ck ring) rGLOB = (capHas cs rGLOB && capHas ck rGLOB) := by
  have hrights : capRights (capUnseal cs ck ring) =
      if capHas cs rGLOB && capHas ck rGLOB then capRights cs else capRights cs &&& ~~~rGLOB := by
    rw [capRights, capUnseal_bits]
    split
    · exact fld_setFld_disjoint _ _ _ (by decide) (.inl (by decide))
    · exact fld_setFld_same _ _ _ (by decide)
  rw [capHas, hrights]
  split
  · next hboth =>
    rw [hboth]
    exact (Bool.and_eq_true_iff.mp hboth).1
  · next hnot =>
    have hcleared : capRights cs &&& ~~~rGLOB &&& rGLOB = 0 := by
      rw [BitVec.and_assoc, BitVec.not_and_self]
      exact BitVec.and_zero
    rw [hcleared, (Bool.not_eq_true _).mp hnot]
    decide

/-- R71: when unsealing keeps the tag. -/
theorem capUnseal_tag_iff (cs ck : Cap) (ring : BitVec 2) :
    (capUnseal cs ck ring).tag = true ↔
      cs.tag = true ∧ ck.tag = true ∧ capOtype ck = 0 ∧ capHas ck rUNSEAL = true ∧
        ring.toNat ≤ (capRing ck).toNat ∧ (capCursor ck).toNat = (capOtype cs).toNat ∧
        (capBounds ck).1 ≤ (capCursor ck).toNat ∧ ((capCursor ck).toNat : Int) < (capBounds ck).2 ∧
        1 ≤ (capOtype cs).toNat ∧ (capOtype cs).toNat ≤ 223 := by
  simp only [capUnseal, capWithOtype, apply_ite Cap.tag, ite_self, Bool.and_eq_true, Bool.not_eq_true', beq_iff_eq,
    decide_eq_true_eq, capSealed_eq_false, and_assoc]
  -- the model asks the bounds of cs.OTYPE, which is the key's cursor wherever the tag can be kept
  by_cases hcur : (capCursor ck).toNat = (capOtype cs).toNat
  · simp only [hcur]
  · simp only [hcur, false_and, and_false]

/-- Settles O4: each of CSEAL and CUNSEAL writes `capSeal` or `capUnseal` of its operands, whose tags and fields the lemmas
above read off R70 and R71. -/
theorem sealAndUnsealKeepTagExactlyWhenAllowed : Obligations.SealAndUnsealKeepTagExactlyWhenAllowed := by
  intro s k d a b hfetch hd
  constructor
  · refine (cseal_answers hfetch d a b).imp fun t hwrites => ?_
    rw [hwrites.gc_written hd]
    exact ⟨capSeal_bits _ _ _, capSeal_tag_iff _ _ _⟩
  · refine (cunseal_answers hfetch d a b).imp fun t hwrites => ?_
    rw [hwrites.gc_written hd]
    exact ⟨capUnseal_otype _ _ _, capUnseal_glob _ _ _, capUnseal_tag_iff _ _ _⟩

end Sys2Proof.Machine

/-! PROOFS. Sync counters (16 R433 to R444): what each counter operation writes, what one step of a core may leave behind beside
it, how a wait is held, satisfied or met by an interrupt, and what SCINC, SCWAIT, SCRESET and a set-up write answer. -/

namespace Sys2Proof.Machine

open Sys2Proof.Terms

/- Register bits -/

/-- A bit of a register after one bit of it was set. -/
theorem regBit_regOr_twoPow (s : State) (off i j : Nat) (hj : j < 64) :
    regBit (regOr s off (2 ^ i)) off j = (regBit s off j || decide (j = i)) := by
  unfold regBit bitAt regOr
  rw [regGet_regSet_self, BitVec.getLsbD_or, BitVec.getLsbD_ofNat, Nat.testBit_two_pow]
  simp only [hj, decide_true, Bool.true_and, eq_comm]

/-- A bit of a register after one bit of it was cleared. -/
theorem regBit_regClr_twoPow (s : State) (off i j : Nat) (hj : j < 64) :
    regBit (regClr s off (2 ^ i)) off j = (regBit s off j && decide (j ≠ i)) := by
  unfold regBit bitAt regClr
  rw [regGet_regSet_self, BitVec.getLsbD_and, BitVec.getLsbD_not, BitVec.getLsbD_ofNat, Nat.testBit_two_pow]
  simp only [hj, decide_true, Bool.true_and, ne_eq, decide_not, eq_comm]

/-- Setting or clearing bits of a register leaves every other register. -/
theorem regGet_regOr_ne (s : State) {off off' : Nat} (mask : Nat) (h : off' ≠ off) :
    regGet (regOr s off mask) off' = regGet s off' := regGet_regSet_ne s _ h
theorem regGet_regClr_ne (s : State) {off off' : Nat} (mask : Nat) (h : off' ≠ off) :
    regGet (regClr s off mask) off' = regGet s off' := regGet_regSet_ne s _ h

/- Counters -/

theorem scValue_inj {x y : Nat} : Reg.scValue x = Reg.scValue y ↔ x = y := by unfold Reg.scValue; omega
theorem scPoison_inj {x y : Nat} : Reg.scPoison x = Reg.scPoison y ↔ x = y := by unfold Reg.scPoison; omega
theorem scValue_ne_scPoison {y : Nat} (hy : y < 256) (x : Nat) : Reg.scValue y ≠ Reg.scPoison x := by
  unfold Reg.scValue Reg.scPoison; omega
theorem scValue_ne_scSat {y : Nat} (hy : y < 256) (x : Nat) : Reg.scValue y ≠ Reg.scSat x := by
  unfold Reg.scValue Reg.scSat; omega
theorem scValue_ne_scOps {y : Nat} (hy : y < 256) : Reg.scValue y ≠ Reg.scOps := by unfold Reg.scValue Reg.scOps; omega
theorem scPoison_ne_scOps {y : Nat} (hy : y < 256) : Reg.scPoison (y / 32) ≠ Reg.scOps := by
  unfold Reg.scPoison Reg.scOps; omega
theorem scSat_ne_scOps {y : Nat} (hy : y < 256) : Reg.scSat (y / 32) ≠ Reg.scOps := by unfold Reg.scSat Reg.scOps; omega

/-- Counting an operation leaves every counter. -/
theorem scVal_scCount (s : State) {y : Nat} (hy : y < 256) : scVal (scCount s) y = scVal s y :=
  congrArg BitVec.toNat (regGet_regSet_ne s _ (scValue_ne_scOps hy))
theorem scPoisoned_scCount (s : State) {y : Nat} (hy : y < 256) : scPoisoned (scCount s) y = scPoisoned s y :=
  congrArg (bitAt · (y % 32)) (regGet_regSet_ne s _ (scPoison_ne_scOps hy))

/-- Writing a counter's register. -/
theorem scVal_regSet (s : State) (x y v : Nat) (hv : v < 2 ^ 64) :
    scVal (regSet s (Reg.scValue x) (BitVec.ofNat 64 v)) y = if y = x then v else scVal s y := by
  unfold scVal
  rw [regGet_regSet]
  simp only [scValue_inj]
  split
  · exact BitVec.toNat_ofNat v 64 ▸ Nat.mod_eq_of_lt hv
  · rfl

/-- R438: setting a counter writes its value and no other. -/
theorem scVal_scSet (s : State) (x v : Nat) {y : Nat} (hy : y < 256) (hv : v < 2 ^ 64) :
    scVal (scSet s x v) y = if y = x then v else scVal s y := by
  rw [← scVal_regSet s x y v hv]
  exact congrArg BitVec.toNat (regGet_regClr_ne _ _ (scValue_ne_scPoison hy _))

/-- R444: setting a counter ends its poisoning and no other's. -/
theorem scPoisoned_scSet (s : State) {x y : Nat} (v : Nat) (hx : x < 256) :
    scPoisoned (scSet s x v) y = (scPoisoned s y && decide (y ≠ x)) := by
  have hval : ∀ z, regGet (regSet s (Reg.scValue x) (BitVec.ofNat 64 v)) (Reg.scPoison z) = regGet s (Reg.scPoison z) := fun z =>
    regGet_regSet_ne s _ (scValue_ne_scPoison hx z).symm
  unfold scPoisoned scSet
  by_cases hword : y / 32 = x / 32
  · rw [hword, regBit_regClr_twoPow _ _ _ _ (by omega), regBit, hval]
    have hbit : y % 32 ≠ x % 32 ↔ y ≠ x := by omega
    simp only [hbit]
    rfl
  · have hne : y ≠ x := fun h => hword (h ▸ rfl)
    rw [regBit, regGet_regClr_ne _ _ (mt scPoison_inj.mp hword), hval]
    simp only [hne, ne_eq, not_false_eq_true, decide_true, Bool.and_true]
    rfl

/-- R433: an increment saturates at 0xFFFF_FFFF and touches no other counter. -/
theorem scVal_scIncrement (s : State) {x y : Nat} (amount : Nat) (hy : y < 256) (hp : scPoisoned s x = false) :
    scVal (scIncrement s x amount) y = if y = x then min (scVal s x + amount) 0xFFFFFFFF else scVal s y := by
  have hcounted : scVal (scCount (regSet s (Reg.scValue x) (BitVec.ofNat 64 (min (scVal s x + amount) 0xFFFFFFFF)))) y =
      if y = x then min (scVal s x + amount) 0xFFFFFFFF else scVal s y := by
    rw [scVal_scCount _ hy, scVal_regSet _ _ _ _ (by omega)]
  unfold scIncrement
  simp only [hp, Bool.false_eq_true, if_false]
  split
  · rw [← hcounted]
    exact congrArg BitVec.toNat (regGet_regOr_ne _ _ (scValue_ne_scSat hy _))
  · exact hcounted

/-- R433: an increment marks the counter in SC_SAT when the sum exceeds 0xFFFF_FFFF. -/
theorem scSat_scIncrement {s : State} {x : Nat} (amount : Nat) (hx : x < 256) (hp : scPoisoned s x = false) :
    regBit (scIncrement s x amount) (Reg.scSat (x / 32)) (x % 32) =
      (regBit s (Reg.scSat (x / 32)) (x % 32) || decide (0xFFFFFFFF < scVal s x + amount)) := by
  have hcounted : ∀ v, regBit (scCount (regSet s (Reg.scValue x) v)) (Reg.scSat (x / 32)) (x % 32) =
      regBit s (Reg.scSat (x / 32)) (x % 32) := fun v =>
    congrArg (bitAt · (x % 32)) ((regGet_regSet_ne _ _ (scSat_ne_scOps hx)).trans
      (regGet_regSet_ne s _ (scValue_ne_scSat hx _).symm))
  unfold scIncrement
  simp only [hp, Bool.false_eq_true, if_false, gt_iff_lt]
  split
  · next hover => rw [regBit_regOr_twoPow _ _ _ _ (by omega), hcounted, decide_eq_true rfl, decide_eq_true hover]
  · next hfits => rw [hcounted, decide_eq_false hfits, Bool.or_false]

/-- The counter operations write nothing but registers. -/
theorem onlyRegs_regSet (s : State) (off : Nat) (v : W64) : OnlyRegs (· == off) s (regSet s off v) :=
  .set0 _ s off v (beq_self_eq_true off)

theorem onlyRegs_scCount (s : State) : OnlyRegs (· == Reg.scOps) s (scCount s) := onlyRegs_regSet s _ _

theorem onlyRegs_scSet (s : State) (x v : Nat) :
    OnlyRegs (fun y => (y == Reg.scValue x) || (y == Reg.scPoison (x / 32))) s (scSet s x v) :=
  .thenSet0 (.set0 _ s _ _ (by simp)) (by simp)

theorem onlyRegs_scIncrement (s : State) (x amount : Nat) :
    OnlyRegs (fun y => (y == Reg.scValue x) || (y == Reg.scSat (x / 32)) || (y == Reg.scOps)) s (scIncrement s x amount) := by
  have hcounted : ∀ v, OnlyRegs (fun y => (y == Reg.scValue x) || (y == Reg.scSat (x / 32)) || (y == Reg.scOps)) s
      (scCount (regSet s (Reg.scValue x) v)) := fun v => .thenSet0 (.set0 _ s _ _ (by simp)) (by simp)
  unfold scIncrement
  dsimp only
  split
  · exact .refl _ s
  · split
    · exact .thenSet0 (hcounted _) (by simp)
    · exact hcounted _

/- What lies beside one core's step -/

/-- Beside core `n`, `t` is `s` but for what one instruction's fetch, rule checks and counting touch, and for registers. -/
def Beside (s t : State) (n : Nat) : Prop :=
  t = { s with regs := t.regs, acu := { s.acu with bad0 := t.acu.bad0, bad1 := t.acu.bad1 }, freeCtr := t.freeCtr,
               cores := t.cores } ∧
  ∀ m, m ≠ n → LinesLeft (coreOf s m) (coreOf t m)

/-- `HlAfter` in its three parts: beside the core, the registers, the core itself. -/
theorem hlAfter_iff {s t : State} {n : Nat} {c : HlCore} :
    HlAfter s t n c ↔ Beside s t n ∧ RegsKept acuKey s t ∧ FetchedCore c (coreOf t n) :=
  ⟨fun ⟨hframe, hregs, hothers, hcore⟩ => ⟨⟨hframe, hothers⟩, hregs, hcore⟩,
    fun ⟨⟨hframe, hothers⟩, hregs, hcore⟩ => ⟨hframe, hregs, hothers, hcore⟩⟩

theorem Beside.trans {s t u : State} {n : Nat} (h : Beside s t n) (h' : Beside t u n) : Beside s u n := by
  obtain ⟨hframe, hothers⟩ := h
  obtain ⟨hframe', hothers'⟩ := h'
  refine ⟨?_, fun m hm => (hothers m hm).trans (hothers' m hm)⟩
  rw [hframe', hframe]

theorem Beside.memKept {s t : State} {n : Nat} (h : Beside s t n) : MemKept s t := by
  rw [h.1]
  exact ⟨rfl, rfl, rfl⟩

theorem OnlyRegs.cores {K : Nat → Bool} {s t : State} (h : OnlyRegs K s t) : t.cores = s.cores := by rw [h.1]

theorem OnlyRegs.beside {K : Nat → Bool} {s t : State} (h : OnlyRegs K s t) (n : Nat) : Beside s t n := by
  refine ⟨?_, fun m _ => by rw [coreOf_congr h.cores m]; exact .refl _⟩
  rw [h.1]

theorem RuleChecked.beside {s t : State} (h : RuleChecked s t) (n : Nat) : Beside s t n := by
  refine ⟨?_, fun m _ => by rw [coreOf_congr h.cores m]; exact .refl _⟩
  rw [h.1]

theorem beside_setCore (s : State) (n : Nat) (c : HlCore) : Beside s (setCore s n c) n :=
  ⟨rfl, fun m hm => by rw [coreOf_setCore_ne s c hm]; exact .refl _⟩

theorem beside_perfEvents (s : State) (n : Nat) (before : HlCore) (events : List Nat) :
    Beside s (perfEvents s n before events) n := by
  refine ⟨?_, fun m hm => by rw [perfEvents_core, if_neg hm]; exact .refl _⟩
  rw [(perfEvents_frame s n before events).1]

theorem beside_atEdge (s : State) (n : Nat) : Beside s (atEdge s n) n := beside_setCore s n _

theorem beside_icacheAccess (s : State) (n line tenant : Nat) (cls : BitVec 2) :
    Beside s (icacheAccess s n line tenant cls).2 n := by
  obtain ⟨hframe, hothers, _⟩ := icacheAccess_frame s n line tenant cls
  refine ⟨?_, hothers⟩
  rw [hframe]

theorem beside_hlFetched (s : State) (n : Nat) : Beside s (hlFetched s n).2 n :=
  let ⟨hframe, _, hothers⟩ := hlFetched_after s n
  ⟨hframe, hothers⟩

theorem regsKept_hlFetched (s : State) (n : Nat) : RegsKept acuKey s (hlFetched s n).2 :=
  let ⟨_, hregs, _⟩ := hlFetched_after s n
  hregs

/- The core itself -/

/-- The fetch leaves its own core as `FetchedCore` says. -/
theorem fetchedCore_hlFetched (s : State) (n : Nat) : FetchedCore (coreOf s n) (coreOf (hlFetched s n).2 n) := by
  obtain ⟨hcore, hlines⟩ := coreOf_hlFetched s n
  refine ⟨?_, hlines⟩
  rw [hcore]

/-- Writing a G register and moving EXC on commutes with what the fetch touches. -/
theorem FetchedCore.advance_gSet {c c' : HlCore} (h : FetchedCore c c') (i : Nat) (v : Cap) :
    FetchedCore (advance (gSet c i v)) (advance (gSet c' i v)) := by
  obtain ⟨hcore, hlines⟩ := h
  rw [gSet_eq c', gSet_eq c]
  refine ⟨?_, hlines⟩
  have hg : (gSet c' i v).g = (gSet c i v).g := by
    rw [hcore]
    unfold gSet
    split <;> rfl
  rw [hg, hcore]
  rfl

/-- Counting events and noting the next boundary leave a core as `FetchedCore` says. -/
theorem FetchedCore.perfEvents {s : State} {n : Nat} {c : HlCore} (h : FetchedCore c (coreOf s n)) (before : HlCore)
    (events : List Nat) : FetchedCore c (coreOf (perfEvents s n before events) n) := by
  obtain ⟨hcore, hlines⟩ := h
  have hperf := perfEvents_only s n before events
  rw [hcore] at hperf
  refine ⟨?_, fun e he => hlines e (by rw [hperf] at he; exact he)⟩
  rw [hperf]

theorem FetchedCore.atEdge {s : State} {n : Nat} {c : HlCore} (h : FetchedCore c (coreOf s n)) :
    FetchedCore c (coreOf (atEdge s n) n) := by
  obtain ⟨hcore, hlines⟩ := h
  rw [Machine.atEdge, coreOf_setCore_self]
  refine ⟨?_, hlines⟩
  rw [hcore]

theorem FetchedCore.gGet {c c' : HlCore} (h : FetchedCore c c') (r : Nat) : gGet c' r = gGet c r := by rw [h.1]; rfl
theorem FetchedCore.exc {c c' : HlCore} (h : FetchedCore c c') : c'.exc = c.exc := by rw [h.1]
theorem FetchedCore.wait {c c' : HlCore} (h : FetchedCore c c') : c'.wait = c.wait := by rw [h.1]

/- Retiring: the core is replaced, its events are counted, its next boundary is noted -/

/-- `u` with core `n` replaced by `d`, its events counted and its next boundary noted. -/
def promoted (u : State) (n : Nat) (d before : HlCore) (events : List Nat) : State :=
  atEdge (perfEvents (setCore u n d) n before events) n

theorem beside_promoted (u : State) (n : Nat) (d before : HlCore) (events : List Nat) :
    Beside u (promoted u n d before events) n :=
  (beside_setCore u n d).trans ((beside_perfEvents _ n before events).trans (beside_atEdge _ n))

theorem FetchedCore.promoted {c d : HlCore} (h : FetchedCore c d) (u : State) (n : Nat) (before : HlCore) (events : List Nat) :
    FetchedCore c (coreOf (promoted u n d before events) n) := by
  have hset : FetchedCore c (coreOf (setCore u n d) n) := by rwa [coreOf_setCore_self]
  exact (hset.perfEvents before events).atEdge

/-- Of the registers only INT_PENDn may change, by a counter that overflows (05 R142). -/
theorem regsKept_promoted (u : State) (n : Nat) (d before : HlCore) (events : List Nat) :
    RegsKept (· == Reg.intPend n) u (promoted u n d before events) := by
  have hperf := (perfEvents_frame (setCore u n d) n before events).2
  exact fun k hk => hperf k hk

/-- An instruction that retires does so by `promoted`. -/
theorem hlRun_retires {s u : State} {n : Nat} {d : HlCore} {ev : List Nat} (h : HlFetches s n) (word : W32)
    {body : State → HlCore → HlRes}
    (hbody : body (hlFetched s n).2 (coreOf (hlFetched s n).2 n) = retireCore u n d ev) :
    hlRun s n word body =
      .next (promoted u n (advance d) (coreOf s n) ((if (hlFetched s n).1 then [7] else []) ++ [1] ++ ev)) := by
  rw [hlRun_fetched h, hbody]
  rfl

/- The fetch and the counters -/

theorem RegsKept.intPend {s t : State} {n : Nat} (hn : n < 16) (h : RegsKept (· == Reg.intPend n) s t) : RegsKept acuKey s t :=
  h.mono fun k hk => by rw [eq_of_beq hk]; exact errKey_acuKey (errKey_pend hn)

theorem acuKey_sync {k : Nat} (h : 0x30000 ≤ k) (h' : k < 0xE0000) : acuKey k = false := by
  unfold acuKey errKey
  simp only [Bool.or_eq_false_iff, Bool.and_eq_false_iff, decide_eq_false_iff_not]
  omega

theorem RegsKept.scVal {s t : State} (h : RegsKept acuKey s t) {x : Nat} (hx : x < 256) : scVal t x = scVal s x :=
  congrArg BitVec.toNat (h.regGet (acuKey_sync (by unfold Reg.scValue; omega) (by unfold Reg.scValue; omega)))

theorem RegsKept.scPoisoned {s t : State} (h : RegsKept acuKey s t) {x : Nat} (hx : x < 256) : scPoisoned t x = scPoisoned s x :=
  congrArg (bitAt · (x % 32)) (h.regGet (acuKey_sync (by unfold Reg.scPoison; omega) (by unfold Reg.scPoison; omega)))

theorem RegsKept.scSat {s t : State} (h : RegsKept acuKey s t) {x : Nat} (hx : x < 256) :
    regBit t (Reg.scSat (x / 32)) (x % 32) = regBit s (Reg.scSat (x / 32)) (x % 32) :=
  congrArg (bitAt · (x % 32)) (h.regGet (acuKey_sync (by unfold Reg.scSat; omega) (by unfold Reg.scSat; omega)))

/-- Which counter an operand names depends on the tenant's quota, the ring and the tenant (R434, R435). -/
theorem scNamed_kept {s t : State} (h : RegsKept acuKey s t) {c c' : HlCore} (hc : FetchedCore c c') (w : W64) :
    scNamed t c' w = scNamed s c w := by
  have hquota : quotaOf t (ctxTenant c) = quotaOf s (ctxTenant c) := by
    have htenant : ctxTenant c < 256 := (fld c.ctx 0 8).isLt
    exact congrArg BitVec.toNat (h.regGet (acuKey_sync (by unfold Reg.tenQuota; omega) (by unfold Reg.tenQuota; omega)))
  have hctx : ctxTenant c' = ctxTenant c := by rw [hc.1]; rfl
  have hring : platformCode c' = platformCode c := by rw [hc.1]; rfl
  unfold scNamed scAvailable scInRange
  rw [hctx, hring, hquota]

/-- A named counter is one of the 256. -/
theorem lt_of_scNamed {s : State} {c : HlCore} {w : W64} {x : Nat} (h : scNamed s c w = some x) : x < 256 := by
  unfold scNamed at h
  split at h
  · next hand =>
    rw [Bool.and_eq_true, decide_eq_true_eq] at hand
    exact Option.some.inj h ▸ hand.1
  · cases h

/-- R434, R435: no counter is named by a number past 255, or by one outside the range of a tenant's ring. -/
theorem scNamed_eq_none {s : State} {c : HlCore} {w : W64}
    (h : 256 ≤ w.toNat ∨ (2 ≤ (excRing c).toNat ∧ scInRange s (ctxTenant c) w.toNat = false)) : scNamed s c w = none := by
  unfold scNamed scAvailable platformCode
  rw [if_neg]
  rcases h with hbig | ⟨hring, hrange⟩
  · simp only [Bool.and_eq_true, decide_eq_true_eq]
    omega
  · simp only [hrange, Bool.or_false, Bool.and_eq_true, decide_eq_true_eq]
    omega

/- The instructions -/

/-- A core that fetches runs. -/
theorem HlFetches.running {s : State} {n : Nat} (h : HlFetches s n) : (coreOf s n).running = true := by
  have hexec := h.1
  simp only [executing, Bool.and_eq_true] at hexec
  obtain ⟨⟨⟨⟨_, hrunning⟩, _⟩, _⟩, _⟩ := hexec
  exact hrunning

/-- A core that fetches waits for nothing. -/
theorem HlFetches.idle {s : State} {n : Nat} (h : HlFetches s n) : (coreOf s n).wait = .none := by
  have hexec := h.1
  simp only [executing, Bool.and_eq_true, beq_iff_eq] at hexec
  obtain ⟨⟨⟨⟨_, _⟩, hwait⟩, _⟩, _⟩ := hexec
  exact hwait

/-- What a core holds once an instruction has written rd and moved EXC on. -/
theorem FetchedCore.written {c c' : HlCore} {i : Nat} {v : Cap} (h : FetchedCore (advance (gSet c i v)) c') :
    (∀ r, Machine.gGet c' r = if r = i ∧ r ≠ 0 then v else Machine.gGet c r) ∧ c'.exc = (advance c).exc ∧ c'.wait = c.wait := by
  refine ⟨fun r => (h.gGet r).trans (gGet_gSet c i r v), ?_, ?_⟩
  · rw [h.exc, gSet_eq]; rfl
  · rw [h.wait, gSet_eq]; rfl

/-- An instruction that writes registers of the set-up window, then `v` to rd. -/
theorem hlRun_setsRegs {s u : State} {n rd : Nat} {v : Cap} {ev : List Nat} {K : Nat → Bool} (h : HlFetches s n) (word : W32)
    {body : State → HlCore → HlRes} (hu : OnlyRegs K (hlFetched s n).2 u)
    (hbody : body (hlFetched s n).2 (coreOf (hlFetched s n).2 n) =
      retireCore u n (gSet (coreOf (hlFetched s n).2 n) rd v) ev) :
    ∃ t, hlRun s n word body = .next t ∧ RegsKept (· == Reg.intPend n) u t ∧ Beside s t n ∧
      FetchedCore (advance (gSet (coreOf s n) rd v)) (coreOf t n) :=
  ⟨_, hlRun_retires h word hbody, regsKept_promoted _ _ _ _ _,
    (beside_hlFetched s n).trans ((hu.beside n).trans (beside_promoted _ _ _ _ _)),
    ((fetchedCore_hlFetched s n).advance_gSet rd v).promoted _ _ _ _⟩

/-- An instruction that writes `v` to rd and does nothing else. -/
theorem hlRun_writes {s : State} {n rd : Nat} {v : Cap} {ev : List Nat} (hn : n < 16) (h : HlFetches s n) (word : W32)
    {body : State → HlCore → HlRes}
    (hbody : body (hlFetched s n).2 (coreOf (hlFetched s n).2 n) =
      retireCore (hlFetched s n).2 n (gSet (coreOf (hlFetched s n).2 n) rd v) ev) :
    ∃ t, hlRun s n word body = .next t ∧ HlWrites s t n rd v := by
  obtain ⟨t, hrun, hregs, hbeside, hcore⟩ := hlRun_setsRegs h word (.refl (fun _ => false) _) hbody
  exact ⟨t, hrun, .of_after (hlAfter_iff.mpr ⟨hbeside, (regsKept_hlFetched s n).trans (hregs.intPend hn), hcore⟩)⟩

/- An instruction that waits -/

theorem coreOf_unfetched (before s : State) (n m : Nat) :
    coreOf (unfetched before s n) m =
      if m = n then { coreOf s n with icache := (coreOf before n).icache, irecent := (coreOf before n).irecent,
                                      dcache := (coreOf before n).dcache, drecent := (coreOf before n).drecent }
      else coreOf before m := sget_sset _ _ _ _ _

theorem noteBegun_unfetched_frame (before u : State) (n : Nat) (c : HlCore) (first : Bool) (cls : BitVec 2) :
    noteBegun (unfetched before (setCore u n c) n) n first cls =
      { u with cores := (noteBegun (unfetched before (setCore u n c) n) n first cls).cores } := by
  unfold noteBegun unfetched setCore
  rfl

/-- `t` is `s` with core `n` held at its instruction by `w`: the cache class of its fetch is kept for later, and the fetch has
left no trace in the caches (05 R130). -/
def HeldAfter (s : State) (n : Nat) (w : HlWait) (t : State) : Prop :=
  coreOf t n = { coreOf s n with wait := w, begun := false,
                                 fetched := some (fetchCheck s (coreOf s n).exc (coreTenant (coreOf s n))).2.1 } ∧
  (∀ m, m ≠ n → coreOf t m = coreOf s m) ∧ RegsKept acuKey s t ∧ MemKept s t

/-- The core that is left when an instruction waits: what it fetched is taken back. -/
theorem coreOf_noteBegun_waiting {s before u : State} {n : Nat} {w : HlWait} (first : Bool) (cls : BitVec 2) (hw : w ≠ .none)
    (hbefore : before.cores = s.cores) (m : Nat) :
    coreOf (noteBegun (unfetched before (setCore u n { coreOf u n with wait := w }) n) n first cls) m =
      if m = n then
        { coreOf u n with wait := w, icache := (coreOf s n).icache, irecent := (coreOf s n).irecent,
                          dcache := (coreOf s n).dcache, drecent := (coreOf s n).drecent, begun := false, fetched := some cls }
      else coreOf s m := by
  have hwait : (w == HlWait.none) = false := by simpa using hw
  rw [noteBegun, coreOf_setCore, coreOf_unfetched, coreOf_unfetched, if_pos rfl, coreOf_setCore_self,
    coreOf_congr hbefore, coreOf_congr hbefore]
  split
  · simp only [hwait, Bool.and_false, Bool.false_and]
  · rfl

/-- An instruction that only makes its core wait. -/
theorem hlRun_waits {s : State} {n : Nat} {w : HlWait} (h : HlFetches s n) (word : W32) (hw : w ≠ .none)
    {body : State → HlCore → HlRes}
    (hbody : body (hlFetched s n).2 (coreOf (hlFetched s n).2 n) =
      .wait (setCore (hlFetched s n).2 n { coreOf (hlFetched s n).2 n with wait := w })) :
    ∃ t, hlRun s n word body = .next t ∧ HeldAfter s n w t := by
  have hregs := regsKept_hlFetched s n
  have hmem := (beside_hlFetched s n).memKept
  have hcore := coreOf_noteBegun_waiting (n := n) (u := (hlFetched s n).2) (retiresFirst word)
    (fetchCheck s (coreOf s n).exc (coreTenant (coreOf s n))).2.1 hw
    (ruleChecked_fetchCheck s (coreOf s n).exc (coreTenant (coreOf s n))).cores
  rw [hlRun_fetched h, hbody]
  refine ⟨_, rfl, ?_, fun m hm => ?_, ?_, ?_⟩
  · rw [hcore, if_pos rfl, (coreOf_hlFetched s n).1]
  · rw [hcore, if_neg hm]
  · unfold RegsKept
    rw [noteBegun_unfetched_frame]
    exact hregs
  · unfold MemKept
    rw [noteBegun_unfetched_frame]
    exact hmem

/- The fetch leaves the counters and the operands that name them. -/

theorem scVal_fetched (s : State) (n : Nat) {x : Nat} (hx : x < 256) : scVal (hlFetched s n).2 x = scVal s x :=
  (regsKept_hlFetched s n).scVal hx
theorem scPoisoned_fetched (s : State) (n : Nat) {x : Nat} (hx : x < 256) : scPoisoned (hlFetched s n).2 x = scPoisoned s x :=
  (regsKept_hlFetched s n).scPoisoned hx
theorem gInt_fetched (s : State) (n r : Nat) : gInt (coreOf (hlFetched s n).2 n) r = gInt (coreOf s n) r :=
  congrArg capCursor ((fetchedCore_hlFetched s n).gGet r)
theorem scNamed_fetched (s : State) (n : Nat) (w : W64) :
    scNamed (hlFetched s n).2 (coreOf (hlFetched s n).2 n) w = scNamed s (coreOf s n) w :=
  scNamed_kept (regsKept_hlFetched s n) (fetchedCore_hlFetched s n) w

/-- The low 32 bits of an operand (R434). -/
theorem low32_gInt (s : State) (k : BitVec 4) (b : BitVec 5) :
    fld (gInt (coreOf s k.toNat) b.toNat) 0 32 = BitVec.ofNat 32 (gu s k b) :=
  BitVec.eq_of_toNat_eq (by simp [fld, gu])

/- The commands -/

theorem exec_scinc (s : State) (k : BitVec 4) (d a b : BitVec 5) : exec (.scinc k d a b) s = execScinc k d a b s := rfl
theorem exec_scwait (s : State) (k : BitVec 4) (d a b : BitVec 5) : exec (.scwait k d a b) s = execScwait k d a b s := rfl
theorem exec_screset (s : State) (k : BitVec 4) (d a b : BitVec 5) : exec (.screset k d a b) s = execScreset k d a b s := rfl

/-- What a command answers, said of its meaning. -/
theorem Answers.of_exec {i : Instr} {s : State} {o : Host.Outcome State Fault Refusal} {P : State → Prop} (h : exec i s = o)
    (hP : ∃ t, o = .next t ∧ P t) : Answers i s P := by
  subst h
  exact hP

section
variable {s : State} {k : BitVec 4}

/-- R434: an operand that names no counter of the caller answers NOT_AVAILABLE. -/
theorem scUnnamed_answers (h : HlFetches s k.toNat) (d a b : BitVec 5)
    (hname : scNamed s (coreOf s k.toNat) (gInt (coreOf s k.toNat) a.toNat) = none) :
    Answers (.scinc k d a b) s (fun t => HlWrites s t k.toNat d.toNat (capOfInt scNotAvailable)) ∧
    Answers (.scwait k d a b) s (fun t => HlWrites s t k.toNat d.toNat (capOfInt scNotAvailable)) ∧
    (b = 0 → Answers (.screset k d a b) s (fun t => HlWrites s t k.toNat d.toNat (capOfInt scNotAvailable))) := by
  refine ⟨.of_exec (exec_scinc ..) (hlRun_writes k.isLt h _ (ev := []) ?_),
    .of_exec (exec_scwait ..) (hlRun_writes k.isLt h _ (ev := [14]) ?_),
    fun hb => .of_exec (exec_screset ..) (hlRun_writes k.isLt h _ (ev := []) ?_)⟩
  · simp only [gInt_fetched, scNamed_fetched, hname]; rfl
  · simp only [gInt_fetched, scNamed_fetched, hname]; rfl
  · simp only [gInt_fetched, scNamed_fetched, hname, hb, bne_self_eq_false, Bool.false_eq_true, if_false]; rfl

variable {a : BitVec 5} {x : Nat}

/-- R444: a poisoned counter answers POISONED. -/
theorem scPoisoned_answers (h : HlFetches s k.toNat) (d b : BitVec 5)
    (hname : scNamed s (coreOf s k.toNat) (gInt (coreOf s k.toNat) a.toNat) = some x) (hp : scPoisoned s x = true) :
    Answers (.scinc k d a b) s (fun t => HlWrites s t k.toNat d.toNat (capOfInt scIsPoisoned)) ∧
    Answers (.scwait k d a b) s (fun t => HlWrites s t k.toNat d.toNat (capOfInt scIsPoisoned)) := by
  have hx := lt_of_scNamed hname
  refine ⟨.of_exec (exec_scinc ..) (hlRun_writes k.isLt h _ (ev := []) ?_),
    .of_exec (exec_scwait ..) (hlRun_writes k.isLt h _ (ev := [14]) ?_)⟩
  · simp only [gInt_fetched, scNamed_fetched, hname, scPoisoned_fetched _ _ hx, hp, if_true]; rfl
  · simp only [gInt_fetched, scNamed_fetched, hname, scPoisoned_fetched _ _ hx, hp, if_true]; rfl

/-- R433: SCINC adds the low 32 bits of rs2, saturating, and answers the new value. -/
theorem scinc_answers (h : HlFetches s k.toNat) (d b : BitVec 5)
    (hname : scNamed s (coreOf s k.toNat) (gInt (coreOf s k.toNat) a.toNat) = some x) (hp : scPoisoned s x = false) :
    Answers (.scinc k d a b) s (fun t =>
      let sum := scVal s x + gu s k b % 2 ^ 32
      (∀ y, y < 256 → scVal t y = if y = x then min sum 0xFFFFFFFF else scVal s y) ∧
      regBit t (Reg.scSat (x / 32)) (x % 32) = (regBit s (Reg.scSat (x / 32)) (x % 32) || decide (0xFFFFFFFF < sum)) ∧
      FetchedCore (advance (gSet (coreOf s k.toNat) d.toNat (capOfInt (BitVec.ofNat 64 (min sum 0xFFFFFFFF)))))
        (coreOf t k.toNat) ∧
      MemKept s t) := by
  have hx := lt_of_scNamed hname
  have hfetch := regsKept_hlFetched s k.toNat
  have hp' : scPoisoned (hlFetched s k.toNat).2 x = false := (scPoisoned_fetched _ _ hx).trans hp
  have hval : ∀ y, y < 256 → scVal (scIncrement (hlFetched s k.toNat).2 x (gu s k b % 2 ^ 32)) y =
      if y = x then min (scVal s x + gu s k b % 2 ^ 32) 0xFFFFFFFF else scVal s y := fun y hy => by
    rw [scVal_scIncrement _ _ hy hp', scVal_fetched _ _ hx, scVal_fetched _ _ hy]
  have hsat := scSat_scIncrement (gu s k b % 2 ^ 32) hx hp'
  rw [hfetch.scSat hx, scVal_fetched _ _ hx] at hsat
  refine .of_exec (exec_scinc ..) ((hlRun_setsRegs (ev := []) h _
    (onlyRegs_scIncrement (hlFetched s k.toNat).2 x (gu s k b % 2 ^ 32)) ?_).imp fun t ⟨hrun, hregs, hbeside, hcore⟩ =>
      have hkept := hregs.intPend k.isLt
      ⟨hrun, fun y hy => (hkept.scVal hy).trans (hval y hy), (hkept.scSat hx).trans hsat, hcore, hbeside.memKept⟩)
  simp only [low32_gInt, gInt_fetched, scNamed_fetched, hname, hp', Bool.false_eq_true, if_false, BitVec.toNat_ofNat]
  have hself := hval x hx
  rw [if_pos rfl] at hself
  rw [← hself]
  rfl

/-- R436: SCWAIT completes at once when its counter has reached the target. -/
theorem scwait_reached_answers (h : HlFetches s k.toNat) (d b : BitVec 5)
    (hname : scNamed s (coreOf s k.toNat) (gInt (coreOf s k.toNat) a.toNat) = some x) (hp : scPoisoned s x = false)
    (hreached : gu s k b % 2 ^ 32 ≤ scVal s x) :
    Answers (.scwait k d a b) s (fun t =>
      FetchedCore (advance (gSet (coreOf s k.toNat) d.toNat (capOfInt (BitVec.ofNat 64 (scVal s x))))) (coreOf t k.toNat) ∧
      (∀ y, y < 256 → scVal t y = scVal s y) ∧ MemKept s t) := by
  have hx := lt_of_scNamed hname
  refine .of_exec (exec_scwait ..) ((hlRun_setsRegs (ev := [14]) h _ (onlyRegs_scCount (hlFetched s k.toNat).2) ?_).imp
    fun t ⟨hrun, hregs, hbeside, hcore⟩ => ⟨hrun, hcore, fun y hy => ?_, hbeside.memKept⟩)
  · simp only [low32_gInt, gInt_fetched, scNamed_fetched, hname, scPoisoned_fetched _ _ hx, hp, Bool.false_eq_true,
      if_false, BitVec.toNat_ofNat, scVal_fetched _ _ hx, hreached, if_true]
    rfl
  · rw [(hregs.intPend k.isLt).scVal hy, scVal_scCount _ hy, scVal_fetched _ _ hy]

/-- R436: SCWAIT waits while its counter is short of the target. -/
theorem scwait_short_answers (h : HlFetches s k.toNat) (d b : BitVec 5)
    (hname : scNamed s (coreOf s k.toNat) (gInt (coreOf s k.toNat) a.toNat) = some x) (hp : scPoisoned s x = false)
    (hshort : scVal s x < gu s k b % 2 ^ 32) :
    Answers (.scwait k d a b) s (HeldAfter s k.toNat (.counter x (BitVec.ofNat 32 (gu s k b)) d.toNat)) := by
  have hx := lt_of_scNamed hname
  refine .of_exec (exec_scwait ..) (hlRun_waits h _ HlWait.noConfusion ?_)
  simp only [low32_gInt, gInt_fetched, scNamed_fetched, hname, scPoisoned_fetched _ _ hx, hp, Bool.false_eq_true,
    if_false, BitVec.toNat_ofNat, scVal_fetched _ _ hx, Nat.not_le.mpr hshort]

/-- R434: SCRESET zeroes its counter, and ends its poison (R444). -/
theorem screset_answers (h : HlFetches s k.toNat) (d : BitVec 5)
    (hname : scNamed s (coreOf s k.toNat) (gInt (coreOf s k.toNat) a.toNat) = some x) :
    Answers (.screset k d a 0) s (fun t =>
      FetchedCore (advance (gSet (coreOf s k.toNat) d.toNat (capOfInt 0))) (coreOf t k.toNat) ∧
      (∀ y, y < 256 → scVal t y = (if y = x then 0 else scVal s y) ∧
        scPoisoned t y = (scPoisoned s y && decide (y ≠ x))) ∧ MemKept s t) := by
  have hx := lt_of_scNamed hname
  refine .of_exec (exec_screset ..) ((hlRun_setsRegs (K := fun _ => true) (ev := []) h _
    (((onlyRegs_scSet (hlFetched s k.toNat).2 x 0).mono fun _ _ => rfl).trans
      ((onlyRegs_scCount _).mono fun _ _ => rfl)) ?_).imp
    fun t ⟨hrun, hregs, hbeside, hcore⟩ => ⟨hrun, hcore, fun y hy => ?_, hbeside.memKept⟩)
  · simp only [gInt_fetched, scNamed_fetched, hname, bne_self_eq_false, Bool.false_eq_true, if_false]
    rfl
  · have hkept := hregs.intPend k.isLt
    rw [hkept.scVal hy, hkept.scPoisoned hy, scVal_scCount _ hy, scPoisoned_scCount _ hy, scVal_scSet _ _ _ hy (by decide),
      scPoisoned_scSet _ _ hx, scVal_fetched _ _ hy, scPoisoned_fetched _ _ hy]
    exact ⟨rfl, rfl⟩

end

/- Register writes from the set-up window (R438) -/

theorem exec_scValueWrite (s : State) (agent : Agent) (counter : BitVec 8) (value : W32) :
    exec (.scValueWrite agent counter value) s = execScValueWrite agent counter value s := rfl

/-- R438: who may not write leaves everything as it was. -/
theorem scValueWrite_denied {s : State} {agent : Agent} (h : platformAgent s agent = false) (counter : BitVec 8) (value : W32) :
    Answers (.scValueWrite agent counter value) s (fun t => t = s) := by
  refine .of_exec (exec_scValueWrite ..) ⟨s, ?_, rfl⟩
  rw [execScValueWrite, h, if_neg Bool.false_ne_true]

/-- R438: who may write sets the counter and ends its poisoning. -/
theorem scValueWrite_sets {s : State} {agent : Agent} (h : platformAgent s agent = true) {x : Nat} (hx : x < 256) (value : W32) :
    Answers (.scValueWrite agent (BitVec.ofNat 8 x) value) s (fun t =>
      OnlyRegs (fun y => (y == Reg.scValue x) || (y == Reg.scPoison (x / 32))) s t ∧ scVal t x = value.toNat ∧
      scPoisoned t x = false ∧ ∀ y, y < 256 → y ≠ x → scPoisoned t y = scPoisoned s y) := by
  have hvalue : value.toNat % 2 ^ 32 = value.toNat := Nat.mod_eq_of_lt value.isLt
  refine .of_exec (exec_scValueWrite ..) ⟨scSet s x value.toNat, ?_, onlyRegs_scSet s x _, ?_, ?_, fun y _ hne => ?_⟩
  · rw [execScValueWrite, h, if_pos rfl, scValueWrite, hvalue, BitVec.toNat_ofNat, Nat.mod_eq_of_lt hx]
  · rw [scVal_scSet s x _ hx (by omega), if_pos rfl]
  · simp [scPoisoned_scSet s _ hx]
  · simp [scPoisoned_scSet s _ hx, hne]

/- A wait that is satisfied (R436, R444) -/

/-- The fetch kept by a waiting core meets its instruction cache. -/
theorem promoteFetch_after (s : State) (n : Nat) :
    (promoteFetch s n).2.regs = s.regs ∧ Beside s (promoteFetch s n).2 n ∧
    FetchedCore (clearBegun (coreOf s n)) (clearBegun (coreOf (promoteFetch s n).2 n)) := by
  unfold promoteFetch
  dsimp only
  split
  · exact ⟨rfl, (OnlyRegs.refl (fun _ => false) s).beside n, rfl, fun _ he => he⟩
  · next cls _ =>
    generalize hu : setCore s n { coreOf s n with fetched := none } = u
    have hcore : coreOf u n = { coreOf s n with fetched := none } := by rw [← hu, coreOf_setCore_self]
    have hbeside : Beside s u n := hu ▸ beside_setCore s n _
    have hregs : u.regs = s.regs := by rw [← hu]; rfl
    generalize alignDown (localPart (capCursor (coreOf s n).exc).toNat) 64 = line
    obtain ⟨hframe, _, hcached, hlines⟩ := icacheAccess_frame u n line (coreTenant (coreOf s n)) cls
    refine ⟨?_, hbeside.trans (beside_icacheAccess u n line _ cls), ?_, fun e he => ?_⟩
    · rw [hframe]; exact hregs
    · rw [hcached, hcore]; rfl
    · have hmem := hlines e he
      rw [hcore] at hmem
      exact hmem

/-- The state in which a satisfied wait completes: SC_OPS (R438) counts it unless the counter is poisoned. -/
def settledFrom (s : State) (x : Nat) : State := if scPoisoned s x then s else scCount s
/-- What a satisfied wait answers. -/
def settledValue (s : State) (x : Nat) : W64 := if scPoisoned s x then scIsPoisoned else BitVec.ofNat 64 (scVal s x)

theorem onlyRegs_settledFrom (s : State) (x : Nat) : OnlyRegs (· == Reg.scOps) s (settledFrom s x) := by
  unfold settledFrom
  split
  · exact .refl _ s
  · exact onlyRegs_scCount s

section
variable {s : State} {n x rd : Nat} {target : W32}

/-- A core that waits for no counter has nothing to settle. -/
theorem settleWait_none (h : (coreOf s n).wait = .none) : settleWait s n = s := by
  unfold settleWait
  simp only [h]

/-- R436: a wait short of its target goes on. -/
theorem settleWait_short (hwait : (coreOf s n).wait = .counter x target rd) (hp : scPoisoned s x = false)
    (hshort : scVal s x < target.toNat) : settleWait s n = s := by
  unfold settleWait
  simp only [hwait, hp, Bool.false_or, Nat.not_le.mpr hshort, decide_false, Bool.and_false, Bool.false_eq_true, if_false]

/-- R436, R444: a wait whose counter has reached its target, or is poisoned, retires. -/
theorem settleWait_done (hrun : (coreOf s n).running = true) (hfence : fenced s = false)
    (hwait : (coreOf s n).wait = .counter x target rd) (hdone : scPoisoned s x = true ∨ target.toNat ≤ scVal s x) :
    ∃ events, settleWait s n = promoted (promoteFetch (settledFrom s x) n).2 n
      (advance (gSet (clearBegun (coreOf (promoteFetch (settledFrom s x) n).2 n)) rd (capOfInt (settledValue s x))))
      (coreOf s n) events := by
  have hsat : (scPoisoned s x || decide (target.toNat ≤ scVal s x)) = true := by simpa using hdone
  unfold settleWait
  simp only [hwait, hrun, hfence, hsat, Bool.not_false, Bool.and_self, if_true]
  exact ⟨_, rfl⟩

/-- What a satisfied wait leaves: rd written, EXC moved on, nothing of the instruction left; INT_PENDn may gain a counter's
interrupt. -/
theorem settleWait_after (hrun : (coreOf s n).running = true) (hfence : fenced s = false)
    (hwait : (coreOf s n).wait = .counter x target rd) (hdone : scPoisoned s x = true ∨ target.toNat ≤ scVal s x) :
    Beside s (settleWait s n) n ∧ RegsKept (· == Reg.intPend n) (settledFrom s x) (settleWait s n) ∧
    FetchedCore (advance (gSet (clearBegun (coreOf s n)) rd (capOfInt (settledValue s x)))) (coreOf (settleWait s n) n) := by
  obtain ⟨events, hsettle⟩ := settleWait_done hrun hfence hwait hdone
  obtain ⟨hregs, hbeside, hcore⟩ := promoteFetch_after (settledFrom s x) n
  rw [coreOf_congr (onlyRegs_settledFrom s x).cores] at hcore
  rw [hsettle]
  refine ⟨((onlyRegs_settledFrom s x).beside n).trans (hbeside.trans (beside_promoted ..)), fun key hkey => ?_,
    (hcore.advance_gSet _ _).promoted ..⟩
  rw [regsKept_promoted _ _ _ _ _ key hkey, hregs]

end

/- EXC in a trap bank (R165) -/

/-- A field written with what it holds. -/
theorem setFld_fld_self {m : Nat} (y : BitVec m) (lo w : Nat) : setFld y lo (fld y lo w) = y := by
  unfold setFld fld
  ext i hi
  simp only [BitVec.getElem_or, BitVec.getElem_and, BitVec.getElem_not, BitVec.getElem_shiftLeft, BitVec.getElem_setWidth,
    BitVec.getLsbD_allOnes, BitVec.getLsbD_extractLsb']
  by_cases hlow : i < lo
  · simp [hlow]
  · by_cases hin : i - lo < w
    · have hidx : lo + (i - lo) = i := by omega
      simp [hlow, hin, hidx, BitVec.getLsbD_eq_getElem hi]
    · simp [hlow, hin]

/-- The window of R61 in units of P = 2^E: a cursor in [q * P, (q + 1) * P) lies in [(q - off - 2^15) * P, (q - off + 3 * 2^15) * P)
for every offset that R59 decodes. -/
theorem mem_window_of_offset {cur q P : Nat} {off : Int} (hlow : q * P ≤ cur) (hhigh : cur < q * P + P)
    (hleast : -0x8000 ≤ off) (hmost : off ≤ 0x17FFF) :
    ((q : Int) - off) * (P : Int) - ((P * 2 ^ 15 : Nat) : Int) ≤ cur ∧
    (cur : Int) < ((q : Int) - off) * (P : Int) - ((P * 2 ^ 15 : Nat) : Int) + ((P * 2 ^ 17 : Nat) : Int) := by
  have hP : (0 : Int) ≤ P := Int.natCast_nonneg P
  have hbelow : -0x8000 * (P : Int) ≤ off * P := Int.mul_le_mul_of_nonneg_right hleast hP
  have habove : off * P ≤ 0x17FFF * (P : Int) := Int.mul_le_mul_of_nonneg_right hmost hP
  have hunit : ((q * P : Nat) : Int) = q * P := Int.natCast_mul q P
  rw [Int.sub_mul, ← hunit]
  generalize off * (P : Int) = shift at *
  omega

/-- R59, R61: a capability's own cursor lies in its representable window. -/
theorem capInWindow_cursor (c : Cap) : capInWindow c (capCursor c).toNat = true := by
  have hcur : (capCursor c).toNat < 2 ^ 64 := (capCursor c).isLt
  unfold capInWindow capBounds
  dsimp only
  generalize (capCursor c).toNat = cur at *
  generalize (capE c).toNat = e
  generalize hoff : (cur >>> e % 2 ^ 17 + 2 ^ 17 - (capB c).toNat) % 2 ^ 17 = off0
  have hoff0 : off0 < 2 ^ 17 := hoff ▸ Nat.mod_lt _ (by decide)
  generalize hoffset : (if off0 ≥ 0x18000 then (off0 : Int) - 0x20000 else (off0 : Int)) = off
  have hrange : -0x8000 ≤ off ∧ off ≤ 0x17FFF := by
    rw [← hoffset]
    split <;> omega
  have hunit : cur / 2 ^ e * 2 ^ e ≤ cur := Nat.div_mul_le_self ..
  have hnext : cur < cur / 2 ^ e * 2 ^ e + 2 ^ e := Nat.lt_div_mul_add (Nat.two_pow_pos e)
  obtain ⟨hlow, hhigh⟩ := mem_window_of_offset hunit hnext hrange.1 hrange.2
  rw [Nat.shiftRight_eq_div_pow, Nat.pow_add, Nat.pow_add, decide_eq_true hlow, decide_eq_true hhigh, decide_eq_true hcur]
  rfl

/-- R165: TEPC is EXC as it stands. -/
theorem tepc_eq_exc (e : Cap) : (⟨e.tag && capInWindow e (capCursor e).toNat, setFld e.bits 0 (capCursor e)⟩ : Cap) = e := by
  rw [capInWindow_cursor, Bool.and_true]
  exact congrArg (Cap.mk e.tag) (setFld_fld_self e.bits 0 64)

/- The load of a vector table entry (R162) -/

/-- What a read meets in the data cache of its core: its caches, and lines that leave the others'. -/
theorem dcacheAccess_read (s : State) (n line tenant : Nat) (cls : BitVec 2) :
    (dcacheAccess s n line tenant cls false).2.regs = s.regs ∧ Beside s (dcacheAccess s n line tenant cls false).2 n ∧
    ∃ dc ic dr, coreOf (dcacheAccess s n line tenant cls false).2 n =
      { coreOf s n with dcache := dc, icache := ic, drecent := dr } := by
  unfold dcacheAccess
  split
  · exact ⟨rfl, (OnlyRegs.refl (fun _ => false) s).beside n, _, _, _, rfl⟩
  · have hfree : ∀ m, coreOf (freeNext s).2 m = coreOf s m := fun m => coreOf_congr (freeNext_cores s) m
    generalize hr : cacheTouch (coreOf (freeNext s).2 n).dcache (coreOf (freeNext s).2 n).drecent 128 8 line tenant
      (cls == 1 || (cls == 2 && !false)) (false && cls == 1) false (freeNext s).1.toNat = r
    obtain ⟨miss, filled, m, rec⟩ := r
    generalize hu : setCore (freeNext s).2 n { coreOf (freeNext s).2 n with dcache := m, drecent := rec } = u
    have hcore : coreOf u n = { coreOf s n with dcache := m, drecent := rec } := by rw [← hu, coreOf_setCore_self, hfree]
    have hbeside : Beside s u n := by
      rw [← hu]
      exact ⟨rfl, fun j hj => by rw [coreOf_setCore_ne _ _ hj, hfree]; exact .refl _⟩
    have hregs : u.regs = s.regs := by rw [← hu]; rfl
    simp only [hr, hu]
    cases filled
    · exact ⟨hregs, hbeside, _, _, _, hcore⟩
    · obtain ⟨hframe, hlines⟩ := dropOthers_frame u line tenant
      refine ⟨?_, hbeside.trans ⟨?_, fun j _ => hlines j⟩, ?_⟩
      · simp only [if_true]; rw [hframe]; exact hregs
      · simp only [if_true]; rw [hframe]
      · simp only [if_true]
        rw [(hlines n).1, hcore]
        exact ⟨_, _, _, rfl⟩

/-- R162: a vector table that gives a handler has been read, under the rules, through the data cache. -/
theorem vectorEntry_handler {s s1 : State} {n : Nat} {k : Cause} {hd : Cap} (h : vectorEntry s n k = .gives (.inl hd) s1) :
    ∃ u line cls, RuleChecked s u ∧ s1 = (dcacheAccess u n line 0 cls false).2 := by
  unfold vectorEntry at h
  dsimp only at h
  split at h
  · cases h
  · split at h
    · split at h <;> cases h
    · split at h
      · cases h
      · split at h
        · cases h
        · split at h
          · cases h
          · split at h
            · cases h
            · split at h
              · cases h
              · injection h with _ hs
                exact ⟨_, _, _, ruleChecked_acuCheck .., hs.symm⟩

/-- What the load of a handler leaves of the core, the registers and the rest. -/
theorem vectorEntry_after {s s1 : State} {n : Nat} {k : Cause} {hd : Cap} (h : vectorEntry s n k = .gives (.inl hd) s1) :
    RegsKept acuKey s s1 ∧ Beside s s1 n ∧
    ∃ dc ic dr, coreOf s1 n = { coreOf s n with dcache := dc, icache := ic, drecent := dr } := by
  obtain ⟨u, line, cls, hchecked, rfl⟩ := vectorEntry_handler h
  obtain ⟨hregs, hbeside, hcore⟩ := dcacheAccess_read u n line 0 cls
  rw [coreOf_congr hchecked.cores] at hcore
  refine ⟨fun key hkey => ?_, (hchecked.beside n).trans hbeside, hcore⟩
  rw [hregs, hchecked.2 key hkey]

/- An interrupt that meets a wait (R436; 06 R167, R168) -/

theorem exec_scwaitSatisfied (s : State) (k : BitVec 4) : exec (.scwaitSatisfied k) s = .next (settleWait s k.toNat) := rfl
theorem exec_interruptEntry (s : State) (k : BitVec 4) : exec (.interruptEntry k) s = execInterruptEntry k s := rfl

/-- Core `n` stands at a boundary at which an interrupt may enter. -/
def mayInterrupt (s : State) (n : Nat) : Bool :=
  s.coresReleased && (coreOf s n).running && atBoundary (coreOf s n) && !fenced s && interruptsOpen (coreOf s n)

theorem interruptEntry_open {s : State} {k : BitVec 4} (hopen : mayInterrupt s k.toNat = true)
    (hpending : pendingCauses s k.toNat ≠ []) :
    exec (.interruptEntry k) s =
      .next (tryInterrupts (settleWait s k.toNat) k.toNat (pendingCauses (settleWait s k.toNat) k.toNat)) := by
  have hcond : (mayInterrupt s k.toNat && pendingCauses s k.toNat != []) = true := by simp [hopen, hpending]
  rw [exec_interruptEntry, execInterruptEntry]
  exact if_pos hcond

/-- 06 R167: an interrupt is pending and enabled by its bits. -/
theorem pendingCauses_ne_nil {s : State} {n : Nat} :
    pendingCauses s n ≠ [] ↔ ∃ b < 4, regBit s (Reg.intPend n) b = true ∧ regBit s (Reg.intEn n) b = true := by
  unfold pendingCauses regBit bitAt
  simp only [ne_eq, List.map_eq_nil_iff, List.filter_eq_nil_iff, List.mem_range, Bool.and_eq_true, BitVec.testBit_toNat,
    Classical.not_forall, Classical.not_not, exists_prop]

/-- Counting events may only add an interrupt. -/
theorem intPend_promoted {u : State} {n b : Nat} (d before : HlCore) (events : List Nat) (hb : b < 64)
    (h : regBit u (Reg.intPend n) b = true) : regBit (promoted u n d before events) (Reg.intPend n) b = true := by
  have hset : regBit (setCore u n d) (Reg.intPend n) b = true := h
  have hperf : regBit (perfEvents (setCore u n d) n before events) (Reg.intPend n) b = true := by
    unfold perfEvents
    dsimp only
    split
    · unfold setPend
      rw [regBit_regOr_twoPow _ _ _ _ hb]
      exact Bool.or_eq_true_iff.mpr (.inl h)
    · exact h
  exact hperf

section
variable {s : State} {n x rd : Nat} {target : W32}

/-- After a satisfied wait has retired, its core still stands where an interrupt may enter. -/
theorem mayInterrupt_settleWait (hn : n < 16) (hopen : mayInterrupt s n = true)
    (hwait : (coreOf s n).wait = .counter x target rd) (hdone : scPoisoned s x = true ∨ target.toNat ≤ scVal s x) :
    mayInterrupt (settleWait s n) n = true := by
  simp only [mayInterrupt, Bool.and_eq_true, Bool.not_eq_true'] at hopen ⊢
  obtain ⟨⟨⟨⟨hreleased, hrun⟩, _⟩, hfence⟩, hints⟩ := hopen
  obtain ⟨hbeside, hregs, hcore⟩ := settleWait_after hrun hfence hwait hdone
  have hstatus : regGet (settleWait s n) Reg.errStatus = regGet s Reg.errStatus :=
    (hregs.regGet (beq_eq_false_iff_ne.mpr (by unfold Reg.intPend Reg.errStatus; omega))).trans
      ((onlyRegs_settledFrom s x).2.regGet (by decide))
  refine ⟨⟨⟨⟨?_, ?_⟩, ?_⟩, ?_⟩, ?_⟩
  · rw [hbeside.1]; exact hreleased
  · rw [hcore.1, gSet_eq]; exact hrun
  · rw [hcore.1, gSet_eq]; rfl
  · rw [← hfence]; exact congrArg (bitAt · 0) hstatus
  · rw [hcore.1, gSet_eq]; exact hints

/-- After a satisfied wait has retired, an interrupt that was pending is pending still. -/
theorem pendingCauses_settleWait (hn : n < 16) (hrun : (coreOf s n).running = true) (hfence : fenced s = false)
    (hwait : (coreOf s n).wait = .counter x target rd) (hdone : scPoisoned s x = true ∨ target.toNat ≤ scVal s x)
    (hpending : pendingCauses s n ≠ []) : pendingCauses (settleWait s n) n ≠ [] := by
  obtain ⟨b, hb, hpend, hen⟩ := pendingCauses_ne_nil.mp hpending
  obtain ⟨events, hsettle⟩ := settleWait_done hrun hfence hwait hdone
  obtain ⟨_, hregs, _⟩ := settleWait_after hrun hfence hwait hdone
  have hops := (onlyRegs_settledFrom s x).2
  refine pendingCauses_ne_nil.mpr ⟨b, hb, ?_, ?_⟩
  · rw [hsettle]
    refine intPend_promoted _ _ _ (by omega) ?_
    rw [regBit, regGet, (promoteFetch_after _ _).1]
    have hkept : regGet (settledFrom s x) (Reg.intPend n) = regGet s (Reg.intPend n) :=
      hops.regGet (beq_eq_false_iff_ne.mpr (by unfold Reg.intPend Reg.scOps; omega))
    exact (congrArg (bitAt · b) hkept).trans hpend
  · have hkept : regGet (settleWait s n) (Reg.intEn n) = regGet s (Reg.intEn n) :=
      (hregs.regGet (beq_eq_false_iff_ne.mpr (by unfold Reg.intPend Reg.intEn; omega))).trans
        (hops.regGet (beq_eq_false_iff_ne.mpr (by unfold Reg.intEn Reg.scOps; omega)))
    exact (congrArg (bitAt · b) hkept).trans hen

end

/-- R436: a wait that is satisfied when an interrupt comes due retires first; the interrupt then enters as it would after it. -/
theorem interruptEntry_after_satisfied {s t : State} {k : BitVec 4} {x rd : Nat} {target : W32}
    (hopen : mayInterrupt s k.toNat = true) (hpending : pendingCauses s k.toNat ≠ [])
    (hwait : (coreOf s k.toNat).wait = .counter x target rd) (hdone : scPoisoned s x = true ∨ target.toNat ≤ scVal s x)
    (hsat : exec (.scwaitSatisfied k) s = .next t) : exec (.interruptEntry k) s = exec (.interruptEntry k) t := by
  obtain rfl : settleWait s k.toNat = t := by
    rw [exec_scwaitSatisfied] at hsat
    exact Host.Outcome.next.inj hsat
  have hopen' := mayInterrupt_settleWait k.isLt hopen hwait hdone
  simp only [mayInterrupt, Bool.and_eq_true, Bool.not_eq_true'] at hopen
  obtain ⟨⟨⟨⟨hreleased, hrun⟩, hbound⟩, hfence⟩, hints⟩ := hopen
  obtain ⟨_, _, hcore⟩ := settleWait_after hrun hfence hwait hdone
  obtain ⟨_, _, hended⟩ := hcore.written
  have hidle : settleWait (settleWait s k.toNat) k.toNat = settleWait s k.toNat := settleWait_none hended
  rw [interruptEntry_open hopen' (pendingCauses_settleWait k.isLt hrun hfence hwait hdone hpending), hidle]
  exact interruptEntry_open (by simp [mayInterrupt, hreleased, hrun, hbound, hfence, hints]) hpending

/-- An interrupt is entered through the vector table by the handler that it gives. -/
theorem takeTrap_interrupt {s s1 : State} {n : Nat} {k : Cause} {hd : Cap} (hlow : 16 ≤ k.num) (hhigh : k.num < 32)
    (hst : bitAt (coreOf s n).st 1 = false) (hvec : vectorEntry s n k = .gives (.inl hd) s1) :
    takeTrap s n k = enterVector s1 n k (.inl hd) := by
  unfold takeTrap
  simp only [machineCause, interruptCause, Nat.not_le.mpr hhigh, hlow, hhigh, decide_false, decide_true, Bool.false_eq_true,
    Bool.and_self, Bool.not_true, Bool.false_and, if_false, hst, hvec]

/-- A core that holds nothing begun. -/
theorem FetchedCore.of_clear {c : HlCore} (hbegun : c.begun = false) (hfetched : c.fetched = none) : FetchedCore c c := by
  refine ⟨?_, fun _ he => he⟩
  rw [← hbegun, ← hfetched]

/-- The core that enters an interrupt: bank O filled, G30 exchanged, EXC at the handler. -/
def interruptedCore (s : State) (n : Nat) (k : Cause) (hd : Cap) : HlCore :=
  { clearBegun (gSet { coreOf s n with bankO := (fillBank s (coreOf s n) (coreOf s n).bankO k false).1 } 30
      (fillBank s (coreOf s n) (coreOf s n).bankO k false).2) with exc := capWithOtype hd 0 hd.tag }

theorem enterVector_handler {s : State} {n : Nat} {k : Cause} {hd : Cap}
    (hring : (capRing hd).toNat ≤ (excRing (coreOf s n)).toNat) :
    enterVector s n k (.inl hd) =
      (.entered, perfEvents (setCore s n (interruptedCore s n k hd)) n (coreOf s n) [13]) :=
  if_neg (Nat.not_lt.mpr hring)

theorem interruptedCore_clear (s : State) (n : Nat) (k : Cause) (hd : Cap) :
    FetchedCore (interruptedCore s n k hd) (interruptedCore s n k hd) := .of_clear rfl rfl

theorem interruptedCore_bankO (s : State) (n : Nat) (k : Cause) (hd : Cap) :
    (interruptedCore s n k hd).bankO = (fillBank s (coreOf s n) (coreOf s n).bankO k false).1 := by
  unfold interruptedCore
  rw [gSet_eq]
  rfl

/-- The state after core `n` has entered an interrupt: its pending bit is cleared and its next boundary noted (06 R168). -/
def interrupted (s : State) (n : Nat) (k : Cause) (hd : Cap) : State :=
  atEdge (regClr (perfEvents (setCore s n (interruptedCore s n k hd)) n (coreOf s n) [13]) (Reg.intPend n) (2 ^ (k.num - 16))) n

theorem interrupted_after (s : State) (n : Nat) (k : Cause) (hd : Cap) :
    RegsKept (· == Reg.intPend n) s (interrupted s n k hd) ∧ Beside s (interrupted s n k hd) n ∧
    FetchedCore (interruptedCore s n k hd) (coreOf (interrupted s n k hd) n) := by
  have hset : FetchedCore (interruptedCore s n k hd) (coreOf (setCore s n (interruptedCore s n k hd)) n) := by
    rw [coreOf_setCore_self]
    exact interruptedCore_clear s n k hd
  have hcounted := hset.perfEvents (coreOf s n) [13]
  have hregs := (perfEvents_frame (setCore s n (interruptedCore s n k hd)) n (coreOf s n) [13]).2
  have hbeside := (beside_setCore s n (interruptedCore s n k hd)).trans (beside_perfEvents _ n (coreOf s n) [13])
  unfold interrupted
  generalize perfEvents (setCore s n (interruptedCore s n k hd)) n (coreOf s n) [13] = u at *
  have hclear : OnlyRegs (· == Reg.intPend n) u (regClr u (Reg.intPend n) (2 ^ (k.num - 16))) := onlyRegs_regSet u _ _
  refine ⟨fun key hkey => ?_, hbeside.trans ((hclear.beside n).trans (beside_atEdge _ n)), FetchedCore.atEdge ?_⟩
  · exact (hclear.2 key hkey).trans (hregs key hkey)
  · rwa [coreOf_congr hclear.cores]

/-- The only interrupt that is due enters by the handler that the vector table gives. -/
theorem tryInterrupts_handler {s s1 : State} {n cause : Nat} {hd : Cap} (hdeferred : (coreOf s n).deferred = [])
    (hlow : 16 ≤ cause) (hhigh : cause < 32) (hst : bitAt (coreOf s n).st 1 = false)
    (hvec : vectorEntry s n (interruptAs (coreOf s n) cause) = .gives (.inl hd) s1)
    (hring : (capRing hd).toNat ≤ (excRing (coreOf s1 n)).toNat) :
    tryInterrupts s n [cause] = interrupted s1 n (interruptAs (coreOf s n) cause) hd := by
  unfold tryInterrupts
  simp only [hdeferred, List.contains_nil, Bool.false_eq_true, if_false,
    takeTrap_interrupt (k := interruptAs (coreOf s n) cause) hlow hhigh hst hvec, enterVector_handler hring]
  rfl

/-- R436: an interrupt ends a wait that is not satisfied; TEPC names the SCWAIT, so that it is made anew on return. -/
theorem interruptEntry_ends_wait {s s1 : State} {k : BitVec 4} {x rd cause : Nat} {target : W32} {hd : Cap}
    (hopen : mayInterrupt s k.toNat = true) (hdeferred : (coreOf s k.toNat).deferred = [])
    (hpending : pendingCauses s k.toNat = [cause]) (hlow : 16 ≤ cause) (hhigh : cause < 32)
    (hst : (coreOf s k.toNat).st.getLsbD 1 = false) (hwait : (coreOf s k.toNat).wait = .counter x target rd)
    (hp : scPoisoned s x = false) (hshort : scVal s x < target.toNat)
    (hvec : vectorEntry s k.toNat (interruptAs (coreOf s k.toNat) cause) = .gives (.inl hd) s1)
    (hring : (capRing hd).toNat ≤ (excRing (coreOf s k.toNat)).toNat) :
    Answers (.interruptEntry k) s (fun t => (coreOf t k.toNat).wait = .none ∧ (coreOf t k.toNat).exc = unsealed hd ∧
      (coreOf t k.toNat).bankO.tepc = (coreOf s k.toNat).exc ∧ (∀ y, y < 256 → scVal t y = scVal s y) ∧ MemKept s t) := by
  obtain ⟨hregs, hbeside, dc, ic, dr, hcore⟩ := vectorEntry_after hvec
  have hexc : (coreOf s1 k.toNat).exc = (coreOf s k.toNat).exc := by rw [hcore]
  have hring1 : (capRing hd).toNat ≤ (excRing (coreOf s1 k.toNat)).toNat := by rwa [excRing, hexc]
  obtain ⟨hregs', hbeside', hcore'⟩ := interrupted_after s1 k.toNat (interruptAs (coreOf s k.toNat) cause) hd
  have hkept := hregs.trans (hregs'.intPend k.isLt)
  refine .of_exec (interruptEntry_open hopen (by simp [hpending])) ⟨_, ?_, hcore'.wait.trans rfl, hcore'.exc.trans rfl, ?_,
    fun y hy => hkept.scVal hy, (hbeside.trans hbeside').memKept⟩
  · rw [settleWait_short hwait hp hshort, hpending, tryInterrupts_handler hdeferred hlow hhigh hst hvec hring1]
  · rw [hcore'.1, interruptedCore_bankO]
    exact (congrArg (fun e : Cap => (⟨e.tag && capInWindow e (capCursor (coreOf s k.toNat).exc).toNat,
      setFld e.bits 0 (capCursor (coreOf s k.toNat).exc)⟩ : Cap)) hexc).trans (tepc_eq_exc _)

/- HL_STATUSn (05 R144) -/

theorem regRead_hlStatus (s : State) {n : Nat} (hn : n < 16) :
    regRead s 0 (Reg.hlStatus n) = BitVec.ofNat 64 (hlStatusWord s n) := by
  have hacu : Reg.hlStatus n ≠ Reg.acuStatus := by unfold Reg.hlStatus Reg.acuStatus; omega
  have hrule : ¬ Reg.hlStatus n < Reg.ruleStart 256 := by unfold Reg.hlStatus Reg.ruleStart; omega
  have hfirst : Reg.hlStatus 0 ≤ Reg.hlStatus n := by unfold Reg.hlStatus; omega
  have hlast : Reg.hlStatus n < Reg.hlStatus 16 := by unfold Reg.hlStatus; omega
  have hblock : ¬ Reg.hlStatus n < 0x10000 ∧ Reg.hlStatus n < 0x80000 := by unfold Reg.hlStatus; omega
  have hindex : (Reg.hlStatus n - Reg.hlStatus 0) / 4 = n := by unfold Reg.hlStatus; omega
  have hread : readLowBlocks s (Reg.hlStatus n) = some (hlStatusWord s n) := by
    unfold readLowBlocks
    simp only [hacu, hrule, hfirst, hlast, hindex, if_false, if_true, decide_false, decide_true, Bool.and_false, Bool.and_self,
      Bool.false_eq_true]
  unfold regRead
  simp only [hblock.1, hblock.2, if_false, if_true, hread]

/-- R436: HL_STATUSn.WAITING is set while a running core waits. -/
theorem hlStatus_waiting {s : State} {n : Nat} (hn : n < 16) (hrun : (coreOf s n).running = true)
    (hwait : (coreOf s n).wait ≠ .none) : (regRead s 0 (Reg.hlStatus n)).getLsbD 12 = true := by
  have hring : (excRing (coreOf s n)).toNat < 4 := (excRing (coreOf s n)).isLt
  have htenant : ctxTenant (coreOf s n) < 256 := (fld (coreOf s n).ctx 0 8).isLt
  have hword : hlStatusWord s n = 2 ^ 12 + (1 + (excRing (coreOf s n)).toNat * 4 + ctxTenant (coreOf s n) * 2 ^ 4) := by
    have hbne : ((coreOf s n).wait != .none) = true := by simpa using hwait
    unfold hlStatusWord
    simp only [hrun, hbne, bit01, Bool.and_self, Bool.not_true, Bool.false_eq_true, if_true, if_false]
    omega
  rw [regRead_hlStatus s hn, BitVec.getLsbD_ofNat, hword, Nat.testBit_two_pow_add_eq, Nat.testBit_lt_two_pow (by omega)]
  rfl

/-- What a core held at an SCWAIT shows (R436). -/
theorem HeldAfter.shows {s t : State} {n : Nat} {w : HlWait} (hn : n < 16) (hrun : (coreOf s n).running = true) (hw : w ≠ .none)
    (h : HeldAfter s n w t) :
    FetchedCore { coreOf s n with wait := w } { coreOf t n with fetched := none } ∧
    (regRead t 0 (Reg.hlStatus n)).getLsbD 12 = true ∧ (coreOf t n).icache = (coreOf s n).icache ∧
    (coreOf t n).fetched = some (fetchCheck s (coreOf s n).exc (coreTenant (coreOf s n))).2.1 ∧
    (coreOf t n).perf = (coreOf s n).perf ∧ (∀ m, m ≠ n → coreOf t m = coreOf s m) ∧ RegsKept acuKey s t ∧ MemKept s t := by
  obtain ⟨hcore, hothers, hregs, hmem⟩ := h
  refine ⟨?_, hlStatus_waiting hn ?_ ?_, ?_, ?_, ?_, hothers, hregs, hmem⟩
  · rw [hcore]; exact ⟨rfl, fun _ he => he⟩
  · rw [hcore]; exact hrun
  · rw [hcore]; exact hw
  all_goals rw [hcore]

/-- A satisfied wait as SCWAIT_SATISFIED shows it (R436, R444). -/
theorem scwaitSatisfied_answers {s : State} {k : BitVec 4} {x rd : Nat} {target : W32} (hrun : (coreOf s k.toNat).running = true)
    (hfence : fenced s = false) (hwait : (coreOf s k.toNat).wait = .counter x target rd)
    (hdone : scPoisoned s x = true ∨ target.toNat ≤ scVal s x) :
    Answers (.scwaitSatisfied k) s (fun t =>
      RegsKept (· == Reg.intPend k.toNat) (settledFrom s x) t ∧ (coreOf t k.toNat).wait = .none ∧
      (coreOf t k.toNat).exc = (advance (coreOf s k.toNat)).exc ∧
      (∀ r, gGet (coreOf t k.toNat) r = if r = rd ∧ r ≠ 0 then capOfInt (settledValue s x) else gGet (coreOf s k.toNat) r) ∧
      (∀ m, m ≠ k.toNat → LinesLeft (coreOf s m) (coreOf t m)) ∧ MemKept s t) := by
  obtain ⟨hbeside, hregs, hcore⟩ := settleWait_after hrun hfence hwait hdone
  obtain ⟨hg, hexc, hidle⟩ := hcore.written
  exact .of_exec (exec_scwaitSatisfied ..) ⟨_, rfl, hregs, hidle, hexc, hg, hbeside.2, hbeside.memKept⟩

/-- The words of the three instructions (R434). -/
theorem encodeHl_sync (k : BitVec 4) (d a b : BitVec 5) :
    encodeHl (.scinc k d a b) = 0x3A#6 ++ d ++ a ++ b ++ 3#11 ∧ encodeHl (.scwait k d a b) = 0x3A#6 ++ d ++ a ++ b ++ 4#11 ∧
      encodeHl (.screset k d a b) = 0x3A#6 ++ d ++ a ++ b ++ 5#11 := ⟨rfl, rfl, rfl⟩

/-- Settles O19: each instruction by the lemma on what it answers, a wait by `settleWait_after`, an interrupt that meets a wait by
`interruptEntry_ends_wait` and `interruptEntry_after_satisfied`, a set-up write by `scValueWrite_sets`. -/
theorem syncCountersCount : Obligations.SyncCountersCount := by
  intro s k d a b x
  refine ⟨fun hfetch hunavailable => scUnnamed_answers hfetch d a b (scNamed_eq_none hunavailable),
    fun hfetch hname => ⟨fun hp => ?scinc, fun hp => scPoisoned_answers hfetch d b hname hp, fun hp hreached => ?reached,
      fun hp hshort => ?short, ?screset⟩,
    fun target rd hrun hfence hwait hp hreached => ?satisfied, fun target rd hrun hfence hwait hp => ?poisoned,
    fun b cause target rd h s1 hreleased hrun hbound hdeferred hfence hwait hp hst0 hst1 hbankO hbankM hb hpending hcause =>
      ?interrupt,
    encodeHl_sync k d a b, fun agent value hdenied _ => scValueWrite_denied hdenied _ value,
    fun agent value hallowed hx => scValueWrite_sets hallowed hx value⟩
  case scinc =>
    refine (scinc_answers hfetch d b hname hp).imp fun t ⟨hval, hsat, hcore, hmem⟩ => ?_
    obtain ⟨hg, hexc, _⟩ := hcore.written
    exact ⟨(hval x (lt_of_scNamed hname)).trans (if_pos rfl), fun y hy hne => (hval y hy).trans (if_neg hne), hsat, hg, hexc, hmem⟩
  case reached =>
    refine (scwait_reached_answers hfetch d b hname hp hreached).imp fun t ⟨hcore, hval, hmem⟩ => ?_
    obtain ⟨hg, hexc, hwait⟩ := hcore.written
    exact ⟨hg, hexc, hwait.trans hfetch.idle, hval, hmem⟩
  case short =>
    exact (scwait_short_answers hfetch d b hname hp hshort).imp fun t hheld =>
      hheld.shows k.isLt hfetch.running HlWait.noConfusion
  case screset =>
    rintro rfl
    refine (screset_answers hfetch d hname).imp fun t ⟨hcore, hval, hmem⟩ => ?_
    have hself := hval x (lt_of_scNamed hname)
    refine ⟨hself.1.trans (if_pos rfl), by simp [hself.2], fun y hy hne => ?_, hcore.written.1, hmem⟩
    simp [hval y hy, hne]
  case satisfied =>
    refine (scwaitSatisfied_answers hrun hfence hwait (.inr hreached)).imp fun t ⟨_, hidle, hexc, hg, hothers, hmem⟩ => ?_
    rw [settledValue, hp, if_neg Bool.false_ne_true] at hg
    exact ⟨hidle, hexc, hg, hothers, hmem⟩
  case poisoned =>
    refine (scwaitSatisfied_answers hrun hfence hwait (.inl hp)).imp fun t ⟨hregs, hidle, hexc, hg, hothers, hmem⟩ => ?_
    rw [settledValue, hp, if_pos rfl] at hg
    rw [settledFrom, hp, if_pos rfl] at hregs
    exact ⟨hidle, hexc, fun y hy => (hregs.intPend k.isLt).scVal hy, hg, hothers, hmem⟩
  case interrupt =>
    have hopen : mayInterrupt s k.toNat = true := by
      simp only [mayInterrupt, interruptsOpen, bitAt, hreleased, hrun, hbound, hfence, hst0, hbankO, hbankM, Bool.not_false,
        Bool.and_self]
    refine ⟨fun hshort hvec hring => ?_, fun hreached t hsat => ?_⟩
    · exact interruptEntry_ends_wait hopen hdeferred hpending (by omega) (by omega) hst1 hwait hp hshort hvec hring
    · exact interruptEntry_after_satisfied hopen (by simp [hpending]) hwait (.inr hreached) hsat

end Sys2Proof.Machine
